-- ==== Sys2Proof/Word.lean ====
section
/-! DEFINITION. The plain data types every file uses: bytes, byte memories and sparse tables. -/

namespace Sys2Proof

/-- A byte, as the spec's byte-addressed memories hold it. -/
abbrev Byte := BitVec 8

/-- A sparse table: index and entry pairs, indexes rising. An index not listed has the table's default entry,
which each field of the state names in its docstring. -/
abbrev Tbl (α : Type) := List (Nat × α)

/-- A byte memory: cells in rising address order. An address not listed reads as zero, and no listed byte is zero. -/
abbrev Mem := List Host.Cell

end Sys2Proof
end

