-- ==== Sys2Proof/Syntax.lean ====
section
/-! DEFINITION. The commands and events of the Plaeset T24: one constructor of `Instr` per row of the operation table,
with the facts its sender or its surroundings settle as operands. What the device itself holds is no operand. -/

namespace Sys2Proof

/-- The two command windows (R385): the PCW in BAR0 and the JCW in BAR2. -/
inductive Win where
  | pcw
  | jcw
  deriving DecidableEq, Repr

/-- The source of an order on one object (R242): hardware safety, the board management controller, the PCW or a Marshal, a
Starter entry, the JCW. -/
inductive Order where
  | safety
  | bmc
  | pcw
  | starter (entry : Nat)
  | jcw
  deriving DecidableEq, Repr

/-- An error that SECDED finds in one 64-bit word of an SRAM during an access (R39, R137): where, and whether two bits
are wrong. Which bits flip is a fact of the part, so the access names it. -/
structure EccHit where
  /-- Reservoir byte address of the word, or Basin row × 32 + word of the row -/
  addr : Nat
  /-- two bits are wrong: the word cannot be corrected -/
  double : Bool
  deriving DecidableEq, Repr

/-- A residue mismatch in a Furrow (R477). The result flows on, so the value that the faulty unit gave is named. -/
structure Residue where
  /-- false: a multiplier cell; true: a column-tree adder (UNIT 1 or 2 of PLOT_FAULT, R478) -/
  tree : Bool
  /-- logical column of the group, 0 to 7 -/
  column : Nat
  /-- the column sum that flows on -/
  value : BitVec 32
  deriving DecidableEq, Repr

/-- A residue mismatch in a vector-unit lane or a Sluice pipe (R477), with the result that flows on. -/
structure LaneFault where
  /-- lane 0 to 511, or pipe 0 to 3 -/
  lane : Nat
  /-- row position of the vector operation, or element of the block -/
  pos : Nat
  /-- the FP32 result that flows on -/
  value : BitVec 32
  deriving DecidableEq, Repr

/-- What goes wrong while a vector operation runs: SECDED hits on its Reservoir and Basin reads and a lane fault. -/
structure VecFaults where
  /-- hits on Reservoir words -/
  rsv : List EccHit := []
  /-- hits on Basin words, with the Furrow whose Basin it is -/
  basin : List (Nat × EccHit) := []
  /-- a residue fault of one lane -/
  lane : Option LaneFault := none
  deriving DecidableEq, Repr

/-- What the HBM ECC finds in one 32 B unit (R162, R163). -/
inductive UnitErr where
  | clean
  /-- an error confined to one symbol -/
  | single
  /-- an error in several symbols whose syndrome is that of an error in one: the data that the code gives is wrong -/
  | miscorrected (data : List Byte)
  | uncorrectable
  deriving DecidableEq, Repr

/-- The registers of a region (R149). -/
inductive RgnReg where
  | base
  | size
  | soff
  | cfg
  deriving DecidableEq, Repr

/-- A gather that reaches a Sluice (R212): the collective context it serves and the segment. EXPECT, HOLD_OP and STEP_ARG
are those of the context's descriptor. -/
structure Gather where
  /-- collective context of the gather -/
  ctx : Nat
  /-- segment number -/
  seg : Nat
  /-- what SECDED finds in the tag-store entry it reads (R211): a wrong bit, or two (true) -/
  tagErr : Option Bool := none
  deriving DecidableEq, Repr

/-- A TIMING message as it crosses the PMA boundary (R225, R226). Times are the parent's Stride Time in units of 2^-32 ns; the
receiver's own timestamps are its state. -/
inductive TimingMsg where
  /-- a follower's request -/
  | request (replayed : Bool)
  /-- a parent's answer: its t1 and t4, its master and generation, its lock state code; whether it came in a replayed flit (R253) -/
  | answer (t1 t4 : Nat) (master : BitVec 14) (gen : BitVec 8) (lock : BitVec 2) (replayed : Bool)
  deriving DecidableEq, Repr

/-- A packet (R276): its header fields, its payload and the CRC of its trailer (R277). LEN is the payload's length. -/
structure Packet where
  /-- CLASS: 0 REQ, 1 RSP, 2 FWD, 3 COLL, 4 BULK, 5 CTRL -/
  cls : BitVec 3 := 0
  /-- SPILL -/
  spill : Bool := false
  /-- DOWN -/
  down : Bool := false
  /-- DEFL -/
  defl : BitVec 4 := 0
  /-- BATON -/
  baton : Bool := false
  /-- ESC_WAIT -/
  escWait : BitVec 8 := 0
  /-- DST -/
  dst : BitVec 14 := 0
  /-- SRC -/
  src : BitVec 14 := 0
  /-- OP -/
  op : BitVec 4 := 0
  /-- ADDR -/
  addr : BitVec 48 := 0
  /-- TAG -/
  tag : BitVec 16 := 0
  /-- BCOUNT -/
  bcount : BitVec 24 := 0
  /-- EPOCH -/
  epoch : BitVec 2 := 0
  /-- ARG -/
  arg : BitVec 32 := 0
  /-- payload bytes -/
  payload : List Byte := []
  /-- CRC-32C of the trailer -/
  crc : BitVec 32 := 0
  deriving DecidableEq, Repr

/-- A link flit (R249), with the places of the codeword symbols that the receiver gets wrong (R247). Packets arrive by
PACKET_RECEIVE and TIMING. -/
structure Flit where
  /-- TYPE: 0 DATA, 1 CONTROL, 2 IDLE -/
  type : BitVec 2
  /-- SEQ -/
  seq : BitVec 12
  /-- ACK_SEQ -/
  ackSeq : BitVec 12
  /-- NAK -/
  nak : Bool
  /-- FIRST_PKT -/
  firstPkt : BitVec 10 := 1023
  /-- REPLAY -/
  replay : Bool
  /-- PAYLOAD; the bytes not listed are 0 -/
  payload : List Byte := []
  /-- CRC -/
  crc : BitVec 32 := 0
  /-- symbols of the codeword received wrong, 0 to 543 (R247) -/
  symErrs : List Nat := []
  deriving DecidableEq, Repr

/-- An ABORT message of the Relay (R348): its code, the rank and the digest it names, and the missing ranks. -/
structure AbortMsg where
  /-- abort code -/
  code : BitVec 4
  /-- the lowest rank it blames -/
  rank : Nat
  /-- rank 0's digest -/
  own : BitVec 64
  /-- the differing digest -/
  other : BitVec 64
  /-- missing ranks -/
  missing : List Nat
  deriving DecidableEq, Repr

/-- A COLL_DATA block (R356, R357), as its packets brought it: whose sum it is, its place, its elements, the step tags it
carries and the TAGs of its packets. -/
structure CollBlock where
  /-- device its packets came from, to which the answers go (R294) -/
  dev : BitVec 14 := 0
  /-- rank that sent it -/
  src : Nat
  /-- true: it travels up a reduction tree; false: down a tree, or straight to a destination -/
  up : Bool
  /-- shard of the vector; for a block sent straight to its destination, the rank it comes from -/
  shard : Nat
  /-- up: first leaf of the node it is the sum of -/
  a : Nat
  /-- up: end leaf of the node -/
  b : Nat
  /-- number of the block in its shard -/
  blk : Nat
  /-- elements: codes of FMT, accumulated values (a pair has h in [31:0] and l in [63:32]) or codes of OUT_FMT, each with its
  poison mark -/
  data : List (BitVec 64 × Bool)
  /-- step tags of the segments it was gathered from, in segment order -/
  tags : List (BitVec 31) := []
  /-- TAGs of its packets, each to be answered -/
  pkts : List (BitVec 16) := []
  deriving DecidableEq, Repr

/-- Parameters of SLUICE_CONFIG (R396). -/
structure SluiceConfig where
  /-- stacks addressed, a bit each -/
  stks : BitVec 32
  /-- SMAP base -/
  smapBase : BitVec 64
  /-- SMAP count -/
  smapCount : BitVec 32
  /-- GRP base -/
  grpBase : BitVec 64
  /-- FACT base -/
  factBase : BitVec 64
  /-- FACT count -/
  factCount : BitVec 32
  /-- LEDGER -/
  ledger : BitVec 64
  /-- HOLDWAIT -/
  holdWait : BitVec 32
  deriving DecidableEq, Repr

/-- A request of the board management controller over MCTP (R429): PLDM monitoring, the TDP setting, and its power cap
and clock ceilings (R241). Its SPDM requests are rows of their own. -/
inductive MctpReq where
  /-- read the sensors -/
  | monitor
  /-- set the TDP in watts -/
  | setTdp (watts : BitVec 16)
  /-- set the power cap in watts; 0 removes it -/
  | setCap (watts : BitVec 16)
  /-- set the clock ceiling of the named islands in MHz; 0 removes it -/
  | setCeil (islands : BitVec 16) (mhz : Nat)
  deriving DecidableEq, Repr

/-- The algorithms a requester offers in NEGOTIATE_ALGORITHMS (R456). -/
structure AlgReq where
  /-- it offers TPM_ALG_EDDSA_ED25519 -/
  ed25519 : Bool
  /-- it offers TPM_ALG_SHA_512 -/
  sha512 : Bool
  /-- it offers the DMTF measurement specification -/
  dmtf : Bool
  deriving DecidableEq, Repr

/-- A repair the Health Marshal finds due (R480). -/
inductive Repair where
  /-- AUTO_COLUMN: physical Plot, Furrow, physical column -/
  | column (plot furrow col : Nat)
  /-- AUTO_ROW of a Basin: physical Plot, Furrow, physical row -/
  | basinRow (plot furrow row : Nat)
  /-- AUTO_ROW of a Reservoir: physical Plot, bank, sub-array, row -/
  | rsvRow (plot bank sub row : Nat)
  /-- AUTO_PIPE: stack, pipe -/
  | pipe (stack pipe : Nat)
  /-- AUTO_PPR: stack, tracker entry -/
  | ppr (stack trk : Nat)
  /-- AUTO_CHANNEL: stack, logical channel -/
  | channel (stack lch : Nat)
  /-- AUTO_FUSE -/
  | fuse
  deriving DecidableEq, Repr

/-- A JTAG operation on the test port (R463). -/
inductive DbgOp where
  /-- read the device identification -/
  | idcode
  /-- BYPASS, SAMPLE/PRELOAD and EXTEST -/
  | boundary
  /-- read the trace buffer of Marshal m -/
  | marshalTrace (m : Nat)
  /-- read the issue trace of the Pacer of physical Plot p -/
  | pacerTrace (p : Nat)
  /-- read the telemetry -/
  | telemetry
  /-- halt Marshal m -/
  | halt (m : Nat)
  /-- let Marshal m execute one instruction -/
  | step (m : Nat)
  /-- read the SRAM or control range of the Marshals -/
  | sramRead (addr len : Nat)
  /-- write it -/
  | sramWrite (addr : Nat) (data : List Byte)
  /-- read a Reservoir -/
  | rsvRead (p addr len : Nat)
  /-- write a Reservoir -/
  | rsvWrite (p addr : Nat) (data : List Byte)
  /-- read a Basin row -/
  | basinRead (p f row : Nat)
  /-- write a Basin word -/
  | basinWrite (p f row col : Nat) (v : BitVec 32)
  /-- read step memory -/
  | stepRead (p addr len : Nat)
  /-- write step memory -/
  | stepWrite (p addr : Nat) (data : List Byte)
  /-- read the Relay store of a context's block -/
  | relayRead (ctx : Nat)
  /-- write an element of a block in the Relay store -/
  | relayWrite (ctx blk elem : Nat) (v : BitVec 64)
  /-- read device memory in HBM -/
  | hbmRead (s sb len : Nat)
  /-- write HBM -/
  | hbmWrite (s sb : Nat) (data : List Byte)
  /-- read a BAR0 register -/
  | regRead (off size : Nat)
  /-- write a BAR0 register -/
  | regWrite (off : Nat) (data : List Byte)
  /-- write the CERT store -/
  | certWrite (data : List Byte)
  deriving DecidableEq, Repr

/-- A command or event: one row of the operation table. Physical Plots are 0 to 271, stacks 0 to 23, links 0 to 17. -/
inductive Instr where
  /-- COLD_RESET (R11): Power-on or assertion of PERST_N returns every register, RWS included, to its reset value and loses Reservoir, Basin, step memory, HBM and the retained image; fuses and the identity key are kept. -/
  | coldReset
  /-- PERST_RELEASE (R498): Release of PERST_N samples the straps, locks the core PLL to REFCLK_CORE_A or B, and starts the boot core sequence. -/
  | perstRelease (pos : BitVec 14) (boot : BitVec 3) (refA refB : Bool) (fuseOne : List Nat) (fuseBoth : Bool)
  /-- BOOT_READY (R431): Once HBM is initialised and the boot sequence is done, GEN_BOOTSTAT reads READY. -/
  | bootReady
  /-- WARM_RESET (R11): A warm reset clears every register except RWS and kept fields, clears Reservoir, Basin, step memory and tables, keeps HBM and the retained image, and rechecks the image hash. -/
  | warmReset
  /-- FUNCTION_LEVEL_RESET (R380): A PCIe Function Level Reset performs a warm reset. -/
  | functionLevelReset
  /-- SYS_RESET_N (R502): A falling edge of SYS_RESET_N performs a warm reset ranked as the board management controller, unless PERST_N is asserted, a trip is latched, or the last warm reset was under 50 ms ago. -/
  | sysResetN
  /-- POWER_REMOVAL (R496): Removing the rails puts the device in OFF, and HBM contents are lost. -/
  | powerRemoval
  /-- D3HOT_ENTRY (R380): Entry to D3hot disables BAR decoding and DMA to the host and leaves the device otherwise running. -/
  | d3hotEntry
  /-- D0_RETURN (R380): Return to D0 re-enables the BARs with their contents as before D3hot. -/
  | d0Return
  /-- THERMAL_TRIP (R503): A sensor at 115 °C or an HBM stack at 105 °C latches THERMTRIP_N low and stops every core, mesh, base-die and SerDes clock within 1 µs. -/
  | thermalTrip (stack : Option Nat) (temp : BitVec 8)
  /-- RAIL_UNDERVOLTAGE (R494): A rail below its threshold for more than 1 µs while PERST_N is released raises DEVICE_FATAL with cause 5. -/
  | railUndervoltage (rail : BitVec 8)
  /-- CORE_REF_LOSS (R479): Loss of the primary REFCLK_CORE for 100 ns switches the core PLL to the duplicate reference and sets PLL_ALT; loss of both is DEVICE_FATAL. -/
  | coreRefLoss (otherPresent : Bool)
  /-- AVS_VOLTAGE_REACHED (R493): The VDD_CORE regulator reports a new voltage over AVSBus, releasing raised grants, or a third failed transaction holds the voltage and raises DEVICE_FATAL. -/
  | avsVoltageReached (ok : Bool) (mv : Nat)
  /-- PACE_REF_CHANGE (R221): REF_OK changes and the timekeeper changes its frequency reference at a period boundary without a step. -/
  | paceRefChange (ok : Bool)
  /-- PACE_SYNC_EDGE (R224): A rising PACE_SYNC edge latches STR_SYNCCAP; on the master it performs an armed epoch load or measures the phase error. -/
  | paceSyncEdge
  /-- LOAD_ARM (R224): Writing 1 to STR_CFG.LOAD_ARM arms the next PACE_SYNC edge to load STR_LOAD. -/
  | loadArm
  /-- FLUME_ROW_READ (R42): The Flume reads a stream row from the Reservoir into a free staging slot through its 128 B read path. -/
  | flumeRowRead (p : Nat) (ecc : List EccHit)
  /-- FLUME_SEGMENT_WRITE (R42): The Flume writes a row segment into a row-group FIFO of a selected Furrow once that FIFO has a free entry. -/
  | flumeSegmentWrite (p f g : Nat)
  /-- COLUMN_GROUP_TAKE_ROW (R43): A column group takes a stream row into its cells when the row is in all eight FIFOs, the active tile is right and a drain entry is free. -/
  | columnGroupTakeRow (p f g : Nat) (residue : Option Residue)
  /-- BASIN_ROW_WRITE (R36): A column sum is written into its Basin row by SET or ADD once any interlock on the row has cleared. -/
  | basinRowWrite (p f g : Nat) (ecc : List EccHit)
  /-- SHADOW_LOAD_START (R28): The load path starts writing a named weight tile into a Furrow's shadow register once the register is free. -/
  | shadowLoadStart (p : Nat) (ecc : List EccHit)
  /-- SHADOW_LOAD_COMPLETE (R28): A shadow load completes after 16 core cycles, plus any cycles lost to the Flume. -/
  | shadowLoadComplete (p : Nat)
  /-- SHADOW_EXCHANGE (R30): A Furrow exchanges shadow and active registers at a row boundary once all its column groups have taken the earlier entry's last row. -/
  | shadowExchange (p f : Nat)
  /-- PLT_FCOLMAP_WRITE (R33): A write of the column map stays PENDING and takes effect with the next shadow load of that Furrow. -/
  | pltFcolmapWrite (p f : Nat) (v : BitVec 32)
  /-- PLT_BSPARE_WRITE (R40): A write of a Basin spare-row mapping stays PENDING until the Pacer next stops. -/
  | pltBspareWrite (p f e : Nat) (v : BitVec 32)
  /-- PLT_WEXP_WRITE (R69): A write of the weight-expander settings applies from the next Furrow 0 load, with PENDING set meanwhile. -/
  | pltWexpWrite (p : Nat) (v : BitVec 32)
  /-- CNT_CLR (R84): Writing 1 to PLT_NUMCTL.CNT_CLR clears both numeric counters, with increments in the same cycle applied after. -/
  | cntClr (p : Nat)
  /-- PCNTCTL_CLR (R130): Writing 1 to PLT_PCNTCTL.CLR clears all eleven Pacer counters. -/
  | pcntctlClr (p : Nat)
  /-- PLT_PFLAGSET_WRITE (R106): A host write to PLT_PFLAGSET raises the named local flag. -/
  | pltPflagsetWrite (p : Nat) (v : BitVec 32)
  /-- PLT_RSVREPENT_WRITE (R139): A write of a Reservoir spare-row mapping waits for the next Pacer stop, when the failing row is copied into the spare. -/
  | pltRsvrepentWrite (p : Nat) (v : BitVec 32) (ecc : List EccHit)
  /-- WORK_ENTRY_ISSUE (R93): A WORK entry is checked and issued to its units in the first cycle its wait is met and its unit queues have room. -/
  | workEntryIssue (p : Nat)
  /-- TIME_WAIT_EXPIRY (R109): Stride Time reaches PLT_PTIMEn and the waiting TIME entry issues. -/
  | timeWaitExpiry (p : Nat)
  /-- FILL_TIMEOUT (R111): FILL_TIMEOUT expires since the head row's arrival and a FILL wait with at least one row present is satisfied. -/
  | fillTimeout (p : Nat)
  /-- NOP (R104): The CONTROL entry NOP does nothing. -/
  | nop (p : Nat)
  /-- LOOPSET (R104): LOOPSET loads a loop counter with IMM. -/
  | loopset (p : Nat)
  /-- LOOP (R104): LOOP decrements a loop counter and continues at TARGET while the result is not zero. -/
  | loop (p : Nat)
  /-- SKIP (R104): SKIP skips the next COUNT entries if the flag condition of SENSE holds. -/
  | skip (p : Nat)
  /-- RETURN (R104): RETURN continues at TARGET. -/
  | return_ (p : Nat)
  /-- SETIX (R104): SETIX loads an index register with IMM[23:0]. -/
  | setix (p : Nat)
  /-- ADDIX (R104): ADDIX adds the sign-extended IMM[23:0] to an index register modulo 2^24. -/
  | addix (p : Nat)
  /-- XORIX (R104): XORIX exclusive-ORs an index register with IMM[23:0]. -/
  | xorix (p : Nat)
  /-- TIMEADD (R104): TIMEADD adds IMM Stride ns to a time register. -/
  | timeadd (p : Nat)
  /-- CLEAR (R104): CLEAR sets a local flag's count to 0, with raises in the same cycle applied after. -/
  | clear (p : Nat)
  /-- BATCHEND (R112): BATCHEND is issued without waiting and takes effect once every earlier entry has completed. -/
  | batchend (p : Nat)
  /-- BATCHEND_EFFECT (R112): BATCHEND takes effect: HEAD advances by B, PRESENT falls by B and the batch closes. -/
  | batchendEffect (p : Nat)
  /-- SLOTFREE (R113): SLOTFREE is issued without waiting and takes effect once every earlier entry has completed. -/
  | slotfree (p : Nat)
  /-- SLOTFREE_EFFECT (R113): SLOTFREE takes effect: the oldest open slot is freed and one credit is sent to the sender's outbox. -/
  | slotfreeEffect (p : Nat)
  /-- HALT (R104): HALT ends the run as a stop does and posts RUN_END once the Pacer is STOPPED. -/
  | halt (p : Nat)
  /-- ENTRY_COMPLETE (R97): A work entry completes when all its parts have finished, and its RAISE takes effect in the next cycle. -/
  | entryComplete (p seq : Nat)
  /-- DRAIN_COMPLETE (R90): The last issued entry completes in DRAINING and the Pacer enters STOPPED, PAUSED, NUMERIC_HALT or FAULT_HALT, applying pending spare mappings. -/
  | drainComplete (p : Nat) (ecc : List EccHit)
  /-- DRAIN (R117): The vector op DRAIN converts SA × Basin + SB into OUT_FMT and writes it to the Reservoir. -/
  | drain (p : Nat) (x : VecFaults)
  /-- ADD (R117): The vector op ADD writes A + B. -/
  | add (p : Nat) (x : VecFaults)
  /-- MUL (R117): The vector op MUL writes A × B. -/
  | mul (p : Nat) (x : VecFaults)
  /-- MAX (R117): The vector op MAX writes max(A, B). -/
  | max (p : Nat) (x : VecFaults)
  /-- AXPBY (R117): The vector op AXPBY writes SA × A + SB × B. -/
  | axpby (p : Nat) (x : VecFaults)
  /-- EXP2 (R117): The vector op EXP2 writes exp2(SA × A + SB). -/
  | exp2 (p : Nat) (x : VecFaults)
  /-- LOG2 (R117): The vector op LOG2 writes log2(A). -/
  | log2 (p : Nat) (x : VecFaults)
  /-- RCP (R117): The vector op RCP writes 1 / A. -/
  | rcp (p : Nat) (x : VecFaults)
  /-- RSQRT (R117): The vector op RSQRT writes 1 / √A. -/
  | rsqrt (p : Nat) (x : VecFaults)
  /-- CONVERT (R117): The vector op CONVERT writes A in OUT_FMT, with MXFP4 scale bytes to E. -/
  | convert (p : Nat) (x : VecFaults)
  /-- SPLIT (R117): The vector op SPLIT writes the BF16 hi and lo parts of A to D and E. -/
  | split (p : Nat) (x : VecFaults)
  /-- ROWSCALE (R117): The vector op ROWSCALE scales each row position by a vector and converts it. -/
  | rowscale (p : Nat) (x : VecFaults)
  /-- RESCALE_ACC (R117): The vector op RESCALE_ACC writes A × B plus the Basin value. -/
  | rescaleAcc (p : Nat) (x : VecFaults)
  /-- SOFTMAX_BLOCK (R118): The vector op SOFTMAX_BLOCK performs one online-softmax step over Basin score rows. -/
  | softmaxBlock (p : Nat) (x : VecFaults)
  /-- TAGREAD (R117): The vector op TAGREAD writes the NaN-tag bitmap of Basin rows. -/
  | tagread (p : Nat) (x : VecFaults)
  /-- FILLC (R117): The vector op FILLC writes SA in OUT_FMT. -/
  | fillc (p : Nat) (x : VecFaults)
  /-- INBOX_APPEND_RESERVE (R154): The first bytes of an append reserve tail space in an inbox if R110 finds room. -/
  | inboxAppendReserve (p n : Nat) (slot : Bool) (rows rowBytes tag : Nat)
  /-- INBOX_APPEND_COMPLETE (R154): A completed append enters PRESENT and the arrival queue once every earlier reserved append has completed. -/
  | inboxAppendComplete (p n tag : Nat)
  /-- MESH_REQ (R141): A REQ mesh message, a read request or a write with data, arrives at its stop and is served. -/
  | meshReq (k : Nat) (ecc : List (Nat × EccHit))
  /-- MESH_RSP (R141): An RSP mesh message, read data or a write acknowledgement, arrives at its requester. -/
  | meshRsp (k : Nat)
  /-- REGION_WRITE (R147): A write to a region register of a valid region is checked and ignored whole on overlap or range failure. -/
  | regionWrite (r : Nat) (reg : RgnReg) (v : BitVec 64)
  /-- DMA_TRANSFER_START (R155): The Plot DMA starts the requests of the next transfer once the previous transfer's requests are all issued. -/
  | dmaTransferStart (p : Nat)
  /-- DMA_TRANSFER_COMPLETE (R155): A transfer completes in issue order once its bytes are written and acknowledged, and its DST_RAISE is made. -/
  | dmaTransferComplete (p : Nat)
  /-- HBM_DEMAND_READ (R163): A demand read of an HBM unit returns data, correcting a single-symbol error or poisoning an uncorrectable unit. -/
  | hbmDemandRead (s sb : Nat) (err : UnitErr) (sluice : Option (Nat × Nat))
  /-- HBM_WRITE (R164): A write of whole 32 B units stores data and clears any poison. -/
  | hbmWrite (s sb : Nat) (data : List Byte)
  /-- HBM_PARTIAL_WRITE (R164): A partial-unit write is a read-modify-write that stores nothing into a poisoned unit and raises DEFERRED on a new loss. -/
  | hbmPartialWrite (s sb : Nat) (data : List Byte) (err : UnitErr)
  /-- PATROL_SCRUB_READ (R167): Every INTERVAL µs the scrubber reads the next unit of each channel and corrects or poisons it. -/
  | patrolScrubRead (s : Nat) (errs : List (Nat × UnitErr))
  /-- DIE_LINK_REPLAY (R166): A die-to-base-die flit failing its CRC is replayed; 16 failures in a row raise DEVICE_FATAL. -/
  | dieLinkReplay (s : Nat) (again : Bool)
  /-- HBM_REFRESH (R176): The base die issues a per-bank refresh at the interval set for the stack's temperature. -/
  | hbmRefresh (s : Nat)
  /-- HBM_TEMP_THRESHOLD (R176): The stack temperature crosses 85 °C or 95 °C, doubling refresh or halving the issue rate. -/
  | hbmTempThreshold (s : Nat) (temp : BitVec 8)
  /-- HBM_IDLE_POWER_DOWN (R177): In IDLE a channel enters power-down after 1 µs without access. -/
  | hbmIdlePowerDown (s ch : Nat)
  /-- HBM_INIT_COMPLETE (R178): After cold reset the base dies finish zeroing every in-service channel and testing the reserve channels, and accesses are accepted. -/
  | hbmInitComplete (bad : List (Nat × Nat))
  /-- HBM_PPR (R170): The HBM_PPR command starts a post-package repair of one row, holding its bank, or is refused BUSY or EXHAUSTED. -/
  | hbmPpr (w : Win) (stack phys pc sid bg bank row : BitVec 32)
  /-- PPR_DRAIN_DONE (R170): Accesses already issued to the bank under repair have drained. -/
  | pprDrainDone (s ch : Nat)
  /-- PPR_ROW_READ_DONE (R170): The row has been read, corrected, into the holding buffer. -/
  | pprRowReadDone (s ch : Nat) (errs : List (Nat × UnitErr))
  /-- PPR_PROGRAM_DONE (R170): Programming the hard repair completes after 2,000 µs. -/
  | pprProgramDone (s ch : Nat)
  /-- PPR_COMPLETE (R170): The row is written back into the spare row, AVAIL decrements, REPAIRED is posted and the bank reopens. -/
  | pprComplete (s ch : Nat)
  /-- HBM_SPARE (R173): The HBM_SPARE command starts a sparing copy of a logical channel onto a reserve channel, or is refused BUSY. -/
  | hbmSpare (w : Win) (stack lch rate : BitVec 32)
  /-- SPARE_TARGET_READY (R173): The target channel has left self-refresh after 12 µs and block copying begins. -/
  | spareTargetReady (s : Nat)
  /-- SPARE_BLOCK_COPIED (R172): A 4 KiB block is copied to the target and the watermark advances. -/
  | spareBlockCopied (s : Nat) (errs : List (Nat × UnitErr))
  /-- SPARE_COPY_COMPLETE (R174): The last block is copied; the map switches to the target, the source is marked FAILED, the map is fused and REPAIRED is posted. -/
  | spareCopyComplete (s : Nat)
  /-- HBM_OFFLINE (R175): The HBM_OFFLINE command sets a logical channel OFFLINE, so its accesses fail UNMAPPED. -/
  | hbmOffline (w : Win) (stack lch : BitVec 32)
  /-- SLUICE_ELEMENT_ARRIVE (R192): Gradient elements arrive at a Sluice inlet and are counted in RECV or discarded with cause INLET. -/
  | sluiceElementArrive (s seg first : Nat) (elems : List (BitVec 32 × Bool))
  /-- SLUICE_BLOCK_UPDATE (R196): A released 64-element block is conditioned and updated by its rule, writing the new half and compute copy. -/
  | sluiceBlockUpdate (s k : Nat) (pipeFault : Option LaneFault)
  /-- SLUICE_HOLD_TIMEOUT (R193): A block held for a non-zero hold count beyond SLC_HOLDWAIT is discarded with cause HOLD. -/
  | sluiceHoldTimeout (s k : Nat)
  /-- SLUICE_EVAL_COMPLETE (R189): Schedule evaluation and FACTOR accumulator clearing after a commit or rollback complete, and inlet blocks may pass. -/
  | sluiceEvalComplete (s : Nat)
  /-- SLUICE_GATHER_SERVE (R212): A Sluice serves a gather of a segment's compute copy after checking its tag and taking or releasing a hold. -/
  | sluiceGatherServe (s : Nat) (q : Gather)
  /-- GATHER_WAIT_RETRY (R212): A gather waiting under the WAIT policy retries when the segment's tag changes. -/
  | gatherWaitRetry (s k : Nat)
  /-- PIPEMAP_WRITE (R181): A write of SLC_PIPEMAP stays PENDING until the inlet holds no block and no update is in flight. -/
  | pipemapWrite (s : Nat) (v : BitVec 32)
  /-- PIPEMAP_APPLY (R181): A pending pipe map takes effect once the inlet is empty. -/
  | pipemapApply (s : Nat)
  /-- SLC_CVETO_WRITE (R219): Writing 1 to SLC_CVETO.VETO makes the open step's verdict bad. -/
  | slcCvetoWrite (v : BitVec 32)
  /-- VERDICT (R205): The VERDICT Starter event latches causes, forms the payload and launches the verdict all-reduce. -/
  | verdict (e : Nat) (rivals : List Order)
  /-- COMMIT (R205): The COMMIT Starter event applies a held result, rolls back in OPEN, or moves the controller to PENDING. -/
  | commit (e : Nat) (rivals : List Order)
  /-- ROLLBACK (R209): The ROLLBACK Starter event rolls back the open step and discards any held result. -/
  | rollback (e : Nat) (rivals : List Order)
  /-- VERDICT_RESULT (R205): The verdict all-reduce result arrives and is held until T_c, or applied at once in PENDING with LATE set. -/
  | verdictResult (words : List (BitVec 32))
  /-- STEP_N_RELEASE (R208): STEP_N is released after its 1 µs or 4 µs pulse. -/
  | stepNRelease
  /-- RUN_START (R91): The RUN_START Starter event starts every Plot of its set. -/
  | runStart (e : Nat) (rivals : List (Nat × Order))
  /-- RUN_STOP (R91): The RUN_STOP Starter event stops every Plot of its set. -/
  | runStop (e : Nat) (rivals : List (Nat × Order)) (trapped : BitVec 256) (ecc : List (Nat × EccHit))
  /-- RUN_PAUSE (R91): The RUN_PAUSE Starter event pauses every Plot of its set. -/
  | runPause (e : Nat) (rivals : List (Nat × Order)) (trapped : BitVec 256)
  /-- RUN_RESUME (R91): The RUN_RESUME Starter event resumes every Plot of its set. -/
  | runResume (e : Nat) (rivals : List (Nat × Order))
  /-- COLL_LAUNCH (R344): The COLL_LAUNCH Starter event launches a POSTED context with LAUNCH STARTER. -/
  | collLaunch (e : Nat) (rivals : List Order)
  /-- STARTER_POWER_STATE (R466): The POWER_STATE Starter event requests a device power state. -/
  | starterPowerState (e : Nat) (rivals : List Order)
  /-- STARTER_POWER_CAP (R241): The POWER_CAP Starter event sets or removes the Starter's power cap. -/
  | starterPowerCap (e : Nat)
  /-- STARTER_CLOCK_CEIL (R241): The CLOCK_CEIL Starter event sets or removes the Starter's clock ceiling on named islands. -/
  | starterClockCeil (e : Nat)
  /-- DRAIN_BEGIN (R305): The DRAIN_BEGIN Starter event stops injection of REQ, FWD, COLL and BULK packets. -/
  | drainBegin (e : Nat) (rivals : List Order)
  /-- ROUTE_SWAP (R305): The ROUTE_SWAP Starter event swaps routing banks on a drained device, waits for the drain, or is refused outside a drain. -/
  | routeSwap (e : Nat) (rivals : List Order)
  /-- DRAIN_END (R305): The DRAIN_END Starter event resumes injection once the swap has taken place. -/
  | drainEnd (e : Nat) (rivals : List Order)
  /-- STARTER_TELEMETRY (R437): The TELEMETRY Starter event latches a power and thermal snapshot, or is refused when the queue is full. -/
  | starterTelemetry (e : Nat)
  /-- STARTER_DISPATCH (R235): A valid entry is dispatched to its object 400 ns before its TIME, in ascending index. -/
  | starterDispatch (e : Nat)
  /-- STARTER_WRITE (R232): The STARTER_WRITE command writes a whole Starter entry or is refused. -/
  | starterWrite (w : Win) (index : BitVec 32) (entry : BitVec 256)
  /-- STARTER_CANCEL (R236): The STARTER_CANCEL command cancels an entry before dispatch, or is refused DISPATCHED. -/
  | starterCancel (w : Win) (index : BitVec 32)
  /-- PSET_WRITE (R234): The PSET_WRITE command writes a Plot set register owned by the window. -/
  | psetWrite (w : Win) (set : BitVec 32) (plots : BitVec 256)
  /-- STARTER_READ (R396): The STARTER_READ command returns a Starter entry. -/
  | starterRead (w : Win) (index : BitVec 32)
  /-- TIMING_REQUEST_TIMER (R226): Every 50 µs a follower sends a timing request on its parent link. -/
  | timingRequestTimer
  /-- TIMING (R226): A TIMING packet arrives; a parent answers a request, a follower computes offset and delay and steers its servo. -/
  | timing (l : Nat) (m : TimingMsg)
  /-- PARENT_LOSS_TIMEOUT (R227): No usable answer for 1 ms moves a follower to HOLDOVER and to its ALT_PARENT. -/
  | parentLossTimeout
  /-- LNK_CFG_ENABLE_WRITE (R265): Writing ENABLE 1 starts training; writing 0 stops taking packets and drains the replay buffer before DISABLED. -/
  | lnkCfgEnableWrite (l : Nat) (v : BitVec 32)
  /-- LINK_DISABLE_TIMEOUT (R265): 10 µs after ENABLE was written 0, unacknowledged packets are discarded and the link enters DISABLED. -/
  | linkDisableTimeout (l : Nat)
  /-- LANE_EQUALISATION_DONE (R255): Lanes detect signal, lock CDR and finish equaliser exchange. -/
  | laneEqualisationDone (l : Nat)
  /-- LANE_DESKEW_DONE (R255): Lanes deskew, lock on markers and correct reversal and polarity. -/
  | laneDeskewDone (l : Nat)
  /-- LANE_QUALIFY_WINDOW_END (R256): The 1 ms qualification window ends and passing lanes take logical lanes, with a spare if five pass. -/
  | laneQualifyWindowEnd (l : Nat) (rxLock : BitVec 5) (rxErrs : List (BitVec 32)) (txPass : BitVec 5)
  /-- LANE_MAP_AGREED (R255): Both ends agree lane maps, sequence numbers start at 0 and the link enters BIB. -/
  | laneMapAgreed (l : Nat)
  /-- BIB_RESEND_TIMER (R255): Every 1 ms an unacknowledged Bib is sent again. -/
  | bibResendTimer (l : Nat)
  /-- BIB (R258): A received Bib is checked, stored and compared; a valid one moves the link to HELD. -/
  | bib (l : Nat) (b : BitVec 256)
  /-- LINK_TRAINING_TIMEOUT (R255): Training not complete within 250 ms makes the link FAILED. -/
  | linkTrainingTimeout (l : Nat)
  /-- FLIT_TRANSMIT (R250): In each codeword slot the link sends a DATA, CONTROL or IDLE flit carrying a current ACK_SEQ. -/
  | flitTransmit (l : Nat)
  /-- FLIT_RECEIVE (R250): A received flit is accepted in order or dropped with NAK, and its ACK_SEQ and NAK free or replay the replay buffer. -/
  | flitReceive (l : Nat) (f : Flit)
  /-- MARKER_RECEIVE (R260): An alignment marker's lane status word reports failed lanes or announces a new lane map, switching at its boundary. -/
  | markerReceive (l : Nat) (failed : List Nat) (newMap : Option (List Nat × Nat))
  /-- LANE_SIGNAL_LOSS (R259): A lane without signal or CDR lock for 1 µs, or without marker lock for two intervals, becomes FAILED. -/
  | laneSignalLoss (l lane : Nat) (all : Bool)
  /-- SYMBOL_WINDOW_END (R259): A 1 ms symbol-error window ends, updating LNK_SYMp and failing lanes over LANE_THRESH. -/
  | symbolWindowEnd (l : Nat) (errs : List (BitVec 32))
  /-- RETRAIN_COMPLETE (R263): RETRAIN completes and the link returns to its state, or to HELD if the Bib changed. -/
  | retrainComplete (l : Nat) (b : BitVec 256)
  /-- RETRAIN_TIMEOUT (R263): RETRAIN not complete in 10 ms sends the link to TRAINING. -/
  | retrainTimeout (l : Nat)
  /-- LINK_ENABLE (R396): The LINK_ENABLE command writes LNK_CFG.ENABLE of the links in MASK. -/
  | linkEnable (w : Win) (mask value : BitVec 32)
  /-- LINK_RETRAIN (R263): The LINK_RETRAIN command retrains the named links. -/
  | linkRetrain (w : Win) (mask : BitVec 32)
  /-- LANE_REQUALIFY (R261): The LANE_REQUALIFY command trains and qualifies one FAILED lane while the link runs. -/
  | laneRequalify (w : Win) (link lane : BitVec 32)
  /-- LANE_REQUALIFY_COMPLETE (R261): Requalification ends; a passing lane becomes STANDBY and may be brought in, and CMD_DONE is posted. -/
  | laneRequalifyComplete (l : Nat) (pass : Bool)
  /-- CANAL_WRITE (R267): A write of LNK_CANAL that would put a link in two enabled Canals is ignored; otherwise it applies at the next packet boundary. -/
  | canalWrite (c : Nat) (v : BitVec 32)
  /-- PACKET_RECEIVE (R279): A packet's last byte arrives in a link input buffer, or it is discarded for lack of room. -/
  | packetReceive (l : Nat) (pk : Packet)
  /-- ROUTE_PACKET (R284): The packet at the head of an input is sent to ejection, a productive Canal, a deflection or its bounce place. -/
  | routePacket (l : Nat)
  /-- SPILLWAY_TURN (R291): Every 16th packet start on a link sends a waiting Spillway packet that holds a credit. -/
  | spillwayTurn (l : Nat)
  /-- PACKET_INJECT (R286): An injection queue head enters a productive Canal in a cycle no transit packet wants it. -/
  | packetInject (cls unit : Nat)
  /-- EJECTION (R279): A packet in an ejection buffer drains into the mesh REQ class. -/
  | ejection (die : Nat)
  /-- WRITE (R278): A WRITE packet writes its payload at ADDR and is answered with ACK or NACK. -/
  | write (ecc : List (Nat × EccHit))
  /-- APPEND_ROW (R278): An APPEND_ROW packet appends to an inbox in row mode. -/
  | appendRow (ecc : List (Nat × EccHit))
  /-- APPEND_SLOT (R278): An APPEND_SLOT packet appends to an inbox in slot mode. -/
  | appendSlot (ecc : List (Nat × EccHit))
  /-- READ (R278): A READ packet is served from memory and answered with READ_DATA. -/
  | read (ecc : List (Nat × EccHit))
  /-- READ_DATA (R278): A READ_DATA packet lands in its requester's reserved reply space. -/
  | readData
  /-- ACK (R278): An ACK packet counts an accepted write, append or COLL_DATA at its sender. -/
  | ack
  /-- NACK (R278): A NACK packet reports a refused write with its code to the sender. -/
  | nack
  /-- CREDIT (R114): A CREDIT packet adds one credit to an outbox, dropped with CRED_OVF above 15. -/
  | credit
  /-- BATON_DONE (R298): A BATON_DONE packet lets a stream's waiting Baton proceed at its source. -/
  | batonDone
  /-- BATON_PARK_DELIVER (R301): A parked Baton is delivered once its epoch's arrival count equals its BCOUNT. -/
  | batonParkDeliver (cls src : Nat)
  /-- SPILL_CREDIT (R291): A SPILL_CREDIT packet returns the credit for the far end's Spillway buffer. -/
  | spillCredit (l : Nat)
  /-- MGMT (R430): A MGMT packet lands in the Fabric Marshal's mailbox or is discarded when full. -/
  | mgmt
  /-- MGMT_RETRY (R430): A MGMT message not acknowledged within 1 ms is repeated. -/
  | mgmtRetry (k : Nat)
  /-- ROUTE_LOAD (R303): The ROUTE_LOAD command copies routing entries from device memory into the shadow bank. -/
  | routeLoad (w : Win) (addr : BitVec 64) (first count : BitVec 32) (ecc : List (Nat × EccHit))
  /-- DEVICE_DRAINED (R305): During a drain the device becomes empty and sets DRAINED, swapping late if T_s has passed. -/
  | deviceDrained
  /-- SWAP_DEADLINE (R307): A device not drained at T_s + 1 ms swaps, discards held packets and raises STEP_FATAL. -/
  | swapDeadline
  /-- FLOW_MAP_WINDOW_END (R309): At the end of each 1 µs window a flow-map record is written if a count reached FMAP_THRESH. -/
  | flowMapWindowEnd
  /-- HEATSHEET_INSTALL (R319): The HEATSHEET_INSTALL command installs a Heat Sheet, setting FAB_ID and resending Bibs, or refuses it. -/
  | heatsheetInstall (w : Win) (addr : BitVec 64) (ecc : List (Nat × EccHit))
  /-- DISCOVERY_PASS (R322): Discovery decides a link and every PENDING link against the Heat Sheet within 2 µs of a trigger. -/
  | discoveryPass (l : Nat)
  /-- LINK_SETTLE (R327): A link's settle time expires and discovery decides it again. -/
  | linkSettle (l : Nat)
  /-- ADMISSION_NOTICE (R326): The far end's admission state arrives; the link enters UP when both admit, or goes to HELD. -/
  | admissionNotice (l : Nat) (admits : Bool)
  /-- GROUP_LOAD (R335): The GROUP_LOAD command loads a group or refuses it. -/
  | groupLoad (w : Win) (group n gen : BitVec 32) (list : BitVec 64) (ecc : List (Nat × EccHit))
  /-- GROUP_UNLOAD (R334): The GROUP_UNLOAD command unloads a group. -/
  | groupUnload (w : Win) (group : BitVec 32)
  /-- COLL_POST (R342): The COLL_POST command checks a descriptor and places it in the lowest FREE context, taking its store. -/
  | collPost (w : Win) (desc : List Byte)
  /-- FLAGS_LAUNCH (R345): A FLAGS context launches once its readiness bitmap holds every bit of RDY_SET, clearing those bits. -/
  | flagsLaunch (d : Nat)
  /-- POST (R346): A POST message reaches rank 0, which stores it and sends GO once every rank's matching digest is held. -/
  | post (src : BitVec 14) (group : Nat) (seq : BitVec 32) (rank : Nat) (digest : BitVec 64)
  /-- RETRY (R346): A RETRY answer from a full early-post table makes the poster repeat its POST after 10 µs. -/
  | retry (group : Nat) (seq : BitVec 32)
  /-- POST_RETRY_TIMER (R346): 10 µs after RETRY the member sends its POST again. -/
  | postRetryTimer (c : Nat)
  /-- GO (R346): A GO message is forwarded down the distribution tree and the context enters RUNNING. -/
  | go (group : Nat) (seq : BitVec 32)
  /-- ABORT (R348): An ABORT message records its code and bitmaps, is forwarded, and the context enters CLOSING. -/
  | abort (group : Nat) (seq : BitVec 32) (a : AbortMsg)
  /-- COLL_COUNT (R349): A count message of ALL_TO_ALL_V or PERMUTE is learnt or compared, aborting on a difference. -/
  | collCount (group : Nat) (seq : BitVec 32) (rank count : Nat)
  /-- COLL_DATA (R356): A COLL_DATA block lands in reserved store or its destination; a host adds it once both children's blocks are held. -/
  | collData (group : Nat) (seq : BitVec 32) (b : CollBlock) (ecc : List (Nat × EccHit))
  /-- COLL_CREDIT (R356): A tree credit for a free block buffer reaches a sending host. -/
  | collCredit (group : Nat) (seq : BitVec 32) (rank : Nat)
  /-- COLL_BLOCK_SEND (R356): A host sends a block up or down its tree once it holds a credit. -/
  | collBlockSend (c k : Nat) (ecc : List (Nat × EccHit))
  /-- COLL_TIMEOUT (R350): TIMEOUT expires in rendezvous or running, and the context records COLL_STALL with a missing-member bitmap. -/
  | collTimeout (c : Nat)
  /-- PIECE_COMPLETE (R358): A source or destination piece completes and its RAISE is made, writing a tag record where set. -/
  | pieceComplete (c : Nat) (dst : Bool) (i : Nat)
  /-- COLL_ABORT (R363): The COLL_ABORT command frees a POSTED context or sends ABORT(COLL_ABORTED) to rank 0. -/
  | collAbort (w : Win) (ctx seq : BitVec 32) (rivals : List Order)
  /-- COLL_STATUS (R396): The COLL_STATUS command returns a context's state and SEQ. -/
  | collStatus (w : Win) (ctx : BitVec 32)
  /-- CMD_COMMIT (R387): A write to CMD_COMMIT moves the window to BUSY for execution, or is refused BAD_PACKET or ignored while BUSY. -/
  | cmdCommit (w : Win) (v : BitVec 32)
  /-- ECHO (R396): The ECHO command returns its data. -/
  | echo (w : Win) (data : List Byte)
  /-- IDENTIFY (R396): The IDENTIFY command returns the device identity and resources. -/
  | identify (w : Win)
  /-- JOURNAL_FETCH (R401): The JOURNAL_FETCH command copies held Journal records to the host. -/
  | journalFetch (w : Win) (first : BitVec 64) (count : BitVec 32) (host : BitVec 64)
  /-- PLAN_LOAD (R115): The PLAN_LOAD command loads step, vector-op or DMA tables into STOPPED Plots. -/
  | planLoad (w : Win) (pset : BitVec 256) (kind first count : BitVec 32) (src : BitVec 64) (ecc : List (Nat × EccHit))
  /-- RUN_CONTROL_START (R91): RUN_CONTROL start starts the Plots of its set. -/
  | runControlStart (w : Win) (pset : BitVec 256) (entry : BitVec 32) (rivals : List (Nat × Order))
  /-- RUN_CONTROL_STOP (R91): RUN_CONTROL stop stops the Plots of its set. -/
  | runControlStop (w : Win) (pset : BitVec 256) (entry : BitVec 32) (rivals : List (Nat × Order)) (trapped : BitVec 256) (ecc : List (Nat × EccHit))
  /-- RUN_CONTROL_PAUSE (R91): RUN_CONTROL pause pauses the Plots of its set. -/
  | runControlPause (w : Win) (pset : BitVec 256) (entry : BitVec 32) (rivals : List (Nat × Order)) (trapped : BitVec 256)
  /-- RUN_CONTROL_RESUME (R91): RUN_CONTROL resume resumes the Plots of its set. -/
  | runControlResume (w : Win) (pset : BitVec 256) (entry : BitVec 32) (rivals : List (Nat × Order))
  /-- PLOT_RESET (R11): The PLOT_RESET command resets the Pacer, Flume, Furrows, Basin, vector unit, Plot DMA and non-RWS registers of each Plot in its set. -/
  | plotReset (w : Win) (pset : BitVec 256) (ecc : List (Nat × EccHit))
  /-- FLAG_RAISE (R106): The FLAG_RAISE command raises a local flag on each Plot of its set. -/
  | flagRaise (w : Win) (pset : BitVec 256) (flag : BitVec 32)
  /-- PACER_SET (R126): The PACER_SET command writes a Pacer register on STOPPED Plots. -/
  | pacerSet (w : Win) (pset : BitVec 256) (offset : BitVec 32) (value : BitVec 64)
  /-- DMA_TO_DEVICE (R397): The DMA_TO_DEVICE command starts copying a list of host buffers into device memory. -/
  | dmaToDevice (w : Win) (list : BitVec 64) (count : BitVec 32)
  /-- DMA_TO_HOST (R397): The DMA_TO_HOST command starts copying device memory to host buffers. -/
  | dmaToHost (w : Win) (list : BitVec 64) (count : BitVec 32)
  /-- DMA_FILL (R396): The DMA_FILL command starts filling device memory with a pattern. -/
  | dmaFill (w : Win) (dst bytes : BitVec 64) (pattern : BitVec 32)
  /-- HOST_DMA_ENTRY_COMPLETE (R397): A host DMA list entry completes and makes its RAISE; the last one or a failure posts CMD_DONE. -/
  | hostDmaEntryComplete (k : Nat) (ecc : List (Nat × EccHit))
  /-- SLUICE_CONFIG (R190): The SLUICE_CONFIG command writes the Sluice table bases and counts of the named stacks. -/
  | sluiceConfig (w : Win) (c : SluiceConfig)
  /-- PLAN_START (R205): The PLAN_START command sets mode, stale policy and SLC_CSTEP and moves the controller from IDLE to OPEN. -/
  | planStart (w : Win) (mode stalePolicy cstep : BitVec 32)
  /-- RESOLVE_COMMIT (R210): RESOLVE commit forces a commit on a PENDING controller, refused VERDICT_BAD if its verdict was bad. -/
  | resolveCommit (w : Win)
  /-- RESOLVE_ROLLBACK (R210): RESOLVE rollback forces a rollback on a PENDING controller. -/
  | resolveRollback (w : Win)
  /-- PLAN_END (R396): The PLAN_END command returns an OPEN controller to IDLE. -/
  | planEnd (w : Win)
  /-- VETO (R396): The VETO command makes the open step's verdict bad. -/
  | veto (w : Win)
  /-- TAG_READ (R396): The TAG_READ command returns a segment's tag-store entry. -/
  | tagRead (w : Win) (stack seg : BitVec 32)
  /-- POWER_CAP (R241): The POWER_CAP command sets or removes the PCW power cap. -/
  | powerCap (w : Win) (watts : BitVec 32)
  /-- CLOCK_CEIL (R241): The CLOCK_CEIL command sets or removes the PCW clock ceiling of named islands. -/
  | clockCeil (w : Win) (islands mhz : BitVec 32)
  /-- POWER_STATE (R466): The POWER_STATE command requests RUN, TRIM, IDLE or RETAIN, or is refused STATE. -/
  | powerState (w : Win) (st : BitVec 32) (rivals : List Order)
  /-- POWER_STATE_REACHED (R466): A power-state transition reaches its target, posting CMD_DONE and a POWER_STATE record. -/
  | powerStateReached
  /-- TELEMETRY (R396): The TELEMETRY command returns power, cap, temperature and island clocks. -/
  | telemetry (w : Win)
  /-- PLOT_REMAP (R481): The PLOT_REMAP command copies a STOPPED Plot to a spare and remaps its logical number, or leaves it unmapped. -/
  | plotRemap (w : Win) (lplot phys : BitVec 32) (answers : Bool)
  /-- SPARE_FUSE (R484): The SPARE_FUSE command burns up to four repair fuse words for repairs not yet fused. -/
  | spareFuse (w : Win)
  /-- SEAL_OPEN (R423): The SEAL_OPEN command opens the config seal and stops passes. -/
  | sealOpen (w : Win)
  /-- SEAL_COMMIT (R423): The SEAL_COMMIT command computes REF and entry CRCs and seals when REF matches. -/
  | sealCommit (w : Win) (ref : BitVec 32)
  /-- SEAL_STATUS (R423): The SEAL_STATUS command returns the seal state and FIRST_BAD. -/
  | sealStatus (w : Win)
  /-- SEAL_PASS (R425): Every 4,096 bin-clock cycles while sealed, a pass recomputes every entry CRC and the total. -/
  | sealPass (upset : Option (Nat × BitVec 32))
  /-- MEASUREMENTS (R457): The MEASUREMENTS command copies the unsigned measurement blocks to the host. -/
  | measurements (w : Win) (host : BitVec 64) (max : BitVec 32)
  /-- DEVID_CHAIN (R454): The DEVID_CHAIN command copies the DevID certificate chain, or the public key in BLANK, to the host. -/
  | devidChain (w : Win) (host : BitVec 64) (max : BitVec 32)
  /-- DEBUG_TOKEN (R464): The DEBUG_TOKEN command checks a token and raises the debug level, clearing contents first for FULL in PROD. -/
  | debugToken (w : Win) (addr : BitVec 64) (bytes : BitVec 32) (ecc : List (Nat × EccHit))
  /-- DEBUG_TOKEN_LOWER (R464): DEBUG_TOKEN with BYTES 0 lowers the debug level to SHUT. -/
  | debugTokenLower (w : Win) (addr : BitVec 64)
  /-- CONTENT_CLEAR_COMPLETE (R464): The FULL clear ends, CONTENT_CLEAR is posted, FULL takes effect and signing is withdrawn. -/
  | contentClearComplete
  /-- LIFECYCLE (R460): The LIFECYCLE command checks a token, burns the target bit and sets the change pending until cold reset. -/
  | lifecycle (w : Win) (target : BitVec 32) (addr : BitVec 64) (bytes : BitVec 32) (ecc : List (Nat × EccHit))
  /-- FW_STAGE (R443): The FW_STAGE command copies and verifies an image into the free slot. -/
  | fwStage (w : Win) (addr : BitVec 64) (bytes : BitVec 32) (ecc : List (Nat × EccHit))
  /-- FW_STAGE_COMPLETE (R451): Verification of a staged image ends and CMD_DONE reports OK or the failing step. -/
  | fwStageComplete
  /-- FW_ACTIVATE (R444): The FW_ACTIVATE command begins moving the named roles onto the staged image. -/
  | fwActivate (w : Win) (roles : BitVec 32)
  /-- FW_ROLE_MOVE (R444): A spare takes one role from the staged slot at the role's next boundary and the old Marshal returns to reset. -/
  | fwRoleMove (crash : Bool)
  /-- DEVICE_RESET (R396): The DEVICE_RESET command replies OK and performs a warm reset 10 µs later. -/
  | deviceReset (w : Win)
  /-- MARSHAL_RESTART (R442): The MARSHAL_RESTART command restarts a RUNNING role. -/
  | marshalRestart (w : Win) (role : BitVec 32)
  /-- JOURNAL_RING_WRITE (R402): Posted records are written to the host ring while enabled and not full, and JWRITTEN is written back. -/
  | journalRingWrite
  /-- CMD_JTAIL_WRITE (R403): A write of CMD_JTAIL frees ring space and lets writing resume. -/
  | cmdJtailWrite (v : BitVec 64)
  /-- CMD_JCFG_WRITE (R402): A write of CMD_JCFG that sets EN sets JWRITTEN to CMD_JTAIL and starts ring writing. -/
  | cmdJcfgWrite (v : BitVec 32)
  /-- JOURNAL_MOD_TIMER (R402): The moderation period expires and MSI-X vector 2 is signalled if JWRITTEN advanced. -/
  | journalModTimer
  /-- BAR2_WRITE (R383): A BAR2 write outside the JCW is ignored, counted and reported once. -/
  | bar2Write (off : Nat)
  /-- BAR4_READ (R384): A BAR4 read returns device memory, poisoned data, or a Completer Abort. -/
  | bar4Read (off len : Nat) (errs : List (Nat × UnitErr)) (ecc : List (Nat × EccHit))
  /-- BAR4_WRITE (R384): A BAR4 write stores into device memory or is discarded with BAR4_ERR. -/
  | bar4Write (off : Nat) (data : List Byte) (ecc : List (Nat × EccHit))
  /-- CMD_BAR4_BASE_WRITE (R384): A write of CMD_BAR4_BASE takes effect once earlier BAR4 requests complete. -/
  | cmdBar4BaseWrite (v : BitVec 64)
  /-- WIDE_REGISTER_READ (R413): A read of the lowest word of a register wider than 64 bits captures the whole register. -/
  | wideRegisterRead (bar2 : Bool) (off : Nat) (size : Nat)
  /-- REGISTER_WRITE (R8): A BAR write to any register without a row of its own acts by its access type, with lower words staged per R412. -/
  | registerWrite (bar2 : Bool) (off : Nat) (data : List Byte) (race : BitVec 64) (ecc : List (Nat × EccHit))
  /-- BOOT_GO (R431): Writing 1 to GEN_BOOTCTL.GO in READY or REJECTED starts copying and verifying the image. -/
  | bootGo (ecc : List (Nat × EccHit))
  /-- BOOT_VERIFY_COMPLETE (R451): Image verification ends and the roles start, or the image is REJECTED with its code. -/
  | bootVerifyComplete (spareFails : List Nat)
  /-- POWER_LOOP (R434): Every 1,000 Stride ns the Power Marshal writes island frequency grants against cap_eff. -/
  | powerLoop (p1us p1ms : BitVec 16)
  /-- THERMAL_LOOP (R435): Every 1 ms the thermal loop adjusts each island's thermal ceiling. -/
  | thermalLoop (temps : List Byte)
  /-- THERMAL_THROTTLE (R436): A sensor at 100 °C lowers the island's hardware ceiling to 60% of the bin clock until 97 °C. -/
  | thermalThrottle (i : Nat) (temp : BitVec 8)
  /-- DROOP (R436): VDD_CORE below the droop threshold halves the island clock for at least 32 cycles. -/
  | droop (i : Nat) (low : Bool)
  /-- WATCHDOG_EXPIRY (R438): 10,000,000 Stride ns without a watchdog write declares a Marshal crashed. -/
  | watchdogExpiry (m : Nat) (hashOk : Bool)
  /-- MARSHAL_FAULT (R438): A Marshal trap, SRAM uncorrectable error or bad access declares it crashed at once. -/
  | marshalFault (m : Nat) (cause : BitVec 4) (pc : BitVec 64) (hashOk : Bool)
  /-- MARSHAL_RESTART_COMPLETE (R439): A restarted or taken-over role is RUNNING, posts MARSHAL_UP and resumes held commands. -/
  | marshalRestartComplete (role : Nat)
  /-- GRANT_MISSING (R440): 20 loop periods without a grant engage the hold governor with cap_hold. -/
  | grantMissing
  /-- HOLD_GOVERNOR_LOOP (R440): Every 1,000 Stride ns the hold governor adjusts island grants. -/
  | holdGovernorLoop (p1us p1ms : BitVec 16)
  /-- TELEMETRY_POST (R437): The Power Marshal posts a queued snapshot as a TELEMETRY record. -/
  | telemetryPost
  /-- MCTP_REQUEST (R429): An MCTP request from the board management controller over I3C is handled by the Health Marshal. -/
  | mctpRequest (q : MctpReq)
  /-- GET_VERSION (R456): The SPDM GET_VERSION request is answered. -/
  | getVersion (doe : Bool)
  /-- GET_CAPABILITIES (R456): The SPDM GET_CAPABILITIES request is answered. -/
  | getCapabilities (doe : Bool)
  /-- NEGOTIATE_ALGORITHMS (R456): The SPDM NEGOTIATE_ALGORITHMS request is answered. -/
  | negotiateAlgorithms (doe : Bool) (q : AlgReq)
  /-- GET_DIGESTS (R456): The SPDM GET_DIGESTS request is answered. -/
  | getDigests (doe : Bool)
  /-- GET_CERTIFICATE (R456): The SPDM GET_CERTIFICATE request returns the chain of slot 0. -/
  | getCertificate (doe : Bool) (slot off len : Nat)
  /-- CHALLENGE (R456): The SPDM CHALLENGE request is signed by the DevID, or refused when signing is withdrawn. -/
  | challenge (doe : Bool) (slot : Nat) (nonce : List Byte)
  /-- GET_MEASUREMENTS (R457): The SPDM GET_MEASUREMENTS request returns the measurements, signed when signing is available. -/
  | getMeasurements (doe : Bool) (index : Nat) (signed : Bool) (nonce : List Byte)
  /-- CE_SUMMARY_TIMER (R476): Every CE_SUM_MS ms in which a correction count changed, a CE_SUMMARY record is posted. -/
  | ceSummaryTimer
  /-- HEALTH_AUTO_REPAIR (R480): The Health Marshal issues an enabled automatic repair after the qualifying fault. -/
  | healthAutoRepair (a : Repair) (ecc : List EccHit)
  /-- PCIE_LINK_CHANGE (R379): The host port trains, retrains to another rate or width, or goes down, and CMD_HSTAT SPEED, WIDTH and FLIT follow. -/
  | pcieLinkChange (speed : BitVec 3) (width : BitVec 4) (flit : Bool)
  /-- SLOW_CLOCK_EDGE (R418): At each 25 MHz slow-clock edge the core side refreshes every RSC copy and GEN_SLOWSEQ counts one more edge. -/
  | slowClockEdge
  /-- SYNC_SEEN_LAPSE (R244): When two PACE_SYNC periods pass with no edge, STR_STAT.SYNC_SEEN falls to 0. -/
  | syncSeenLapse
  /-- DEBUG_PORT_ACCESS (R463): A JTAG operation on the test port acts as the debug level allows: trace reads, Marshal halt and step, memory and register access, or the CERT store write in BLANK. -/
  | debugPortAccess (op : DbgOp)
  /-- DMA_FILL_COMPLETE (R396): A running DMA_FILL finishes writing its pattern and posts its CMD_DONE record. -/
  | dmaFillComplete (k : Nat) (ecc : List (Nat × EccHit))
  deriving DecidableEq, Repr

end Sys2Proof
end

