-- ==== Sys2Proof/Config.lean ====
section
/-! DEFINITION. What one part fixes and the spec does not give, and the values the spec leaves undefined. None of these
has a body, so nothing can be proved of their values: a claim holds for every one. -/

namespace Sys2Proof.Config

/-- The n-th value that the device draws or leaves undefined (log 2): contents of a failed transfer (R156), of the rows
of a failed append (R154), of the pieces of an aborted collective (R361), and draws of the DRBG (R453, R454). -/
opaque freeWord : Nat → BitVec 64

/-- The part's fused voltage-frequency curve (R493): the VDD_CORE in mV that a clock in MHz needs. -/
opaque vfMv : Nat → Nat

/-- Which of the two edge stops of a stack serves a byte of it (R140; log 18): true for the second. -/
opaque edgeStop : Nat → Nat → Bool

/-- What decides how far PACE_REF runs from REFCLK_CORE at a Stride Time (R221, R497; log 8). -/
opaque paceSkew : Nat → BitVec 32

/-- The boot ROM's SHA-512, measurement 1 (R457). -/
opaque romHash : List Byte

end Sys2Proof.Config
end

