-- ==== Sys2Proof/Machine/State.lean ====
section
/-! DEFINITION. The state of the device: every register, queue, buffer, counter and mode the spec names, with the value
it has right after a cold reset as each field's default, and the reasons a step can stop. -/

namespace Sys2Proof.Machine

/-- No command of this block ends in a fault: the spec gives every one of them an effect on the state. -/
inductive Fault where
  deriving DecidableEq, Repr

/-- Why a command is refused by the model. -/
inductive Refusal where
  /-- Raised by an arm of `exec` whose command has no meaning yet. Safe: the model stops. -/
  | notModelled (mnemonic : String)
  /-- Raised by DEBUG_PORT_ACCESS at level FULL on its step of a Marshal: the spec names the operation (R463) and gives
  no instruction set for a Marshal. Safe: the model stops where the device runs firmware. -/
  | marshalInstruction
  deriving DecidableEq, Repr

/-- overflow mode of a run (03 R64). -/
inductive OvfMode where
  | ieee
  | sat
  deriving DecidableEq, Repr

/-- PLT_PSTAT.STATE codes 0-5 (04 R90). -/
inductive PacerSt where
  | stopped
  | running
  | paused
  | numericHalt
  | faultHalt
  | draining
  deriving DecidableEq, Repr

/-- what a DRAINING Pacer enters (04 R90, R104); toHaltStop is a HALT's stop. -/
inductive DrainTo where
  | toStopped
  | toPaused
  | toNumericHalt
  | toFaultHalt
  | toHaltStop
  deriving DecidableEq, Repr

/-- weight-expander settings (03 R86). -/
structure WexpCfg where
  /-- 03 R86 PLT_WEXP.EN -/
  en : Bool := false
  /-- 03 R86 MODE: false lookup, true scale and zero point -/
  mode : Bool := false
  /-- 03 R86 CODE_W: false INT4 codes, true INT2 codes -/
  codeW : Bool := false
  /-- 03 R86 GROUP -/
  group : (BitVec 2) := 0
  /-- 03 R86 TARGET -/
  target : (BitVec 2) := 0
  deriving DecidableEq, Repr

/-- a Furrow's column map (02 R49). -/
structure ColMap where
  /-- 02 R49 PLT_FCOLMAPf.BAD_COL; fuse value; DESIGN CHOICE 0 (no repair fused) log 3 -/
  badCol : (BitVec 7) := 0
  /-- 02 R49 SPARE_EN; fuse value; DESIGN CHOICE 0 log 3 -/
  spareEn : Bool := false
  deriving DecidableEq, Repr

/-- a weight tile in a Furrow register (02 R30, 04 R101, 03 R58). -/
structure Tile where
  /-- 04 R101 recorded format code -/
  fmt : (BitVec 4) := 0
  /-- 02 R30 issue number of the entry that named the load -/
  seq : Nat := 0
  /-- 03 R58 element codes, K-row major, 64 a row, after the expander and poison rules -/
  weights : List (BitVec 16) := []
  /-- 03 R59 MXFP4 scale bytes, block major -/
  scales : List (BitVec 8) := []
  /-- 02 R33 the map it was loaded under -/
  map : ColMap := {}
  deriving DecidableEq, Repr

/-- a load named by an issued entry (02 R28, R31; 04 R101). -/
structure LoadCmd where
  /-- 04 R93 issue number of the entry -/
  seq : Nat := 0
  /-- 02 R28 Furrow loaded -/
  furrow : Nat := 0
  /-- 04 R101 Reservoir byte address -/
  addr : Nat := 0
  /-- 04 R101 LD_FMT, or TARGET for an expander tile -/
  fmt : (BitVec 4) := 0
  deriving DecidableEq, Repr

/-- a row segment in a row-group FIFO (02 R42). -/
structure Seg where
  /-- 04 R93 issue number of its entry -/
  seq : Nat := 0
  /-- 04 R100 stream row -/
  row : Nat := 0
  /-- 03 R58 the element codes of its eight cell positions -/
  elems : List (BitVec 16) := []
  /-- 03 R59 its MXFP4 scale byte -/
  scale : BitVec 8 := 0
  deriving DecidableEq, Repr

/-- one Furrow with its Basin (02). -/
structure Furrow where
  /-- 02 R46 column map in force for the next load -/
  map : ColMap := {}
  /-- 02 R49 PENDING -/
  mapPending : Bool := false
  /-- 02 R30 active weight register; FSTATUS.ACTIVE_VALID -/
  active : (Option Tile) := none
  /-- 02 R28 shadow register being written; FSTATUS.SHADOW_LOADING -/
  loading : (Option LoadCmd) := none
  /-- 02 R28 tile read for the load in progress, with the map and expander settings sampled at its start (R33, R69) -/
  loadTile : (Option Tile) := none
  /-- 02 R30 completed unused tile; FSTATUS.SHADOW_READY -/
  shadow : (Option Tile) := none
  /-- 03 R68 recorded (issue number, format) of loads named and not yet taken by a stream, oldest first -/
  recFmts : (List (Nat × BitVec 4)) := []
  /-- 03 R68 recorded format of the tile the next stream keeps when no load is pending; none: no tile since reset -/
  curFmt : (Option (BitVec 4)) := none
  /-- 02 R30 issue number of the entry whose row the Furrow last took -/
  lastSeq : (Option Nat) := none
  /-- 02 R42 eight row-group FIFOs by cell group, segments oldest first; empty when unlisted -/
  fifo : (Tbl (List Seg)) := []
  /-- 02 R43 rows each column group has taken that all eight have not, by group; 0 when unlisted -/
  taken : (Tbl Nat) := []
  /-- 02 R43 drain FIFO entries (column group, issue number, row, eight column sums), oldest first -/
  drain : (List (Nat × Nat × Nat × List (BitVec 32))) := []
  /-- 02 R35 Basin words by physical row x 64 + column, spare rows 1024-1027; zero when unlisted (R41) -/
  words : (Tbl (BitVec 32)) := []
  /-- 03 R80 NaN tags, keys as words -/
  tags : (List Nat) := []
  /-- 02 R39 poisoned 64-bit words, by word-pair key -/
  poison : (List Nat) := []
  /-- 02 R50 PLT_BSPAREf_e.ROW and VALID in force by e; fuse value; DESIGN CHOICE 0, 0 (listed by none) log 3 -/
  spares : (Tbl (BitVec 10 × Bool)) := []
  /-- 02 R40 written ROW, VALID waiting for the Pacer stop; listed: PENDING 1 -/
  sparesNext : (Tbl (BitVec 10 × Bool)) := []
  /-- 02 R51 BASIN_CE -/
  ce : Bool := false
  /-- 02 R51 BASIN_UE -/
  ue : Bool := false
  /-- 02 R51 core cycle of the last row taken, for STREAMING -/
  lastTake : (Option Nat) := none
  /-- 02 R52 PLT_FSTALLf.FEED_STALL -/
  feedStall : (BitVec 64) := 0
  /-- 02 R52 LOAD_WAIT -/
  loadWait : (BitVec 64) := 0
  /-- 02 R52 DRAIN_STALL -/
  drainStall : (BitVec 64) := 0
  deriving DecidableEq, Repr

/-- a row in the Flume staging buffer (02 R42). -/
structure StagedRow where
  /-- 04 R93 issue number of its entry -/
  seq : Nat := 0
  /-- 04 R100 stream row -/
  row : Nat := 0
  /-- 03 R58 element codes after the poison rule (05 R138) -/
  elems : List (BitVec 16) := []
  /-- 03 R59 the row's eight scale bytes -/
  scales : List (BitVec 8) := []
  /-- 02 R42 (Furrow, row-group FIFO) segments not yet written -/
  todo : List (Nat × Nat) := []
  deriving DecidableEq, Repr

/-- a Flume command (04 R93, R99, R100). -/
structure Stream where
  /-- 04 R93 issue number -/
  seq : Nat := 0
  /-- 04 R99 step entry index -/
  entry : Nat := 0
  /-- 03 R88 loop counter 0 at issue -/
  loop0 : (BitVec 32) := 0
  /-- 04 R100 stream rows -/
  rows : Nat := 0
  /-- 04 R100 next row to read -/
  next : Nat := 0
  /-- 04 R99 FMT -/
  fmt : (BitVec 4) := 0
  /-- 04 R99 FU_MASK -/
  mask : (BitVec 4) := 0
  /-- 04 R99 BASE -/
  base : (BitVec 10) := 0
  /-- 04 R99 B_ADD -/
  add : Bool := false
  /-- 04 R100 byte address of row 0 (FL_SRC 0), or FL_ADDR x 128 + ix (FL_SRC 1) -/
  addr0 : Nat := 0
  /-- 04 R100 bytes between rows -/
  stride : Nat := 0
  /-- 04 R100 FL_SRC 1: (base, head, cap, pitch) of the inbox, in 128 B units and rows -/
  ring : (Option (Nat × Nat × Nat × Nat)) := none
  /-- 04 R100 DBASE of the scale map named -/
  scDbase : Nat := 0
  /-- 04 R100 SBASE -/
  scSbase : Nat := 0
  /-- 02 R31 per selected Furrow: issue number of the load the stream takes, or none (keeps the active tile) -/
  useLoad : (List (Nat × Option Nat)) := []
  /-- 02 R37 rows whose Basin write has been made, by Furrow x 8 + column group; 0 when unlisted -/
  written : (Tbl Nat) := []
  deriving DecidableEq, Repr

/-- a vector-unit command (04 R93, R116). -/
structure VecCmd where
  /-- 04 R93 issue number -/
  seq : Nat := 0
  /-- 04 R99 step entry index -/
  entry : Nat := 0
  /-- 03 R88 loop counter 0 at issue -/
  loop0 : (BitVec 32) := 0
  /-- 04 R116 the descriptor's 32 bytes at issue -/
  desc : List (BitVec 8) := []
  /-- 04 R116 value of the IX_A register at issue -/
  ixA : Nat := 0
  /-- 04 R116 value of the IX_D register at issue -/
  ixD : Nat := 0
  deriving DecidableEq, Repr

/-- a Plot DMA transfer (05 R151, R155). -/
structure DmaCmd where
  /-- 04 R93 issue number -/
  seq : Nat := 0
  /-- 05 R151 descriptor slot -/
  slot : Nat := 0
  /-- 05 R151 the descriptor's 32 bytes at issue -/
  desc : List (BitVec 8) := []
  /-- 05 R151 value of the SRC_IX register at issue -/
  ixS : Nat := 0
  /-- 05 R151 value of the DST_IX register at issue -/
  ixD : Nat := 0
  /-- 05 R155 the Plot DMA has taken it up -/
  started : Bool := false
  /-- 05 R155 source bytes whose requests have been issued -/
  next : Nat := 0
  /-- 05 R155 read requests not yet answered -/
  outReads : Nat := 0
  /-- 05 R155 bytes of read data outstanding -/
  readBytes : Nat := 0
  /-- 05 R155 writes not yet acknowledged -/
  outWrites : Nat := 0
  /-- 05 R154, 10 R278 the last packet of a remote transfer has been built -/
  closed : Bool := false
  /-- 10 R276 TAG of its packets -/
  tag : (Option (BitVec 16)) := none
  /-- 05 R157 destination bytes written and acknowledged -/
  bytes : Nat := 0
  /-- 05 R156 first failure code -/
  err : (Option (BitVec 3)) := none
  deriving DecidableEq, Repr

/-- an issued work entry not yet complete (04 R97). -/
structure Work where
  /-- 04 R93 issue number -/
  seq : Nat := 0
  /-- 04 R99 step entry index -/
  entry : Nat := 0
  /-- 04 R97 its stream is not finished -/
  stream : Bool := false
  /-- 04 R97 loads not finished -/
  loads : Nat := 0
  /-- 04 R97 its vector operation is not finished -/
  vec : Bool := false
  /-- 04 R97 its DMA transfer is not complete -/
  dma : Bool := false
  /-- 04 R99 RAISE -/
  raise : (BitVec 8) := 0
  deriving DecidableEq, Repr

/-- a reservation of an append in flight (05 R154). -/
structure Resv where
  /-- 05 R154 the append it belongs to -/
  tag : Nat := 0
  /-- 05 R154 ring rows, or slots, reserved -/
  units : Nat := 0
  /-- 05 R154 ring row of its first row -/
  start : Nat := 0
  /-- 05 R154 a slot append -/
  slot : Bool := false
  /-- 05 R154 bytes of each of its rows -/
  rowBytes : Nat := 0
  /-- 05 R154 (byte offset, length) of the pieces landed -/
  landed : List (Nat × Nat) := []
  /-- 05 R154 the append has ended -/
  done : Bool := false
  /-- 05 R154 its sender has closed it -/
  closed : Bool := false
  deriving DecidableEq, Repr

/-- inbox n of a Plot (04 R110-R113, R129). -/
structure Inbox where
  /-- 04 R129 PLT_PIBn_CFG.BASE -/
  base : (BitVec 17) := 0
  /-- 04 R129 CAP -/
  cap : (BitVec 13) := 0
  /-- 04 R129 MODE -/
  slotMode : Bool := false
  /-- 04 R129 PLT_PIBn_GEOM.PITCH -/
  pitch : (BitVec 10) := 0
  /-- 04 R129 SLOTS -/
  slots : (BitVec 4) := 0
  /-- 04 R129 PRESENT: rows, or full unopened slots -/
  present : Nat := 0
  /-- 04 R129 HEAD: ring row of the head -/
  head : Nat := 0
  /-- 04 R129 OVERRUN -/
  overrun : Bool := false
  /-- 04 R129 PLT_PIBn_SRC.DEVICE -/
  srcDevice : (BitVec 14) := 0
  /-- 04 R129 LPLOT -/
  srcPlot : (BitVec 8) := 0
  /-- 04 R129 OUTBOX -/
  srcOutbox : (BitVec 2) := 0
  /-- 04 R113 slots opened and not freed -/
  openSlots : Nat := 0
  /-- 05 R154 reservations in order -/
  resv : (List Resv) := []
  /-- 04 R111 arrival queue: (Stride Time, rows), oldest first, at most 64 -/
  arrivals : (List (BitVec 64 × Nat)) := []
  deriving DecidableEq, Repr

/-- outbox n of a Plot (04 R114, R129). -/
structure Outbox where
  /-- 04 R129 CREDITS -/
  credits : (BitVec 4) := 0
  /-- 04 R129 CRED_OVF -/
  ovf : Bool := false
  deriving DecidableEq, Repr

/-- PLT_PSCMAPm (04 R128). -/
structure ScaleMap where
  /-- 04 R128 DBASE -/
  dbase : (BitVec 24) := 0
  /-- 04 R128 SBASE -/
  sbase : (BitVec 24) := 0
  deriving DecidableEq, Repr

/-- a Plot's Pacer (04). -/
structure Pacer where
  /-- 04 R127 PLT_PSTAT.STATE -/
  st : PacerSt := .stopped
  /-- 04 R90 what DRAINING ends in -/
  drainTo : DrainTo := .toStopped
  /-- 04 R127 PC -/
  pc : (BitVec 12) := 0
  /-- 04 R127 FAULT -/
  fault : (BitVec 5) := 0
  /-- 04 R120 code of a refused entry whose FAULT_HALT waits for the issued entries; 0 none -/
  faultNext : (BitVec 5) := 0
  /-- 04 R127 FLAG_OVF -/
  flagOvf : Bool := false
  /-- 04 R127 INBOX_OVR -/
  inboxOvr : Bool := false
  /-- 04 R127 BATCH_OPEN and BATCH_IB -/
  batchIb : (Option Nat) := none
  /-- 04 R112 B of the open batch -/
  batchB : Nat := 0
  /-- 04 R127 PLT_PSTART.ENTRY -/
  startEntry : (BitVec 12) := 0
  /-- 04 R127 PLT_PFILL.FILL_MIN -/
  fillMin : (BitVec 12) := 256
  /-- 04 R127 FILL_MAX -/
  fillMax : (BitVec 12) := 1024
  /-- 04 R127 FILL_TIMEOUT -/
  fillTo : (BitVec 32) := 1000000
  /-- 04 R128 PLT_PLOOPc -/
  loops : (List (BitVec 32)) := [0, 0, 0, 0]
  /-- 04 R128 PLT_PIXc -/
  ix : (List (BitVec 24)) := [0, 0, 0, 0]
  /-- 04 R128 PLT_PFLAGw counts, by flag -/
  flags : (Tbl (BitVec 4)) := []
  /-- 04 R128 PLT_PFCLSw, by flag -/
  classes : (Tbl (BitVec 4)) := []
  /-- 04 R128 PLT_PTIMEn -/
  ptime : (List (BitVec 64)) := [0, 0, 0, 0]
  /-- 04 R128 PLT_PSCMAPm -/
  scmap : (List ScaleMap) := [{}, {}, {}, {}]
  /-- 04 R129 inboxes 0-3 -/
  inboxes : (List Inbox) := [{}, {}, {}, {}]
  /-- 04 R129 outboxes 0-3 -/
  outboxes : (List Outbox) := [{}, {}, {}, {}]
  /-- 04 R130 PLT_PCNTc -/
  pcnt : (List (BitVec 64)) := [0, 0, 0, 0, 0, 0, 0, 0, 0, 0, 0]
  /-- 04 R93 entries issued since reset (the next issue number) -/
  seq : Nat := 0
  /-- 04 R97 issued entries not yet complete, oldest first -/
  work : (List Work) := []
  /-- 04 R112, R113 BATCHEND (none) and SLOTFREE (some inbox) issued and not yet effective, with the issue number they follow -/
  deferred : (List (Nat × Option Nat)) := []
  /-- 03 R64 overflow mode sampled at run start -/
  ovf : OvfMode := .ieee
  /-- 04 R104 index of the HALT entry that ends the run -/
  haltPc : (Option (BitVec 12)) := none
  /-- 04 R119 the next entry has passed its checks -/
  checked : Bool := false
  deriving DecidableEq, Repr

/-- the numeric capture record (03 R87, R88). -/
structure NumRec where
  /-- 03 R87 VALID -/
  valid : Bool := false
  /-- 03 R87 CAUSE -/
  cause : (BitVec 3) := 0
  /-- 03 R87 STAGE -/
  stage : (BitVec 2) := 0
  /-- 03 R87 FURROW -/
  furrow : (BitVec 2) := 0
  /-- 03 R87 POS -/
  pos : (BitVec 9) := 0
  /-- 03 R87 TERM -/
  term : (BitVec 8) := 0
  /-- 03 R88 ROW -/
  row : (BitVec 24) := 0
  /-- 03 R88 STEP -/
  step : (BitVec 12) := 0
  /-- 03 R88 LOOP0 -/
  loop0 : (BitVec 32) := 0
  /-- 03 R88 TIME -/
  time : (BitVec 64) := 0
  deriving DecidableEq, Repr

/-- one physical Plot (02-05). -/
structure Plot where
  /-- 02 R24 Furrows 0-3 -/
  furrows : (List Furrow) := [{}, {}, {}, {}]
  /-- 02 R42 Flume staging buffer, at most 8 rows -/
  staging : (List StagedRow) := []
  /-- 04 R93 Flume command queue, oldest first; kept until the last Basin row -/
  streams : (List Stream) := []
  /-- 04 R93 load-path queue, one element per tile, oldest first -/
  loadQ : (List LoadCmd) := []
  /-- 04 R93 issue numbers of the load-path commands queued -/
  loadCmds : (List Nat) := []
  /-- 04 R93 vector-unit queue, oldest first -/
  vecQ : (List VecCmd) := []
  /-- 04 R93, 05 R155 Plot DMA queue, oldest first -/
  dmaQ : (List DmaCmd) := []
  /-- 04 the Pacer -/
  pacer : Pacer := {}
  /-- 05 R154, R507 appends refused, or whose reservation a Plot reset removed: later bytes are discarded -/
  lostAppends : List Nat := []
  /-- 03 R85 PLT_NUMCTL.OVF_MODE -/
  ovfMode : Bool := false
  /-- 03 R85 PLT_NUMCTL.TRAP -/
  trap : Bool := false
  /-- 03 R86 PLT_WEXP as written -/
  wexp : WexpCfg := {}
  /-- 03 R86 PLT_WEXP.PENDING -/
  wexpPending : Bool := false
  /-- 03 R87 PLT_NUMEV0 to PLT_NUMEV_TIME -/
  numev : NumRec := {}
  /-- 03 R89 PLT_NUMCNT_SAT -/
  cntSat : (BitVec 32) := 0
  /-- 03 R89 PLT_NUMCNT_MORE -/
  cntMore : (BitVec 32) := 0
  /-- 04 R98 64 KiB step memory, zero when unlisted (DESIGN CHOICE log 4) -/
  stepMem : Mem := []
  /-- 04 R115 vector-op table, 256 x 32 B, zero when unlisted (R117) -/
  vtab : Mem := []
  /-- 05 R150 DMA descriptor table, 256 x 32 B, zero when unlisted -/
  dtab : Mem := []
  /-- 05 R131 16 MiB Reservoir, zero when unlisted (DESIGN CHOICE log 4) -/
  resv : Mem := []
  /-- 05 R138 poisoned 64-bit words, by word index -/
  resvPoison : (List Nat) := []
  /-- 05 R157 PLT_RSVSTAT.CE -/
  rsvCe : Bool := false
  /-- 05 R157 UE -/
  rsvUe : Bool := false
  /-- 05 R157 PLT_RSVCE_CNT -/
  rsvCeCnt : (BitVec 32) := 0
  /-- 05 R157 PLT_RSVUE_ADDR -/
  rsvUeAddr : (BitVec 24) := 0
  /-- 05 R157 PLT_RSVREPSEL -/
  repSel : (BitVec 10) := 0
  /-- 05 R157 PLT_RSVREPENT ROW and VALID in force by BANK, SUB, SPARE; fuse value; DESIGN CHOICE 0, 0 (listed by none) log 3 -/
  repEnts : (Tbl (BitVec 9 × Bool)) := []
  /-- 05 R139 written ROW, VALID waiting for the Pacer stop; listed: PENDING 1 -/
  repNext : (Tbl (BitVec 9 × Bool)) := []
  /-- 05 R157 PLT_DSTAT.ERR -/
  dErr : Bool := false
  /-- 05 R157 ERRCODE -/
  dErrCode : (BitVec 3) := 0
  /-- 05 R157 ERRSLOT -/
  dErrSlot : (BitVec 8) := 0
  /-- 05 R157 PLT_DBYTES -/
  dBytes : (BitVec 64) := 0
  /-- 15 R428 PLT_SWCNT -/
  swcnt : (BitVec 32) := 0
  /-- 18 R478 faults within 24 h by unit key, for PLOT_FAULT -/
  residueCnt : (Tbl (List (BitVec 64))) := []
  deriving DecidableEq, Repr

/-- row-tracker entry HBM_ROWTRKt (06 R169, R179). -/
structure RowTrk where
  /-- 06 R179 ROW -/
  row : (BitVec 14) := 0
  /-- 06 R179 BANK -/
  bank : (BitVec 2) := 0
  /-- 06 R179 BG -/
  bg : (BitVec 2) := 0
  /-- 06 R179 SID -/
  sid : (BitVec 2) := 0
  /-- 06 R179 PC -/
  pc : Bool := false
  /-- 06 R179 PHYS -/
  phys : (BitVec 5) := 0
  /-- 06 R179 COUNT -/
  count : (BitVec 8) := 0
  deriving DecidableEq, Repr

/-- phases of a post-package repair (06 R170). -/
inductive PprStage where
  | drain
  | readRow
  | program
  | writeBack
  deriving DecidableEq, Repr

/-- a post-package repair in progress (06 R170). -/
structure Ppr where
  /-- 06 R170 physical channel -/
  phys : Nat := 0
  /-- 06 R170 pseudo-channel -/
  pc : Nat := 0
  /-- 06 R170 SID -/
  sid : Nat := 0
  /-- 06 R170 bank group -/
  bg : Nat := 0
  /-- 06 R170 bank -/
  bank : Nat := 0
  /-- 06 R170 row -/
  row : Nat := 0
  /-- 06 R170 phase -/
  stage : PprStage := .drain
  /-- 06 R170 holding buffer: the row's listed bytes -/
  held : (List (Nat × BitVec 8)) := []
  /-- 06 R170 units held as poisoned -/
  heldPoison : List Nat := []
  /-- 14 R394 DSEQ of the command -/
  dseq : (BitVec 32) := 0
  deriving DecidableEq, Repr

/-- a sparing copy in progress (06 R172, R173). -/
structure SpareCopy where
  /-- 06 R179 HBM_SPARESTAT.LCH -/
  lch : Nat := 0
  /-- 06 R179 TARGET -/
  target : Nat := 0
  /-- 06 R179 PAUSED -/
  paused : Bool := false
  /-- 06 R173 the target has left self-refresh -/
  awake : Bool := false
  /-- 14 R394 DSEQ -/
  dseq : (BitVec 32) := 0
  deriving DecidableEq, Repr

/-- tag-store entry of a segment (07 R211). -/
structure SegTag where
  /-- 07 R208, R211 STEP of the served tag where it is not the one R211 states: a STATIC segment's, or an uncorrectable entry's -/
  pin : (Option (BitVec 31)) := none
  /-- 07 R218 PEND -/
  pend : Bool := false
  /-- 07 R218 HOLD -/
  hold : (BitVec 8) := 0
  /-- 07 R218 HOLD_STEP -/
  holdStep : (BitVec 31) := 0
  /-- 07 R218 RECV -/
  recv : Nat := 0
  /-- 07 R211 elements updated in the open step -/
  upd : Nat := 0
  /-- 07 R211 found uncorrectable, rebuilt at the next outcome -/
  bad : Bool := false
  deriving DecidableEq, Repr

/-- a block in the gradient inlet (07 R191-R193). -/
structure InletBlock where
  /-- 07 R191 segment number -/
  seg : Nat := 0
  /-- 07 R191 element index of its first element -/
  first : Nat := 0
  /-- 07 R191 FP32 elements and their poison marks -/
  elems : List (BitVec 32 × Bool) := []
  /-- 07 R193 it belongs to the step after the open one -/
  next : Bool := false
  /-- 07 R193 Stride Time since which a hold count holds it -/
  heldFrom : (Option (BitVec 64)) := none
  deriving DecidableEq, Repr

/-- evaluated schedule values of a group (07 R188, R189). -/
structure GrpVals where
  /-- 07 R189 t is at least 1 -/
  active : Bool := false
  /-- 07 R188 LR -/
  lr : (BitVec 32) := 0
  /-- 07 R188 DECAY -/
  decay : (BitVec 32) := 0
  /-- 07 R188 BETA1 -/
  beta1 : (BitVec 32) := 0
  /-- 07 R188 BETA2 -/
  beta2 : (BitVec 32) := 0
  /-- 07 R188 LSR -/
  lsr : (BitVec 32) := 0
  /-- 07 R189 1 - BETA1 -/
  om1 : (BitVec 32) := 0
  /-- 07 R189 1 - BETA2 -/
  om2 : (BitVec 32) := 0
  /-- 07 R189 bias correction of BETA1 -/
  rb1 : (BitVec 32) := 0
  /-- 07 R189 bias correction of BETA2 -/
  rb2 : (BitVec 32) := 0
  deriving DecidableEq, Repr

/-- Sluice table registers, or their sampled copy (07 R190, R217). -/
structure SluiceCfg where
  /-- 07 R217 SLC_CFG.SMAP_COUNT -/
  smapCount : (BitVec 19) := 0
  /-- 07 R217 FACT_COUNT -/
  factCount : (BitVec 10) := 0
  /-- 07 R217 SLC_SMAP_BASE -/
  smapBase : (BitVec 48) := 0
  /-- 07 R217 SLC_GRP_BASE -/
  grpBase : (BitVec 48) := 0
  /-- 07 R217 SLC_FACT_BASE -/
  factBase : (BitVec 48) := 0
  /-- 07 R217 SLC_LEDGER.BASE -/
  ledgerBase : (BitVec 48) := 0
  /-- 07 R217 SLC_LEDGER.DEPTH -/
  ledgerDepth : (BitVec 16) := 0
  /-- 07 R217 SLC_HOLDWAIT -/
  holdWait : (BitVec 32) := 100000
  deriving DecidableEq, Repr

/-- the Sluice of one stack (07). -/
structure Sluice where
  /-- 07 R217 the registers -/
  cfg : SluiceCfg := {}
  /-- 07 R190 the bases sampled at the last sampling point -/
  cur : SluiceCfg := {}
  /-- 07 R218 SLC_STAT.SEG_ERR -/
  segErr : Bool := false
  /-- 07 R218 STALE -/
  stale : Bool := false
  /-- 07 R218 HOLD_ERR -/
  holdErr : Bool := false
  /-- 07 R218 INLET_ERR -/
  inletErr : Bool := false
  /-- 07 R218 EVAL_BUSY -/
  evalBusy : Bool := false
  /-- 07 R218 SLC_PIPEMAP.FAILED; fuse value; DESIGN CHOICE 0 log 3 -/
  pipeFailed : (BitVec 2) := 0
  /-- 07 R218 SPARE_EN; fuse value; DESIGN CHOICE 0 log 3 -/
  pipeSpare : Bool := false
  /-- 07 R218 SPARE_BAD; fuse value; DESIGN CHOICE 0 log 3 -/
  pipeSpareBad : Bool := false
  /-- 07 R181 written FAILED, SPARE_EN that wait; some: PENDING 1 -/
  pipeNext : (Option (BitVec 2 × Bool)) := none
  /-- 07 R218 SLC_UPDCNT -/
  updCnt : (BitVec 64) := 0
  /-- 07 R218 SLC_NONFIN -/
  nonfin : (BitVec 32) := 0
  /-- 07 R218 SLC_SATCNT -/
  satCnt : (BitVec 32) := 0
  /-- 07 R218 SLC_STALE0 -/
  stale0 : (BitVec 18) := 0
  /-- 07 R218 SLC_STALE1 -/
  stale1 : (BitVec 31) := 0
  /-- 07 R218 SLC_STALE2 -/
  stale2 : (BitVec 31) := 0
  /-- 07 R218 SLC_TAGSEL -/
  tagSel : (BitVec 18) := 0
  /-- 07 R211 tag store; an unlisted entry is (SLC_CSTEP, 0, 0, 0) -/
  tags : (Tbl SegTag) := []
  /-- 07 R193 blocks in the inlet, oldest first -/
  inlet : (List InletBlock) := []
  /-- 07 R204 320-bit norm accumulators by group, in units of 2^-149 -/
  acc : (Tbl Nat) := []
  /-- 07 R189 evaluated schedule values by group -/
  vals : (Tbl GrpVals) := []
  /-- 07 R185 rejected segments -/
  rejected : (List Nat) := []
  /-- 07 R190 Segment Map as sampled, counted from its base -/
  smap : Mem := []
  /-- 07 R190 group table as sampled -/
  grpTab : Mem := []
  /-- 07 R190 factor descriptors as sampled -/
  factTab : Mem := []
  /-- 07 R212 gathers that wait: (context, segment) -/
  waiting : (List (Nat × Nat)) := []
  /-- 18 R478 residue faults within 24 h by pipe -/
  pipeFaults : (Tbl (List (BitVec 64))) := []
  deriving DecidableEq, Repr

/-- one HBM stack, its base die and Sluice (06, 07). -/
structure Stack where
  /-- 06 R161 bytes by physical channel x 2^31 + channel address; zero when unlisted (R178) -/
  mem : Mem := []
  /-- 06 R163 poisoned 32 B units, by key / 32 -/
  poison : List Nat := []
  /-- 07 R194 poisoned units whose MEM_UE of SOURCE 8 the demand read has posted, not yet read by a Sluice -/
  ueSeen : List Nat := []
  /-- 06 R163, R164 poisoned units that a scrub, a partial write, a repair or a copy found and no demand read has met -/
  latent : List Nat := []
  /-- 06 R179 HBM_STAT.UE -/
  ue : Bool := false
  /-- 06 R179 SCRUB_UE -/
  scrubUe : Bool := false
  /-- 06 R179 PARTIAL_POISON -/
  partialPoison : Bool := false
  /-- 06 R179 THROTTLE -/
  throttle : Bool := false
  /-- 06 R179 REFRESH_2X -/
  refresh2x : Bool := false
  /-- 06 R179 SELF_REFRESH -/
  selfRefresh : Bool := false
  /-- 06 R179 HBM_UEADDR holds the first unit since the three flags were all clear -/
  ueNoted : Bool := false
  /-- 06 R179 HBM_UEADDR.CA -/
  ueCa : (BitVec 31) := 0
  /-- 06 R179 HBM_UEADDR.PHYS -/
  uePhys : (BitVec 5) := 0
  /-- 06 R179 HBM_SCRUB.POS -/
  scrubPos : (BitVec 26) := 0
  /-- 06 R179 PASSES -/
  scrubPasses : (BitVec 6) := 0
  /-- 06 R179 HBM_SCRUBCFG.INTERVAL -/
  scrubInterval : (BitVec 16) := 1280
  /-- 06 R179 ROW_THRESH -/
  rowThresh : (BitVec 4) := 3
  /-- 06 R179 HBM_TEMP as the RSC copy reads -/
  temp : (BitVec 8) := 0
  /-- 06 R176 the stack temperature in the slow domain -/
  tempLive : (BitVec 8) := 0
  /-- 06 R179 HBM_RSVSTAT.FAILED; fuse value; DESIGN CHOICE 0 log 3 -/
  failed : (BitVec 32) := 0
  /-- 06 R179 HBM_SPARESTAT.BUSY and the copy -/
  spare : (Option SpareCopy) := none
  /-- 06 R179 HBM_SPARESTAT.LCH -/
  spareLch : (BitVec 5) := 0
  /-- 06 R179 TARGET -/
  spareTarget : (BitVec 5) := 0
  /-- 06 R179 RATE -/
  spareRate : (BitVec 6) := 16
  /-- 06 R179 HBM_SPAREWM -/
  spareWm : (BitVec 20) := 0
  /-- 06 R171 repairs running, at most one per channel; HBM_PPRSTAT.BUSY -/
  pprs : (List Ppr) := []
  /-- 06 R179 HBM_PPRSTAT.PHYS -/
  pprPhys : (BitVec 5) := 0
  /-- 06 R170, R179 spare rows used by physical channel, bit pc + 2 sid + 8 bg; AVAIL is 32 less those; fuse-derived; DESIGN CHOICE none used log 3 -/
  pprUsed : (Tbl (BitVec 32)) := []
  /-- 06 R179 HBM_CHMAPc.PHYS where it differs from c; fuse value; DESIGN CHOICE PHYS = c log 3 -/
  chmap : (Tbl (BitVec 5)) := []
  /-- 06 R175 logical channels OFFLINE (STATE 2) -/
  offline : (List Nat) := []
  /-- 06 R179 HBM_CHERRp.CE -/
  chCe : (Tbl (BitVec 16)) := []
  /-- 06 R179 HBM_CHERRp.UE -/
  chUe : (Tbl (BitVec 8)) := []
  /-- 06 R179 LINKRETRY of channel 0 -/
  linkRetry : (BitVec 8) := 0
  /-- 06 R179 HBM_ROWTRKt -/
  rowTrk : (Tbl RowTrk) := []
  /-- 06 R166 failures in a row of the flit now replayed -/
  retrySeq : Nat := 0
  /-- 06 R176 per-bank refreshes issued -/
  refreshes : Nat := 0
  /-- 06 R177 physical channels in power-down -/
  asleep : (List Nat) := []
  /-- 06 R163 data returned by the last demand read -/
  rdData : List (BitVec 8) := []
  /-- 06 R163 that read returned poisoned data -/
  rdPoison : Bool := false
  /-- 07 the stack's Sluice -/
  sluice : Sluice := {}
  /-- 15 R428 HBM_SWCNT -/
  hbmSwcnt : (BitVec 32) := 0
  deriving DecidableEq, Repr

/-- SLC_CSTAT.STATE codes 0-3 (07 R205). -/
inductive CtlSt where
  | idle
  | open
  | verdict
  | pending
  deriving DecidableEq, Repr

/-- the commit controller (07 R205-R210, R219). -/
structure Commit where
  /-- 07 R219 SLC_CMODE.MODE -/
  mode : Bool := false
  /-- 07 R219 STALE_POLICY: true FAULT -/
  stalePolicy : Bool := false
  /-- 07 R219 STATE -/
  st : CtlSt := .idle
  /-- 07 R219 LAST -/
  last : (BitVec 2) := 0
  /-- 07 R219 RESULT: the held verdict result, 16 words -/
  result : (Option (List (BitVec 32))) := none
  /-- 07 R219 LATE -/
  late : Bool := false
  /-- 07 R219 SEQ_ERR -/
  seqErr : Bool := false
  /-- 07 R219 SLC_CSTEP.STEP -/
  step : (BitVec 31) := 0
  /-- 07 R219 SLC_CVETO.VETO -/
  veto : Bool := false
  /-- 07 R219 SLC_CCAUSE -/
  cause : (BitVec 10) := 0
  /-- 07 R206 causes that arose after T_v -/
  nextCause : (BitVec 10) := 0
  /-- 07 R219 SLC_CLASTCAUSE -/
  lastCause : (BitVec 10) := 0
  /-- 07 R207 the device's own verdict was bad -/
  ownBad : Bool := false
  /-- 07 R207 the verdict payload formed at T_v -/
  payload : List (BitVec 32) := []
  /-- 07 R219 SLC_CLIPNORMd -/
  clipNorm : (Tbl (BitVec 32)) := []
  /-- 07 R208, R209 STEP_N driven low until this Stride Time -/
  stepN : (Option (BitVec 64)) := none
  deriving DecidableEq, Repr

/-- HBM region r (05 R149). -/
structure Region where
  /-- 05 R149 HBM_RGNr_BASE -/
  base : (BitVec 36) := 0
  /-- 05 R149 HBM_RGNr_SIZE -/
  size : (BitVec 36) := 0
  /-- 05 R149 HBM_RGNr_SOFF -/
  soff : (BitVec 24) := 0
  /-- 05 R149 HBM_RGNr_CFG.MODE -/
  mode : (BitVec 2) := 0
  /-- 05 R149 SIDE -/
  side : (BitVec 2) := 0
  /-- 05 R149 STACK -/
  stack : (BitVec 5) := 0
  /-- 05 R149 SLUICE -/
  sluice : Bool := false
  /-- 05 R149 VALID -/
  valid : Bool := false
  deriving DecidableEq, Repr

/-- the region table (05 R146-R149). -/
structure Regions where
  /-- 05 R149 regions; region 0 maps all HBM after reset -/
  tbl : (Tbl Region) := [(0, { size := 0x16800000, valid := true })]
  /-- 05 R149 HBM_RGNSTAT.OVERLAP -/
  overlap : Bool := false
  /-- 05 R149 REGION -/
  region : (BitVec 6) := 0
  /-- 05 R149 RANGE -/
  range : Bool := false
  /-- 15 R428 HBM_RSWCNT -/
  swcnt : (BitVec 32) := 0
  deriving DecidableEq, Repr

/-- STR_STAT.LOCK codes 0-3 (08 R227). -/
inductive Lock where
  | freerun
  | acquire
  | locked
  | holdover
  deriving DecidableEq, Repr

/-- the timekeeper (08 R220-R230, R244). -/
structure Clock where
  /-- 08 R244 STR_NOW, whole ns -/
  ns : (BitVec 64) := 0
  /-- 08 R220 fraction of Stride Time -/
  frac : (BitVec 32) := 0
  /-- 08 R244 STR_CFG.ROLE -/
  role : (BitVec 2) := 0
  /-- 08 R244 REF_EN -/
  refEn : Bool := true
  /-- 08 R244 PARENT -/
  parent : (BitVec 5) := 31
  /-- 08 R244 ALT_PARENT -/
  altParent : (BitVec 5) := 31
  /-- 08 R244 LOAD_ARM -/
  loadArm : Bool := false
  /-- 08 R244 SYNC_PERIOD -/
  syncPeriod : (BitVec 18) := 1000
  /-- 08 R244 STR_MASTER.DEVICE -/
  masterDev : (BitVec 14) := 0
  /-- 08 R244 GEN -/
  masterGen : (BitVec 8) := 0
  /-- 08 R244 STR_STAT.LOCK -/
  lock : Lock := .freerun
  /-- 08 R244 REF_OK -/
  refOk : Bool := false
  /-- 08 R244 SYNC_SEEN -/
  syncSeen : Bool := false
  /-- 08 R244 ON_ALT -/
  onAlt : Bool := false
  /-- 08 R244 STEPPED -/
  stepped : Bool := false
  /-- 08 R244 PARENT_LOST -/
  parentLost : Bool := false
  /-- 08 R244 FOREIGN -/
  foreign : Bool := false
  /-- 08 R244 LOAD_REFUSED -/
  loadRefused : Bool := false
  /-- 08 R244 STR_OFFSET -/
  offset : (BitVec 32) := 0
  /-- 08 R244 STR_PATHDLY -/
  pathDly : (BitVec 32) := 0
  /-- 08 R244 STR_RATE -/
  rate : (BitVec 32) := 0
  /-- 08 R228 the rate correction itself, without the slew that takes an offset out -/
  corr : (BitVec 32) := 0
  /-- 08 R244 STR_LOAD -/
  load : (BitVec 64) := 0
  /-- 08 R244 STR_SYNCCAP -/
  syncCap : (BitVec 64) := 0
  /-- 08 R244 STR_LNKASYMl -/
  asym : (Tbl (BitVec 32)) := []
  /-- 08 R227 consecutive exchanges or edges within 10 ns -/
  good : Nat := 0
  /-- 08 R227 Stride Time of the last usable answer -/
  lastAns : (BitVec 64) := 0
  /-- 08 R226 t3 of the request outstanding -/
  reqSent : (Option (BitVec 64)) := none
  /-- 08 R244 PACE_SYNC edges seen since reset -/
  syncEdges : Nat := 0
  /-- 15 R428 STR_SWCNT -/
  swcnt : (BitVec 32) := 0
  /-- 00 R6 core cycles of the bin clock since reset -/
  coreCyc : Nat := 0
  deriving DecidableEq, Repr

/-- Starter entry e, STR_EVe (08 R232). -/
structure Ev where
  /-- 08 R232 TIME -/
  time : (BitVec 64) := 0
  /-- 08 R232 KIND -/
  kind : (BitVec 8) := 0
  /-- 08 R236 STATUS -/
  status : (BitVec 8) := 0
  /-- 08 R232 VALID -/
  valid : Bool := false
  /-- 08 R232 REQ_LOCK -/
  reqLock : Bool := false
  /-- 08 R232 OWNER: true JCW -/
  owner : Bool := false
  /-- 08 R232 LATE -/
  late : Bool := false
  /-- 08 R232 PERIOD -/
  period : (BitVec 32) := 0
  /-- 08 R232 REPEAT -/
  rept : (BitVec 16) := 0
  /-- 08 R232 PSET -/
  pset : (BitVec 4) := 0
  /-- 08 R232 ARG_A -/
  argA : (BitVec 12) := 0
  /-- 08 R232 ARG_B -/
  argB : (BitVec 32) := 0
  /-- 08 R233 R234 R235 dispatched and held at its object; the mapped Plots of its set as read at dispatch, (logical, physical) -/
  held : (Option (List (Nat × Nat))) := none
  deriving DecidableEq, Repr

/-- the Starter (08 R231-R239, R244). -/
structure Starter where
  /-- 08 R244 STR_EVe -/
  evs : (Tbl Ev) := []
  /-- 08 R244 STR_PSETn -/
  psets : (Tbl (BitVec 256)) := []
  /-- 08 R244 STR_SSTAT.LATE -/
  sLate : Bool := false
  /-- 08 R244 SUPERSEDED -/
  sSup : Bool := false
  /-- 08 R244 REFUSED -/
  sRef : Bool := false
  /-- 08 R244 STR_SCNT_LATE -/
  cntLate : (BitVec 32) := 0
  /-- 08 R244 STR_SCNT_SUP -/
  cntSup : (BitVec 32) := 0
  /-- 08 R244 STR_SCNT_REF -/
  cntRef : (BitVec 32) := 0
  deriving DecidableEq, Repr

/-- LNK_STAT.STATE codes 0-7 (09 R254). -/
inductive LinkSt where
  | disabled
  | training
  | bib
  | held
  | up
  | quarantine
  | retrain
  | failed
  deriving DecidableEq, Repr

/-- lane state codes 0-3 (09 R273). -/
inductive LaneSt where
  | active
  | standby
  | failed
  | off
  deriving DecidableEq, Repr

/-- training steps 1-4 of R255. -/
inductive TrainStep where
  | equalise
  | deskew
  | qualify
  | agree
  | done
  deriving DecidableEq, Repr

/-- one direction of a link, LNK_TXLANE or LNK_RXLANE (09 R273). -/
structure Lanes where
  /-- 09 R273 LOGi: physical lane of logical lane i; 7 none -/
  logical : List Nat := [7, 7, 7, 7]
  /-- 09 R273 SPARE; 7 none -/
  spare : Nat := 7
  /-- 09 R273 STATEp -/
  st : List LaneSt := [.off, .off, .off, .off, .off]
  /-- 09 R273 WIDTH -/
  width : Nat := 0
  deriving DecidableEq, Repr

/-- a flit kept for replay (09 R251). -/
structure TxFlit where
  /-- 09 R249 SEQ -/
  seq : (BitVec 12) := 0
  /-- 09 R249 TYPE CONTROL -/
  ctl : Bool := false
  /-- 09 R264 packets whose last byte it carries -/
  ends : List Packet := []
  /-- 09 R249 FIRST_PKT -/
  firstPkt : (BitVec 10) := 1023
  /-- 09 R249 PAYLOAD, without the zeros that fill it up -/
  payload : List (BitVec 8) := []
  deriving DecidableEq, Repr

/-- link l and Canal l (09). -/
structure Link where
  /-- 09 R272 LNK_STAT.STATE -/
  st : LinkSt := .disabled
  /-- 09 R255 training step reached -/
  step : TrainStep := .equalise
  /-- 09 R263 state before RETRAIN -/
  prev : LinkSt := .disabled
  /-- 09 R255 Stride Time training began -/
  trainStart : (BitVec 64) := 0
  /-- 09 R265 ENABLE was written 0 at this Stride Time and the link drains -/
  disableAt : (Option (BitVec 64)) := none
  /-- 14 R393 R399 DSEQ of the command that disables or retrains the link; all ones if none -/
  cmd : (BitVec 32) := 0xFFFFFFFF
  /-- 09 R272 BIB_VALID -/
  bibValid : Bool := false
  /-- 09 R272 BIB_BAD -/
  bibBad : Bool := false
  /-- 09 R272 BIB_CHG -/
  bibChg : Bool := false
  /-- 09 R272 LANE_FAIL -/
  laneFail : Bool := false
  /-- 09 R272 SPARE_IN -/
  spareIn : Bool := false
  /-- 09 R272 DEGRADED -/
  degraded : Bool := false
  /-- 09 R272 RETRAINED -/
  retrained : Bool := false
  /-- 09 R272 DISCARD -/
  discard : Bool := false
  /-- 09 R272 LNK_CFG.ENABLE -/
  enable : Bool := false
  /-- 09 R272 MEDIUM -/
  medium : (BitVec 2) := 0
  /-- 09 R272 AUTO_SPARE -/
  autoSpare : Bool := true
  /-- 09 R272 MIN_WIDTH -/
  minWidth : (BitVec 3) := 1
  /-- 09 R272 REPLAY_LIMIT -/
  replayLimit : (BitVec 4) := 8
  /-- 09 R272 LANE_THRESH -/
  laneThresh : (BitVec 8) := 196
  /-- 09 R273 LNK_TXLANE -/
  tx : Lanes := {}
  /-- 09 R273 LNK_RXLANE -/
  rx : Lanes := {}
  /-- 09 R271 LNK_BIBTX -/
  bibTx : (BitVec 256) := 0
  /-- 09 R271 LNK_BIBRX -/
  bibRx : (BitVec 256) := 0
  /-- 09 R255 the far end acknowledged our Bib -/
  bibAcked : Bool := false
  /-- 09 R274 LNK_CANAL.MEMBERS -/
  members : (BitVec 18) := 0
  /-- 09 R274 LNK_CANAL.EN -/
  canalEn : Bool := false
  /-- 09 R274 LNK_CANALSTAT.OVERLAP -/
  canalOverlap : Bool := false
  /-- 09 R274 MISMATCH -/
  canalMismatch : Bool := false
  /-- 09 R275 LNK_CNTc -/
  cnt : (List (BitVec 64)) := [0, 0, 0, 0, 0, 0, 0, 0, 0]
  /-- 09 R274 LNK_SYMp -/
  sym : (List (BitVec 32)) := [0, 0, 0, 0, 0]
  /-- 15 R428 LNK_SWCNT -/
  swcnt : (BitVec 32) := 0
  /-- 09 R250 SEQ of the next new flit -/
  txSeq : (BitVec 12) := 0
  /-- 09 R250 SEQ expected in the receive direction -/
  rxSeq : (BitVec 12) := 0
  /-- 09 R250 NAK set in our headers -/
  nakOut : Bool := false
  /-- 09 R251 flits not acknowledged, oldest first, at most 204 -/
  replayBuf : (List TxFlit) := []
  /-- 09 R251 replay in progress: index of the next flit to send again -/
  replayAt : (Option Nat) := none
  /-- 09 R252 replays in a row of the flit at ACK_SEQ -/
  replayCnt : Nat := 0
  /-- 09 R251 ACK_SEQ of the last NAK acted on, and when -/
  lastNak : (Option (BitVec 12 × BitVec 64)) := none
  /-- 09 R249 CONTROL flits waiting: kind (1 Bib, 2 admission, 3 Bib acknowledge) and body -/
  ctlQ : (List (BitVec 8 × BitVec 256)) := []
  /-- 09 R249 flit slots since the last CONTROL flit -/
  slotsSinceCtl : Nat := 64
  /-- 10 R278 link-local queue, at most 8 -/
  localQ : (List Packet) := []
  /-- 10 R279 general place -/
  general : (List Packet) := []
  /-- 10 R279 bounce place -/
  bounce : (List Packet) := []
  /-- 09 R249 packet being sent and its bytes not yet in a flit -/
  sending : (Option (Packet × Nat)) := none
  /-- 10 R291 packet starts since the last Spillway turn -/
  turn : Nat := 0
  /-- 10 R279 input buffer, 4,176 B: arrival time and packet, oldest first -/
  input : (List (BitVec 64 × Packet)) := []
  /-- 10 R288 Spillway buffer of this input -/
  spill : (Option Packet) := none
  /-- 10 R289 MAXW recorded, or reserved for it once the buffer is free -/
  spillMaxW : (Option (BitVec 8)) := none
  /-- 10 R291 credit held for the far end's Spillway buffer -/
  spillCredit : Bool := false
  /-- 09 R260 transmit map announced, switching at the next marker -/
  laneMapNext : (Option Lanes) := none
  /-- 09 R261 receive lane under requalification, with the DSEQ of its command -/
  requal : (Option (Nat × BitVec 32)) := none
  /-- 11 R331 LNK_DISC.OUTCOME -/
  outcome : (BitVec 3) := 0
  /-- 11 R331 ADMIT -/
  admits : Bool := false
  /-- 11 R331 PEER_ADMIT -/
  peerAdmit : Bool := false
  /-- 11 R331 PAIR -/
  pair : (BitVec 5) := 31
  /-- 11 R331 REMAP -/
  remap : Bool := false
  /-- 11 R331 DUP -/
  dup : Bool := false
  /-- 11 R327 Stride Time from which the settle time runs -/
  settleFrom : (BitVec 64) := 0
  /-- 11 R327 the settle time has passed -/
  settled : Bool := false
  /-- 08 R226 Stride Time the last timing message crossed the PMA -/
  timingIn : (Option (BitVec 64)) := none
  /-- 08 R226 t3: Stride Time in 2^-32 ns at which the last request crossed the PMA -/
  reqTx : (Option Nat) := none
  /-- 08 R226 t1: Stride Time in 2^-32 ns at which the last answer crossed the PMA -/
  ansTx : (Option Nat) := none
  /-- 08 R226 t2: Stride Time in 2^-32 ns at which the last answer received crossed the PMA -/
  ansRx : (Option Nat) := none
  /-- 09 R253 the lowest active physical lane changed since the last answer -/
  laneChg : Bool := false
  /-- 09 R255 Stride Time the Bib was last sent -/
  bibSent : (BitVec 64) := 0
  /-- 09 R263 Stride Time RETRAIN began -/
  retrainAt : (BitVec 64) := 0
  /-- 09 R257 transmit lanes that passed qualification -/
  lanesOk : (BitVec 5) := 0
  /-- 09 R261 R266 the far end runs the link at width 1 in its RETAIN -/
  peerNarrow : Bool := false
  /-- 09 R266 transmit map before the link narrowed -/
  fullTx : (Option Lanes) := none
  /-- 09 R263 RETRAIN has ended and the far end's first flit is to come -/
  resync : Bool := false
  /-- 11 R322 R326 a Bib or a Heat Sheet came that discovery has not decided the link on -/
  undecided : Bool := false
  /-- 09 R259 symbol errors of the codewords received in the present 1 ms window, by lane -/
  symRun : (List (BitVec 32)) := [0, 0, 0, 0, 0]
  /-- 09 R249 R250 the flit of the present codeword slot -/
  txOut : (Option Flit) := none
  /-- 09 R270 the Canal, or none, in which the link stays until its packet boundary -/
  oldCanal : (Option (Option Nat)) := none
  /-- 10 R285 links whose general places the head of this input has lost -/
  lostTo : (List Nat) := []
  deriving DecidableEq, Repr

/-- source or destination counts of one fabric stream (10 R297-R301). -/
structure Stream4 where
  /-- 10 R297 packets sent since the last Baton -/
  sent : Nat := 0
  /-- 10 R297 Batons sent -/
  batons : Nat := 0
  /-- 10 R298 Batons not yet delivered -/
  undelivered : Nat := 0
  /-- 10 R299 expected epoch E at the destination -/
  expect : (BitVec 2) := 0
  /-- 10 R299 arrival counts A[e] -/
  arrived : List Nat := [0, 0, 0, 0]
  deriving DecidableEq, Repr

/-- a packet built by this device whose answer has not returned (10 R294). -/
structure Req where
  /-- 10 R276 TAG -/
  tag : (BitVec 16) := 0
  /-- 10 R295 true: the Relay's; false: a Plot DMA's -/
  relay : Bool := false
  /-- 10 R294 physical Plot, or collective context -/
  owner : Nat := 0
  /-- 10 R294 issue number of the transfer -/
  item : Nat := 0
  /-- 05 R157 payload bytes -/
  bytes : Nat := 0
  deriving DecidableEq, Repr

/-- router and discovery (10, 11). -/
structure Router where
  /-- 10 R312 FAB_CFG.FMAP_EN -/
  fmapEn : Bool := false
  /-- 10 R312 FMAP_THRESH -/
  fmapThresh : (BitVec 8) := 1
  /-- 10 R312 FAB_STAT.BANK -/
  bank : Bool := false
  /-- 10 R312 INJ_STOPPED -/
  injStopped : Bool := false
  /-- 10 R312 DRAINED -/
  drained : Bool := false
  /-- 10 R312 SWAP_LATE -/
  swapLate : Bool := false
  /-- 10 R312 DISCARD -/
  discard : Bool := false
  /-- 10 R312 ESC_ERR -/
  escErr : Bool := false
  /-- 10 R312 NOROUTE -/
  noRoute : Bool := false
  /-- 10 R312 OVERFLOW -/
  overflow : Bool := false
  /-- 10 R312 CRC_ERR -/
  crcErr : Bool := false
  /-- 10 R312 FAB_OUT.COUNT -/
  out : Nat := 0
  /-- 10 R301 baton park, at most 64; FAB_PARK.OCC -/
  park : (List Packet) := []
  /-- 10 R302 turn-away list of streams (class, source), at most 16 -/
  turnaway : (List (Nat × Nat)) := []
  /-- 10 R302 park entries reserved for these streams -/
  granted : (List (Nat × Nat)) := []
  /-- 10 R312 FAB_FMAP.BASE -/
  fmapBase : (BitVec 48) := 0
  /-- 10 R312 DEPTH -/
  fmapDepth : (BitVec 16) := 0
  /-- 10 R312 FAB_FMAPPTR -/
  fmapPtr : (BitVec 16) := 0
  /-- 10 R312 FAB_WGTc where it differs from its reset value 0x1040204020 -/
  wgt : (Tbl (BitVec 40)) := []
  /-- 10 R313 FAB_CNTk -/
  cnt : (List (BitVec 64)) := [0, 0, 0, 0, 0, 0, 0, 0, 0, 0]
  /-- 10 R303 routing bank 0 -/
  bank0 : (Tbl (BitVec 32)) := []
  /-- 10 R303 routing bank 1 -/
  bank1 : (Tbl (BitVec 32)) := []
  /-- 10 R285 cur values by Canal x 8 + class -/
  cur : (Tbl Int) := []
  /-- 10 R279 ejection buffers of I/O dies 0-3 -/
  eject : (Tbl (List Packet)) := []
  /-- 10 R279 injection queues by class 0-5 + 8 x unit: 0 the router and what answers packets, 1 the Relay, 2 the Marshals, 16 + p Plot p -/
  injQ : (Tbl (List Packet)) := []
  /-- 10 R286 injection queues whose head waits for an output -/
  injWaits : (List Nat) := []
  /-- 10 R294 READ_DATA landed in its requester's reply space: TAG and bytes -/
  reply : (List (BitVec 16 × List (BitVec 8))) := []
  /-- 10 R297 source counts by class x 2^14 + destination -/
  srcStreams : (Tbl Stream4) := []
  /-- 10 R299 destination counts by class x 2^14 + source -/
  dstStreams : (Tbl Stream4) := []
  /-- 10 R305, R307 ROUTE_SWAP waiting for the drain: T_s and its Starter entry -/
  swapAt : (Option (BitVec 64 × Nat)) := none
  /-- 10 R307 Starter entry of a DRAIN_END that waits for the swap -/
  endPending : (Option Nat) := none
  /-- 10 R309 deflections of the window by productive Canal -/
  winDefl : (Tbl Nat) := []
  /-- 10 R310 ESCAL -/
  winEscal : Nat := 0
  /-- 10 R310 BOUNCE -/
  winBounce : Nat := 0
  /-- 10 R310 INJWAIT core cycles -/
  winInjWait : Nat := 0
  /-- 10 R309 start of the window -/
  winStart : (BitVec 64) := 0
  /-- 11 R331 FAB_ID.ID; POS_STRAP, sampled 0 (DESIGN CHOICE log 5) -/
  id : (BitVec 14) := 0
  /-- 11 R331 FAB_ID.SRC -/
  idSrc : Bool := true
  /-- 11 R331 STRAP_DIFF -/
  strapDiff : Bool := false
  /-- 11 R319 the device's copy of the Heat Sheet in force, 352 B; empty: none (FAB_HSGEN, FAB_HSSTAT.INSTALLED) -/
  hs : List (BitVec 8) := []
  /-- 11 R331 REJECT -/
  hsReject : Bool := false
  /-- 11 R331 REJ_CODE -/
  hsRejCode : (BitVec 3) := 0
  /-- 11 R331 CHANGE -/
  hsChange : Bool := false
  /-- 11 R331 FAB_DISCCFG.SETTLE -/
  settle : (BitVec 10) := 300
  /-- 15 R428 FAB_SWCNT -/
  swcnt : (BitVec 32) := 0
  /-- 16 R430 mailbox of the Fabric Marshal, at most 64 -/
  mbox : (List Packet) := []
  /-- 10 R279 packets drained from the ejection buffers into the mesh and not yet served, oldest first -/
  deliv : (List Packet) := []
  /-- 10 R276, R306 packets built whose answer has not returned -/
  reqs : (List Req) := []
  /-- 10 R276 next TAG to use -/
  nextTag : BitVec 16 := 0
  /-- 16 R430 MGMT messages sent and not acknowledged -/
  mgmtOut : (List Packet) := []
  deriving DecidableEq, Repr

/-- collective group g (12 R334). -/
structure Group where
  /-- 12 R334 N -/
  n : Nat := 0
  /-- 12 R334 GEN -/
  gen : (BitVec 16) := 0
  /-- 12 R334 own rank -/
  rank : Nat := 0
  /-- 12 R334 device address of the member list -/
  list : (BitVec 48) := 0
  /-- 14 R395 the window that loaded it: true JCW -/
  jcw : Bool := false
  deriving DecidableEq, Repr

/-- COL_CTXc.STATE codes 0-4 (12 R341). -/
inductive CtxSt where
  | free
  | posted
  | rendezvous
  | running
  | closing
  deriving DecidableEq, Repr

/-- a block held in the Relay store (12 R333, R356). -/
structure CollBlk where
  /-- 12 R353 it travels up a reduction tree -/
  up : Bool := false
  /-- 12 R353 shard of its tree -/
  shard : Nat := 0
  /-- 12 R352 first leaf of the node -/
  a : Nat := 0
  /-- 12 R352 end leaf of the node -/
  b : Nat := 0
  /-- 12 R356 block number in the shard -/
  blk : Nat := 0
  /-- 12 R354 elements (a pair as h in [31:0], l in [63:32]) and poison marks -/
  data : List (BitVec 64 × Bool) := []
  /-- 12 R359 step tags it carries -/
  tags : List (BitVec 31) := []
  /-- 12 R356 rank it came from, to which its buffer's credit goes back -/
  sender : (Option Nat) := none
  deriving DecidableEq, Repr

/-- a block to send or to deliver here (12 R356, R357). -/
structure CollSend where
  /-- 12 R353 0 up a tree, 1 down a tree, 2 straight to its destination, 3 the oldest block that waits in `early` -/
  kind : Nat := 0
  /-- 12 R353 shard of its tree -/
  shard : Nat := 0
  /-- 12 R352 first leaf of the node; down or straight: destination rank -/
  a : Nat := 0
  /-- 12 R352 end leaf of the node -/
  b : Nat := 0
  /-- 12 R356 block number -/
  blk : Nat := 0
  deriving DecidableEq, Repr

/-- a segment served to a SLUICE source piece (12 R359). -/
structure Served where
  /-- 12 R359 its compute copy -/
  bytes : List (BitVec 8) := []
  /-- 12 R362 offsets of poisoned bytes -/
  bad : List Nat := []
  /-- 12 R359 STEP of the tag served -/
  tag : (BitVec 31) := 0
  deriving DecidableEq, Repr

/-- progress of a piece (12 R338, R358). -/
structure Piece where
  /-- 12 R358 complete and its RAISE made -/
  done : Bool := false
  /-- 12 R358 bytes not yet read or landed -/
  left : Nat := 0
  /-- 12 R338, R342 a SLUICE piece's segments with their COUNT and bytes per element of their COPY_FMT at the post -/
  segs : List (Nat × Nat × Nat) := []
  /-- 12 R359 segments of a SLUICE source served, by segment -/
  served : (Tbl Served) := []
  /-- 12 R359 (rank, byte of the vector, STEP) of the tags its blocks carried -/
  tags : List (Nat × Nat × BitVec 31) := []
  /-- 12 R359 bytes of a SLUICE destination delivered to the inlet -/
  pos : Nat := 0
  /-- 12 R357 bytes landed ahead of their turn: offset, bytes, poisoned offsets -/
  wait : List (Nat × List (BitVec 8) × List Nat) := []
  deriving DecidableEq, Repr

/-- bytes of PERMUTE that overlap source bytes not yet read (12 R360). -/
structure Held where
  /-- 12 R360 rank they come from -/
  rank : Nat := 0
  /-- 12 R360 first destination byte -/
  o : Nat := 0
  /-- 12 R360 first byte in SCRATCH -/
  off : Nat := 0
  /-- 12 R360 bytes -/
  n : Nat := 0
  /-- 12 R359 step tags they carry -/
  tags : List (BitVec 31) := []
  deriving DecidableEq, Repr

/-- collective context c (12 R341). -/
structure Ctx where
  /-- 12 R365 COL_CTXc.STATE -/
  st : CtxSt := .free
  /-- 12 R365 STATUS -/
  status : (BitVec 4) := 0
  /-- 12 R365 OWNER -/
  jcw : Bool := false
  /-- 12 R337 the posted descriptor, 128 B; GROUP, LAUNCH and SEQ read from it -/
  desc : List (BitVec 8) := []
  /-- 12 R345 order of posting -/
  posted : Nat := 0
  /-- 12 R343 store taken, in bytes -/
  store : Nat := 0
  /-- 12 R350 Stride Time of the launch -/
  launchAt : (BitVec 64) := 0
  /-- 12 R350 Stride Time of the last block, credit or count, or of GO -/
  lastRx : (BitVec 64) := 0
  /-- 12 R347 own digest -/
  digest : (BitVec 64) := 0
  /-- 12 R346 rank 0: POSTs held, (rank, digest) -/
  posts : (List (Nat × BitVec 64)) := []
  /-- 12 R346 Stride Time of a RETRY answer -/
  retry : (Option (BitVec 64)) := none
  /-- 12 R358 source pieces -/
  src : (List Piece) := []
  /-- 12 R358 destination pieces -/
  dst : (List Piece) := []
  /-- 12 R356 blocks held in the store -/
  sums : (List CollBlk) := []
  /-- 12 R356 blocks that came and are not yet taken: before GO, before every count, or while memory they land in cannot be accessed -/
  early : List CollBlock := []
  /-- 12 R356 blocks still to send or to deliver here -/
  toSend : (List CollSend) := []
  /-- 12 R356 tree credits held, by destination rank -/
  credits : (Tbl Nat) := []
  /-- 12 R349 counts learnt, (rank, elements) -/
  counts : (List (Nat × Nat)) := []
  /-- 12 R358 COLL_DATA sent and not answered -/
  unacked : Nat := 0
  /-- 12 R350 (rank, blocks) still to come -/
  awaited : List (Nat × Nat) := []
  /-- 12 R356 (shard, block) of the blocks that came down a tree -/
  got : (List (Nat × Nat)) := []
  /-- 12 R361 a poisoned source or store word was met -/
  poison : Bool := false
  /-- 12 R360 PERMUTE bytes held in SCRATCH -/
  held : List Held := []
  /-- 12 R360 bytes of SCRATCH used -/
  scratchAt : Nat := 0
  /-- 12 R350 missing ranks recorded -/
  missing : List Nat := []
  deriving DecidableEq, Repr

/-- what the Relay has still to do: send its POST, look at the POSTs, take GO, a count, an ABORT, ask for an ABORT, fail for a NACK, write the missing-member bitmap (12 R363). -/
inductive ActKind where
  | launch
  | zero
  | go
  | count
  | abort
  | ask
  | remote
  | missing
  deriving DecidableEq, Repr

/-- something the Relay does once memory it needs can be accessed (12 R363). -/
structure RelayAct where
  /-- 12 R363 what -/
  kind : ActKind := .launch
  /-- 12 R341 its context -/
  ctx : Nat := 0
  /-- 12 R345 order of posting of that context -/
  posted : Nat := 0
  /-- 12 R349 rank of a count -/
  rank : Nat := 0
  /-- 12 R349 its count -/
  count : Nat := 0
  /-- 12 R348 what an ABORT carries -/
  msg : (Option AbortMsg) := none
  /-- 12 R350 missing ranks -/
  ranks : List Nat := []
  deriving DecidableEq, Repr

/-- the Relay (12). -/
structure Relay where
  /-- 12 R341 contexts 0-127 -/
  ctxs : (Tbl Ctx) := []
  /-- 12 R334 groups 0-4,095 -/
  groups : (Tbl Group) := []
  /-- 12 R346 early-post table (GROUP, SEQ, rank, digest), at most 256 -/
  early : (List (Nat × BitVec 32 × Nat × BitVec 64)) := []
  /-- 12 R365 COL_RDYd -/
  rdy : (Tbl (BitVec 256)) := []
  /-- 12 R365 COL_STAT.MISMATCH -/
  sMismatch : Bool := false
  /-- 12 R365 STALL -/
  sStall : Bool := false
  /-- 12 R365 POISON -/
  sPoison : Bool := false
  /-- 12 R365 REMOTE -/
  sRemote : Bool := false
  /-- 12 R365 ABORTED -/
  sAborted : Bool := false
  /-- 12 R365 REFUSED -/
  sRefused : Bool := false
  /-- 12 R365 COL_TIMEOUT -/
  timeout : (BitVec 32) := 2000000
  /-- 12 R365 COL_MISS_BASE -/
  missBase : (BitVec 48) := 0
  /-- 12 R365 COL_ERR0.VALID -/
  errValid : Bool := false
  /-- 12 R365 CTX -/
  errCtx : (BitVec 7) := 0
  /-- 12 R365 CODE -/
  errCode : (BitVec 4) := 0
  /-- 12 R365 RANK -/
  errRank : (BitVec 14) := 0
  /-- 12 R365 PARTIAL -/
  errPartial : Bool := false
  /-- 12 R365 COL_ERR_OWN -/
  errOwn : (BitVec 64) := 0
  /-- 12 R365 COL_ERR_OTHER -/
  errOther : (BitVec 64) := 0
  /-- 12 R366 COL_CNTk -/
  cnt : (List (BitVec 64)) := [0, 0, 0, 0, 0, 0, 0, 0]
  /-- 12 R345 posts made, for the order of posting -/
  nposts : Nat := 0
  /-- 12 R363 what waits for memory, oldest first -/
  acts : List RelayAct := []
  /-- 15 R428 COL_SWCNT -/
  swcnt : (BitVec 32) := 0
  deriving DecidableEq, Repr

/-- CMD_WSTATE.STATE codes 0-3 (14 R386). -/
inductive WinSt where
  | idle
  | busy
  | done
  | offline
  deriving DecidableEq, Repr

/-- a command window (14 R385, R406). -/
structure Window where
  /-- 14 R406 CMD_WSTATE.STATE -/
  st : WinSt := .offline
  /-- 14 R385 CMD_REQ, 1,024 B; zero when unlisted (DESIGN CHOICE log 4) -/
  req : Mem := []
  /-- 14 R385 CMD_REPLY: the reply's bytes, the rest reads 0 (R391) -/
  reply : List (BitVec 8) := []
  /-- 14 R406 REQ_IGNORED -/
  reqIgnored : Bool := false
  /-- 14 R406 COMMIT_IGNORED -/
  commitIgnored : Bool := false
  /-- 14 R406 IRQ_EN -/
  irqEn : Bool := false
  /-- 14 R406 LAST_HSEQ -/
  lastHseq : (BitVec 32) := 0
  /-- 14 R398 a COMMIT latched and not yet consumed: its value -/
  latched : (Option (BitVec 32)) := none
  /-- 14 R393 DSEQ of the packet consumed and without a reply -/
  cur : (Option (BitVec 32)) := none
  /-- 14 R392 the reply of the last packet consumed, for DUPLICATE -/
  cache : List (BitVec 8) := []
  deriving DecidableEq, Repr

/-- long host transfers (14 R396). -/
inductive HostKind where
  | toDevice
  | toHost
  | fill
  deriving DecidableEq, Repr

/-- a DMA_TO_DEVICE, DMA_TO_HOST or DMA_FILL command in progress (14 R396, R397). -/
structure HostDma where
  /-- 14 R396 opcode 0x20, 0x21 or 0x22 -/
  kind : HostKind := .toDevice
  /-- 14 R394 window -/
  win : Win := .pcw
  /-- 14 R394 HSEQ -/
  hseq : (BitVec 32) := 0
  /-- 14 R394 DSEQ -/
  dseq : (BitVec 32) := 0
  /-- 14 R396 LIST host address, or DST of a fill -/
  list : Nat := 0
  /-- 14 R396 COUNT, or BYTES of a fill -/
  count : Nat := 0
  /-- 14 R396 PATTERN -/
  pattern : (BitVec 32) := 0
  /-- 14 R397 list entries completed -/
  next : Nat := 0
  /-- 14 R396 BYTES moved so far -/
  bytes : Nat := 0
  deriving DecidableEq, Repr

/-- another long command in progress (14 R394). -/
structure Long where
  /-- 14 R396 opcode -/
  op : (BitVec 8) := 0
  /-- 14 R394 window -/
  win : Win := .pcw
  /-- 14 R394 HSEQ -/
  hseq : (BitVec 32) := 0
  /-- 14 R394 DSEQ -/
  dseq : (BitVec 32) := 0
  /-- 14 R396 its object: link x 8 + lane, target state, ROLES, role or slot -/
  arg : Nat := 0
  deriving DecidableEq, Repr

/-- an Event Journal record (14 R399). -/
structure Rec where
  /-- 14 R399 JSEQ -/
  jseq : (BitVec 64) := 0
  /-- 14 R399 TIME -/
  time : (BitVec 64) := 0
  /-- 14 R399 TYPE -/
  type : (BitVec 16) := 0
  /-- 14 R399 CLASS -/
  cls : (BitVec 3) := 0
  /-- 14 R399 INDEX -/
  index : (BitVec 16) := 0
  /-- 14 R399 DSEQ -/
  dseq : (BitVec 32) := 0
  /-- 14 R399 PAYLOAD words, the rest 0 -/
  payload : List (BitVec 32) := []
  deriving DecidableEq, Repr

/-- host port, windows and Journal (14). -/
structure HostPort where
  /-- 14 R385 the PCW -/
  pcw : Window := {}
  /-- 14 R385 the JCW -/
  jcw : Window := {}
  /-- 14 R406 CMD_DSEQ, the last value assigned -/
  dseq : (BitVec 32) := 0
  /-- 14 R401 records held, newest first, at most 65,536 -/
  recs : List Rec := []
  /-- 14 R406 CMD_JHEAD -/
  jhead : (BitVec 64) := 0
  /-- 14 R406 CMD_JWRITTEN -/
  jwritten : (BitVec 64) := 0
  /-- 14 R406 CMD_JTAIL -/
  jtail : (BitVec 64) := 0
  /-- 14 R406 CMD_JBASE -/
  jbase : (BitVec 64) := 0
  /-- 14 R406 CMD_JHEADWB -/
  jheadWb : (BitVec 64) := 0
  /-- 14 R406 CMD_JCFG.EN -/
  jen : Bool := false
  /-- 14 R406 SIZE_LOG2 -/
  jsize : (BitVec 5) := 12
  /-- 14 R406 MOD -/
  jmod : (BitVec 16) := 10
  /-- 14 R406 CMD_JSTAT.FULL -/
  jfull : Bool := false
  /-- 14 R406 GAP -/
  jgap : Bool := false
  /-- 14 R402 JWRITTEN when vector 2 was last signalled -/
  jsignalled : (BitVec 64) := 0
  /-- 14 R406 CMD_HSTAT.BAR4_ERR -/
  bar4Err : Bool := false
  /-- 14 R406 BAR2_WRITE -/
  bar2Write : Bool := false
  /-- 14 R406 SPEED -/
  speed : (BitVec 3) := 0
  /-- 14 R406 WIDTH -/
  width : (BitVec 4) := 0
  /-- 14 R406 FLIT -/
  flit : Bool := false
  /-- 14 R406 CMD_BAR2_WCNT -/
  bar2Cnt : (BitVec 32) := 0
  /-- 14 R406 CMD_BAR4_BASE.BASE -/
  bar4Base : (BitVec 18) := 0
  /-- 14 R381 size selected for BAR4: 2^(30 + this) B, at most 64 GiB -/
  bar4Log : (BitVec 3) := 6
  /-- 14 R406 CMD_BAR4_ERRADDR -/
  bar4ErrAddr : (BitVec 48) := 0
  /-- 15 R408 data of the last wide register read -/
  rdData : List (BitVec 8) := []
  /-- 17 R463 data of the last read of the test port -/
  dbgData : List (BitVec 8) := []
  /-- 14 R384 data of the last BAR4 read completion -/
  bar4Data : List (BitVec 8) := []
  /-- 14 R379 R384 AER has reported a Poisoned TLP -/
  aerPoisoned : Bool := false
  /-- 14 R384 the last BAR4 completion: 0 data, 1 poisoned data, 2 Completer Abort -/
  bar4Status : (BitVec 2) := 0
  /-- 14 R405 MSI-X table, 1 KiB; PRESUMED reset: every vector masked, the rest 0 (the PCIe specification's) log 6 -/
  msixTable : Mem := (List.range 64).map (fun i => (16 * i + 12, 1))
  /-- 14 R405 MSI-X pending bit array; vectors signalled and not delivered -/
  msixPba : (BitVec 64) := 0
  /-- 14 R388, R402 vectors signalled to the host, newest first -/
  msixSent : List Nat := []
  /-- 14 R380 the function is in D3hot -/
  d3hot : Bool := false
  /-- 14 R397 host memory as the device's reads and writes see it; the environment's, zero when unlisted (DESIGN CHOICE log 7) -/
  hostMem : Mem := []
  /-- 14 R397 host transfers in progress -/
  dmas : List HostDma := []
  /-- 14 R394 other long commands in progress -/
  longs : List Long := []
  /-- 15 R428 GEN_SWCNT -/
  swcnt : (BitVec 32) := 0
  /-- 15 R413 capture buffer of BAR0: register address and value -/
  bar0Cap : (Option (Nat × BitVec 256)) := none
  /-- 15 R413 capture buffer of BAR2 -/
  bar2Cap : (Option (Nat × BitVec 256)) := none
  /-- 15 R412 staged lower word by block space: register and word -/
  stage : (Tbl (Nat × BitVec 32)) := []
  /-- 15 R409, 17 R463 bytes of the Marshal-internal range; zero when unlisted (DESIGN CHOICE log 4) -/
  marshalSram : (Tbl (BitVec 8)) := []
  deriving DecidableEq, Repr

/-- GEN_BOOTSTAT.STATE codes 0-4 (16 R446). -/
inductive BootSt where
  | init
  | ready
  | loading
  | running
  | rejected
  deriving DecidableEq, Repr

/-- GEN_MSTATm.STATE codes 0-5 (16 R446). -/
inductive MState where
  | off
  | starting
  | running
  | handover
  | restarting
  | failed
  deriving DecidableEq, Repr

/-- Marshal m (16 R446). -/
structure Marshal where
  /-- 16 R446 GEN_MSTATm.ROLE -/
  role : (BitVec 3) := 0
  /-- 16 R446 STATE -/
  st : MState := .off
  /-- 16 R446 CAUSE -/
  cause : (BitVec 4) := 0
  /-- 16 R446 SLOT -/
  slot : Bool := false
  /-- 16 R446 MBOX_DROP -/
  drop : (BitVec 8) := 0
  /-- 17 R463 halted by the debug port -/
  halted : Bool := false
  /-- 16 R438 Stride Time of the last watchdog write -/
  wdog : (BitVec 64) := 0
  deriving DecidableEq, Repr

/-- boot window, Marshals and image slots (16). -/
structure Boot where
  /-- 16 R446 GEN_BOOTADDR -/
  addr : (BitVec 48) := 0
  /-- 16 R446 GEN_BOOTLEN -/
  len : (BitVec 24) := 0
  /-- 16 R446 GEN_BOOTSTAT.STATE -/
  st : BootSt := .init
  /-- 16 R446 CODE -/
  code : (BitVec 8) := 0
  /-- 16 R446 SLOT: active slot, true B -/
  slot : Bool := false
  /-- 16 R446 GEN_FWVER.ACTIVE -/
  active : (BitVec 32) := 0
  /-- 16 R446 GEN_FWVER.STAGED -/
  staged : (BitVec 32) := 0
  /-- 16 R446 Marshals 0-5; roles from GEN_MROLE -/
  marshals : (List Marshal) := [{ role := 1 }, { role := 2 }, { role := 3 }, { role := 4 }, {}, {}]
  /-- 16 R446 GEN_MROLE: Marshal that holds roles 1-4; follows the fuses at reset; DESIGN CHOICE 0-3 log 3 -/
  roleMap : List Nat := [0, 1, 2, 3]
  /-- 16 R439 the map in the fuse banks; DESIGN CHOICE 0-3 log 3 -/
  roleFuse : List Nat := [0, 1, 2, 3]
  /-- 14 R396, 06 R171 a warm reset asked for: Stride Time at which it is due, and KIND of its RESET record (R400) -/
  resetAt : (Option (BitVec 64 × BitVec 2)) := none
  /-- 16 R446 GEN_MROLE.FAILED; fuse value; DESIGN CHOICE 0 log 3 -/
  mFailed : (BitVec 6) := 0
  /-- 16 R431 image slot A; empty: none -/
  slotA : List (BitVec 8) := []
  /-- 16 R431 image slot B -/
  slotB : List (BitVec 8) := []
  /-- 16 R433 SHA-512 recorded at verification of slot A -/
  hashA : List (BitVec 8) := []
  /-- 16 R433 SHA-512 recorded at verification of slot B -/
  hashB : List (BitVec 8) := []
  /-- 16 R439 crashes of the last 3,600 s: (role, Stride Time) -/
  crashes : (List (Nat × BitVec 64)) := []
  /-- 16 R439 Stride Time of the last MARSHAL_NOSPARE by role -/
  noSpare : (Tbl (BitVec 64)) := []
  /-- 19 R498 PERST_N has been released -/
  hsDone : Bool := false
  /-- 19 R501 PERST_N asserted -/
  perst : Bool := true
  /-- 19 R500 GEN_STRAP POS, BOOT, BOOT_RSV; strap value; DESIGN CHOICE 0 log 5 -/
  strap : (BitVec 18) := 0
  /-- 19 R500 GEN_STRAP.REF_B -/
  refB : Bool := false
  /-- 06 R178 HBM initialised -/
  hbmReady : Bool := false
  /-- 19 R502 time of the last warm reset, in ns since power-on (Stride Time restarts) -/
  lastWarm : (Option (BitVec 64)) := none
  /-- 19 R502 ns since power-on -/
  upNs : (BitVec 64) := 0
  deriving DecidableEq, Repr

/-- PWR_STATE codes 0-3 (17 R470). -/
inductive PwrSt where
  | run
  | trim
  | idle
  | retain
  deriving DecidableEq, Repr

/-- power island i, PWR_ISLi (16 R446). -/
structure Island where
  /-- 16 R446 GRANT; bin clock -/
  grant : Nat := 1250
  /-- 16 R446 THERM; bin clock -/
  therm : Nat := 1250
  /-- 16 R446 TEMP, RSC copy -/
  temp : (BitVec 8) := 0
  /-- 16 R435 hottest sensor in the slow domain -/
  tempLive : (BitVec 8) := 0
  /-- 16 R436 ceil_hw at 60% of the bin clock -/
  hwThrottle : Bool := false
  /-- 16 R436 clock halved by the droop response -/
  droop : Bool := false
  /-- 08 R241 ceil_bmc; 0 absent -/
  ceilBmc : Nat := 0
  /-- 08 R241 ceil_pcw; 0 absent -/
  ceilPcw : Nat := 0
  /-- 08 R241 ceil_starter; 0 absent -/
  ceilStr : Nat := 0
  /-- 16 R440 f_last -/
  fLast : Nat := 1250
  /-- 19 R493 raised grant waiting for the voltage; 0 none -/
  wanted : Nat := 0
  deriving DecidableEq, Repr

/-- power, thermal and power states (16, 17, 19). -/
structure Power where
  /-- 17 R470 PWR_STATE.STATE -/
  st : PwrSt := .run
  /-- 17 R470 TARGET -/
  target : PwrSt := .run
  /-- 17 R470 BUSY -/
  busy : Bool := false
  /-- 17 R466 Stride Time of the request for the power state being entered -/
  reqAt : (BitVec 64) := 0
  /-- 17 R470 REFUSED -/
  refused : Bool := false
  /-- 16 R446 islands 0-15 -/
  islands : (List Island) := [{}, {}, {}, {}, {}, {}, {}, {}, {}, {}, {}, {}, {}, {}, {}, {}]
  /-- 16 R446 PWR_CAPEFF.TDP -/
  tdp : (BitVec 16) := 3800
  /-- 16 R446 PWR_CAP0 -/
  capBmc : (BitVec 16) := 0
  /-- 16 R446 PWR_CAP1 -/
  capPcw : (BitVec 16) := 0
  /-- 16 R446 PWR_CAP2 -/
  capStr : (BitVec 16) := 0
  /-- 16 R446 PWR_CAP3 -/
  capHold : (BitVec 16) := 0
  /-- 16 R446 PWR_STAT.HOLD -/
  hold : Bool := false
  /-- 16 R445 Stride Time the hold governor engaged -/
  holdSince : (BitVec 64) := 0
  /-- 16 R446 LIMITED -/
  limited : Bool := false
  /-- 16 R446 THERM_HW -/
  thermHw : Bool := false
  /-- 16 R446 DROOP -/
  droopF : Bool := false
  /-- 16 R446 PWR_POWER.P_1US, RSC copy -/
  p1us : (BitVec 16) := 0
  /-- 16 R446 P_1MS, RSC copy -/
  p1ms : (BitVec 16) := 0
  /-- 16 R434 device power in the slow domain -/
  p1usLive : (BitVec 16) := 0
  /-- 16 R446 its 1 ms average in the slow domain -/
  p1msLive : (BitVec 16) := 0
  /-- 16 R440 cap_eff at the last grant, without cap_hold -/
  capAtGrant : Nat := 3800
  /-- 16 R438 Stride Time of the last grants -/
  lastGrant : (BitVec 64) := 0
  /-- 19 R493 VDD_CORE set point in mV -/
  mv : Nat := 750
  /-- 19 R493 failed AVSBus transactions in a row -/
  avsFails : Nat := 0
  /-- 19 R493 grant cap after a third failure; 0 none -/
  avsCap : Nat := 0
  /-- 16 R437 snapshots not posted: (TIME, payload), oldest first, at most 16 -/
  snaps : (List (BitVec 64 × List (BitVec 32))) := []
  /-- 15 R428 PWR_SWCNT -/
  swcnt : (BitVec 32) := 0
  /-- 15 R428 GEN_SLOWSEQ -/
  slowSeq : (BitVec 32) := 0
  /-- 17 R465 OFF -/
  off : Bool := false
  /-- 19 R503 THERMTRIP_N latched low; clocks stopped -/
  tripped : Bool := false
  /-- 18 R475, 19 R498 both core references are lost: the core clock has stopped -/
  clockLost : Bool := false
  /-- 15 R428 GEN_REV.ORDER: true VDN-PT24-32; fuse value; DESIGN CHOICE VDN-PT24-38 log 3 -/
  orderCode : Bool := false
  deriving DecidableEq, Repr

/-- security block (17). -/
structure Sec where
  /-- 17 R448 ROOT_HASH fuses, 64 B; empty: not burned; DESIGN CHOICE empty log 3 -/
  rootHash : List (BitVec 8) := []
  /-- 17 R470 SEC_FUSE.REVOKED; fuse value; DESIGN CHOICE 0 log 3 -/
  revoke : (BitVec 16) := 0
  /-- 17 R470 SEC_SVN; fuse value; DESIGN CHOICE 0 log 3 -/
  svn : (BitVec 64) := 0
  /-- 17 R470 SEC_FUSE.LC_BITS; fuse value; DESIGN CHOICE 0 (BLANK) log 3 -/
  lcBits : (BitVec 3) := 0
  /-- 17 R470 SEC_STAT.LC_PENDING -/
  lcPending : Bool := false
  /-- 17 R470 LC_TARGET -/
  lcTarget : (BitVec 2) := 0
  /-- 17 R470 SEC_STAT.LC, as applied at the last cold reset -/
  lc : (BitVec 2) := 0
  /-- 17 R448 DEVID fuses (seed); empty: none; DESIGN CHOICE empty log 3 -/
  devid : List (BitVec 8) := []
  /-- 17 R460 DEVID fuses burned to all ones -/
  devidGone : Bool := false
  /-- 17 R448 CERT store; empty: no chain; DESIGN CHOICE empty log 3 -/
  cert : List (BitVec 8) := []
  /-- 17 R470 SEC_STAT.DEBUG -/
  dbg : (BitVec 2) := 0
  /-- 17 R470 DEBUG_MAX -/
  debugMax : (BitVec 2) := 0
  /-- 17 R470 SIGN_OK: 0 in BLANK -/
  signOk : Bool := false
  /-- 17 R470 CLEARING -/
  clearing : Bool := false
  /-- 17 R464 DEBUG_TOKEN whose clear runs: DSEQ, KEY_ID, Stride Time of its start -/
  clearTok : (Option (BitVec 32 × BitVec 4 × BitVec 64)) := none
  /-- 17 R470 SEC_NONCE; drawn: a free value after a reset; DESIGN CHOICE 0 in State.reset log 2 -/
  nonce : (BitVec 64) := 0
  /-- 17 R470 SEC_BOOTERR.STEP -/
  bootErr : (BitVec 4) := 0
  /-- 17 R470 SEC_BOOTERR.SLOT -/
  bootErrSlot : Bool := false
  /-- 17 R470 SEC_TOKERR.REJECT -/
  tokReject : Bool := false
  /-- 17 R470 SEC_TOKERR.CAUSE -/
  tokCause : (BitVec 4) := 0
  /-- 15 R428 GEN_SERIAL; fuse value; DESIGN CHOICE 0 log 3 -/
  serial : (BitVec 64) := 0
  /-- 17 R456 the last SPDM response -/
  spdm : List (BitVec 8) := []
  /-- 16 R429 the last sensor reading sent over MCTP -/
  pldm : List (BitVec 16) := []
  /-- 15 R428 SEC_SWCNT -/
  swcnt : (BitVec 32) := 0
  deriving DecidableEq, Repr

/-- RAS_PLOTSTATp.STATE codes 0-2 (18 R489). -/
inductive PState where
  | enabled
  | spare
  | retired
  deriving DecidableEq, Repr

/-- reliability and spares (18). -/
structure Ras where
  /-- 18 R489 RAS_STAT.FATAL; FAULT_N low (19 R501) -/
  fatal : Bool := false
  /-- 18 R479, 19 R498 FAULT_N held by the boot core -/
  bootFault : Bool := false
  /-- 18 R489 PLL_ALT -/
  pllAlt : Bool := false
  /-- 18 R479 the core PLL runs on the duplicate reference, until the next cold reset -/
  onDup : Bool := false
  /-- 18 R489 REF_LOST -/
  refLost : Bool := false
  /-- 18 R489 FUSE_CORR -/
  fuseCorr : Bool := false
  /-- 18 R489 RAS_CFG.AUTO -/
  auto : (BitVec 6) := 63
  /-- 18 R489 CE_SUM_MS -/
  ceSumMs : (BitVec 16) := 1000
  /-- 18 R489 RAS_FATAL.CAUSE -/
  fatalCause : (BitVec 4) := 0
  /-- 18 R489 INDEX -/
  fatalIndex : (BitVec 8) := 0
  /-- 18 R489 RAS_CLASSCNTk -/
  classCnt : (List (BitVec 64)) := [0, 0, 0, 0, 0]
  /-- 02 R23 the fuses that name the spare Plots; DESIGN CHOICE 256 to 271 log 3 -/
  spareFused : (List Nat) := [256, 257, 258, 259, 260, 261, 262, 263, 264, 265, 266, 267, 268, 269, 270, 271]
  /-- 18 R489 RAS_PLOTSTATp.STATE where not ENABLED below 256 and SPARE from 256; fuse-derived; DESIGN CHOICE log 3 -/
  plotSt : (Tbl PState) := []
  /-- 04 R123 RAS_PLOTMAPl.PHYS where it differs from l; fuse-derived; DESIGN CHOICE Plots 256-271 spare log 3 -/
  plotMap : (Tbl (BitVec 9)) := []
  /-- 04 R123 logical Plots with VALID 0 -/
  unmapped : List Nat := []
  /-- 18 R484 repair fuse words burned, in store order; RAS_FUSE.WORDS_LEFT is 1,024 less their count; DESIGN CHOICE none log 3 -/
  fuses : List (BitVec 32) := []
  /-- 06 R174 channel-map fuses of a stack that differ from the default: the 30 PHYS and the FAILED channels -/
  chFuse : (Tbl (List (BitVec 5) × BitVec 32)) := []
  /-- 06 R170 hard repairs used by stack x 32 + channel (permanent), bits as pprUsed -/
  pprFuse : (Tbl (BitVec 32)) := []
  /-- 18 R478 corrections since the last CE_SUMMARY: Reservoir, Basin, HBM, Relay store, tag store, Marshal SRAM -/
  ceNow : List Nat := [0, 0, 0, 0, 0, 0]
  /-- 15 R428 RAS_SWCNT -/
  swcnt : (BitVec 32) := 0
  /-- 18 R480 repairs the Health Marshal has due: (kind, object, when) -/
  auxFaults : (List (Nat × Nat × BitVec 64)) := []
  deriving DecidableEq, Repr

/-- GEN_SEALSTAT.STATE codes 0-2 (15 R428). -/
inductive SealSt where
  | open
  | sealed
  | broken
  deriving DecidableEq, Repr

/-- the config seal (15 R420-R428). -/
structure Seal where
  /-- 15 R428 GEN_SEALSTAT.STATE -/
  st : SealSt := .open
  /-- 15 R428 BREAK -/
  brk : Bool := false
  /-- 15 R428 FIRST_BAD -/
  firstBad : (BitVec 8) := 0
  /-- 15 R428 COMMIT_FAIL -/
  commitFail : Bool := false
  /-- 15 R428 GEN_SEALREF -/
  ref : (BitVec 32) := 0
  /-- 15 R428 GEN_SEALCUR -/
  cur : (BitVec 32) := 0
  /-- 15 R428 GEN_SEALCNT -/
  cnt : (BitVec 32) := 0
  /-- 15 R423 stored entry CRCs -/
  crcs : List (BitVec 32) := []
  deriving DecidableEq, Repr

/-- a message on the mesh (05 R141). -/
structure MeshMsg where
  /-- 05 R141 class RSP -/
  rsp : Bool := false
  /-- 05 R155 requesting Plot (physical) -/
  plot : Nat := 0
  /-- 05 R155 issue number of the transfer it belongs to -/
  seq : Nat := 0
  /-- 05 R150 byte of the transfer, its rows back to back -/
  off : Nat := 0
  /-- 05 R141 a write with its data, or its acknowledgement -/
  write : Bool := false
  /-- 05 R145 device address -/
  addr : (BitVec 48) := 0
  /-- 05 R150 bytes -/
  len : Nat := 0
  /-- 05 R141 data of a write or of a read reply -/
  data : List (BitVec 8) := []
  /-- 05 R138 byte offsets of the poisoned words in data -/
  poison : List Nat := []
  /-- 05 R154 an append: kind 1 or 2, inbox, rows, row bytes -/
  append : (Option (Nat × Nat × Nat × Nat)) := none
  /-- 05 R156 error code of a reply -/
  err : (Option (BitVec 3)) := none
  deriving DecidableEq, Repr

/-- the device. -/
structure State where
  /-- commands waiting, first in first out (the block's queue) -/
  pending : (List Instr) := []
  /-- 02-05 physical Plots 0-271 -/
  plots : (Tbl Plot) := []
  /-- 06, 07 stacks 0-23 -/
  stks : (Tbl Stack) := []
  /-- 05 R146 region table -/
  regions : Regions := {}
  /-- 05 R141 messages in flight, oldest first -/
  mesh : List MeshMsg := []
  /-- 07 R205 commit controller -/
  commit : Commit := {}
  /-- 08 R220 timekeeper -/
  clock : Clock := {}
  /-- 08 R231 Starter -/
  starter : Starter := {}
  /-- 09 links and Canals 0-17 -/
  links : (Tbl Link) := []
  /-- 10, 11 router and discovery -/
  router : Router := {}
  /-- 12 Relay -/
  relay : Relay := {}
  /-- 14 host port, windows, Journal -/
  host : HostPort := {}
  /-- 16 boot core and Marshals -/
  boot : Boot := {}
  /-- 16, 17, 19 power and thermal -/
  power : Power := {}
  /-- 17 security block -/
  sec : Sec := {}
  /-- 18 reliability -/
  ras : Ras := {}
  /-- 15 config seal -/
  cfgSeal : Seal := {}
  /-- the MODEL's own counter of free values drawn (log 2); DESIGN CHOICE 0 -/
  free : Nat := 0
  deriving DecidableEq, Repr

/-- The device right after a cold reset (R11): every field at its default above. -/
def State.reset : State := {}

end Sys2Proof.Machine
end

