-- ==== Sys2Proof/Machine/Ops.lean ====
section
/-! DEFINITION. The named operations every meaning is built from: sparse tables, byte memories, bit fields, the event
classes and the Event Journal, MSI-X, and access to the parts of the state. -/

namespace Sys2Proof

/-- The entry at index k, or d where the table lists none. -/
def Tbl.get {α : Type} (t : Tbl α) (k : Nat) (d : α) : α :=
  match t.find? (fun e => e.1 == k) with
  | some e => e.2
  | none => d

/-- The entry at index k, if the table lists one. -/
def Tbl.get? {α : Type} (t : Tbl α) (k : Nat) : Option α :=
  (t.find? (fun e => e.1 == k)).map (·.2)

/-- Drop the entry at index k. -/
def Tbl.del {α : Type} (t : Tbl α) (k : Nat) : Tbl α := t.filter (fun e => e.1 != k)

/-- List v at index k, in rising order of indexes. -/
def Tbl.put {α : Type} (t : Tbl α) (k : Nat) (v : α) : Tbl α :=
  t.filter (fun e => e.1 < k) ++ (k, v) :: t.filter (fun e => k < e.1)

/-- Change the entry at index k, taking d for one not listed. -/
def Tbl.upd {α : Type} (t : Tbl α) (k : Nat) (d : α) (f : α → α) : Tbl α := t.put k (f (t.get k d))

/-- Apply f to every listed entry. -/
def Tbl.mapVals {α : Type} (t : Tbl α) (f : Nat → α → α) : Tbl α := t.map (fun e => (e.1, f e.1 e.2))

/-! ### Byte memories -/

/-- The byte at address a; an address not listed reads zero. -/
def Mem.read (m : Mem) (a : Nat) : Byte :=
  match m.find? (fun c => c.1 == a) with
  | some c => c.2
  | none => 0

/-- The cells of a run of bytes at a: those that are not zero. -/
def Mem.cells : Nat → List Byte → Mem
  | _, [] => []
  | a, b :: bs => if b = 0 then Mem.cells (a + 1) bs else (a, b) :: Mem.cells (a + 1) bs

/-- Write a run of bytes at a. -/
def Mem.write (m : Mem) (a : Nat) (bs : List Byte) : Mem :=
  m.filter (fun c => c.1 < a) ++ Mem.cells a bs ++ m.filter (fun c => a + bs.length ≤ c.1)

/-- The n bytes from address a. -/
def Mem.bytes (m : Mem) (a n : Nat) : List Byte :=
  let w := m.filter (fun c => a ≤ c.1 && c.1 < a + n)
  (List.range n).map (fun i => Mem.read w (a + i))

/-- The cells of [a, a + n), with addresses counted from a. -/
def Mem.slice (m : Mem) (a n : Nat) : Mem :=
  (m.filter (fun c => a ≤ c.1 && c.1 < a + n)).map (fun c => (c.1 - a, c.2))

/-- Put n bytes, given as the cells of a slice, at a. -/
def Mem.splice (m : Mem) (a n : Nat) (seg : Mem) : Mem :=
  m.filter (fun c => c.1 < a) ++ (seg.filter (fun c => c.1 < n)).map (fun c => (a + c.1, c.2))
    ++ m.filter (fun c => a + n ≤ c.1)

/-- The canonical form of a byte memory: addresses strictly rising and no listed byte zero. -/
def Mem.wf : Mem → Bool
  | [] => true
  | [c] => c.2 != 0
  | c :: d :: m => c.2 != 0 && decide (c.1 < d.1) && Mem.wf (d :: m)

/-! ### Bytes, bits and counters -/

/-- The little-endian value of a run of bytes (R3). -/
def leNat : List Byte → Nat
  | [] => 0
  | b :: bs => b.toNat + 256 * leNat bs

/-- The n little-endian bytes of a value. -/
def leBytes : Nat → Nat → List Byte
  | 0, _ => []
  | n + 1, v => BitVec.ofNat 8 v :: leBytes n (v / 256)

/-- The field of n bits from bit lo. -/
def field (v lo n : Nat) : Nat := v / 2 ^ lo % 2 ^ n

/-- Bit i. -/
def bitOf (v i : Nat) : Bool := v / 2 ^ i % 2 = 1

/-- The value of a bit. -/
def b2n (b : Bool) : Nat := if b then 1 else 0

/-- A field's bits put at lo. -/
def putField (lo v : Nat) : Nat := v * 2 ^ lo

/-- Read the n bytes at a as a little-endian number. -/
def Mem.le (m : Mem) (a n : Nat) : Nat := leNat (m.bytes a n)

/-- A counter that holds at its largest value. -/
def satAdd {w : Nat} (c : BitVec w) (n : Nat) : BitVec w :=
  if 2 ^ w - 1 ≤ c.toNat + n then BitVec.ofNat w (2 ^ w - 1) else BitVec.ofNat w (c.toNat + n)

/-- A counter that wraps. -/
def wrapAdd {w : Nat} (c : BitVec w) (n : Nat) : BitVec w := c + BitVec.ofNat w n

/-- Change element i of a list. -/
def listUpd {α : Type} (l : List α) (i : Nat) (f : α → α) : List α :=
  match l[i]? with
  | some x => l.set i (f x)
  | none => l

/-- The two's complement value of the n low bits. -/
def signed (n v : Nat) : Int := if v % 2 ^ n < 2 ^ (n - 1) then (v % 2 ^ n : Nat) else (v % 2 ^ n : Nat) - (2 ^ n : Nat)

/-- The element of a list at an index, and the rest. -/
def takeAt {α : Type} (l : List α) (i : Nat) : Option (α × List α) :=
  match l[i]? with
  | some x => some (x, l.eraseIdx i)
  | none => none

/-- The first element that p accepts, and the rest in order. -/
def takeFirst {α : Type} (p : α → Bool) : List α → Option (α × List α)
  | [] => none
  | x :: xs => if p x then some (x, xs) else
    match takeFirst p xs with
    | some (y, r) => some (y, x :: r)
    | none => none

end Sys2Proof

namespace Sys2Proof.Machine

/-- The answer of a step. -/
abbrev Out := Host.Outcome State Fault Refusal

/-- A step that takes effect only where its event can happen; elsewhere nothing changes (log 1). -/
def when (c : Bool) (t s : State) : Out := .next (if c then t else s)

/-- The core clock runs: PERST_N is released and the device is neither off, nor tripped, nor without a core reference (R11, R465,
R475, R498, R503). -/
def State.clocked (s : State) : Bool := !s.boot.perst && !s.power.off && !s.power.tripped && !s.power.clockLost

/-- What a unit does while its clock runs; without a clock nothing happens (log 1). -/
def State.live (s : State) (o : Out) : Out := if s.clocked then o else .next s

/-- The state of physical Plot p (R23, R489): what its fuses made it until a remap or a retirement. -/
def State.plotState (s : State) (p : Nat) : PState :=
  s.ras.plotSt.get p (if s.ras.spareFused.contains p then .spare else .enabled)

/-- The clocks of physical Plot p run: a spare or a retired Plot's are stopped (R23). -/
def State.plotOn (s : State) (p : Nat) : Bool := s.clocked && decide (p < 272) && s.plotState p == .enabled

/-- What a unit of Plot p does while the Plot's clocks run (R23, log 1). -/
def State.plotLive (s : State) (p : Nat) (o : Out) : Out := if s.plotOn p then o else .next s

/-! ### Free values -/

/-- Draw a free value (log 2). -/
def State.draw (s : State) : BitVec 64 × State := (Config.freeWord s.free, { s with free := s.free + 1 })

/-- n undefined bytes (log 2): each is the low byte of a free value of its own. -/
def State.drawBytes (s : State) (n : Nat) : List Byte × State :=
  ((List.range n).map (fun i => (Config.freeWord (s.free + i)).truncate 8), { s with free := s.free + n })

/-! ### Parts of the state -/

/-- Physical Plot p. -/
def State.plot (s : State) (p : Nat) : Plot := s.plots.get p {}
/-- Set physical Plot p. -/
def State.setPlot (s : State) (p : Nat) (x : Plot) : State := { s with plots := s.plots.put p x }
/-- Change physical Plot p. -/
def State.onPlot (s : State) (p : Nat) (f : Plot → Plot) : State := s.setPlot p (f (s.plot p))
/-- Stack k. -/
def State.stack (s : State) (k : Nat) : Stack := s.stks.get k {}
/-- Set stack k. -/
def State.setStack (s : State) (k : Nat) (x : Stack) : State := { s with stks := s.stks.put k x }
/-- Change stack k. -/
def State.onStack (s : State) (k : Nat) (f : Stack → Stack) : State := s.setStack k (f (s.stack k))
/-- Link l. -/
def State.link (s : State) (l : Nat) : Link := s.links.get l {}
/-- Set link l. -/
def State.setLink (s : State) (l : Nat) (x : Link) : State := { s with links := s.links.put l x }
/-- Change link l. -/
def State.onLink (s : State) (l : Nat) (f : Link → Link) : State := s.setLink l (f (s.link l))

/-- The BARs are decoded: not in D3hot (R380). -/
def State.barsOpen (s : State) : Bool := !s.host.d3hot

/-- What a register write through a BAR does: nothing without a clock, and nothing in D3hot (R380). -/
def State.busWrite (s : State) (o : Out) : Out := if s.clocked && s.barsOpen then o else .next s

/-! ### Staged words -/

/-- Change the staging buffers, by the key of their block space (R412): 0 identity, windows and Journal; 1 Stride Time; 16 + p Plot p;
512 + k stack k; 600 regions; 700 router; 702 Relay. -/
def State.onStage (s : State) (f : Tbl (Nat × BitVec 32) → Tbl (Nat × BitVec 32)) : State :=
  { s with host := { s.host with stage := f s.host.stage } }

/-- The lower word staged for the register at a. -/
def State.staged (s : State) (key a : Nat) : Option (BitVec 32) :=
  match s.host.stage.get? key with
  | some (b, v) => if b = a then some v else none
  | none => none

/-- A staged lower word of the register at a is discarded. -/
def dropStage (key a : Nat) (s : State) : State := if (s.staged key a).isSome then s.onStage (·.del key) else s

/-- Stride Time in whole ns (R220). -/
def State.now (s : State) : BitVec 64 := s.clock.ns

/-- The logical number of physical Plot p, if a logical Plot maps to it (R121, R122). -/
def State.lplot? (s : State) (p : Nat) : Option Nat :=
  (List.range 256).find? (fun l => !s.ras.unmapped.contains l && (s.ras.plotMap.get l (BitVec.ofNat 9 l)).toNat == p)

/-- LPLOT as the records carry it: 0 where no logical Plot maps to p. -/
def State.lplotW (s : State) (p : Nat) : BitVec 32 := BitVec.ofNat 32 ((s.lplot? p).getD 0)

/-- The physical Plot of logical Plot l, if l is mapped (R121). -/
def State.phys? (s : State) (l : Nat) : Option Nat :=
  if l < 256 && !s.ras.unmapped.contains l then some (s.ras.plotMap.get l (BitVec.ofNat 9 l)).toNat else none

/-- The logical Plots of a Plot set, in rising order. -/
def psetList (b : BitVec 256) : List Nat := (List.range 256).filter (fun l => b.getLsbD l)

/-- The physical Plots of a Plot set, each after its logical number, in rising order of those; an
unmapped one has none (R121). -/
def State.psetPhys (s : State) (b : BitVec 256) : List (Nat × Nat) :=
  (psetList b).filterMap (fun l => (s.phys? l).map (l, ·))

/-- A Plot set from the logical Plots in it. -/
def psetOf (l : List Nat) : BitVec 256 := l.foldl (fun b i => b ||| (1 <<< i)) 0

/-! ### MSI-X, the Journal and the event classes -/

/-- Signal MSI-X vector v (R388, R402): a masked vector, and any in D3hot, stays pending in the bit array (log 6). -/
def signalMsix (v : Nat) (s : State) : State :=
  if s.host.d3hot || bitOf (s.host.msixTable.read (16 * v + 12)).toNat 0 then
    { s with host := { s.host with msixPba := s.host.msixPba ||| (1#64 <<< v) } }
  else { s with host := { s.host with msixSent := v :: s.host.msixSent } }

/-- Deliver the pending vectors that can now be signalled (R405, log 6). -/
def deliverMsix (s : State) : State :=
  (List.range 64).foldl (fun s v =>
    if s.host.msixPba.getLsbD v then signalMsix v { s with host := { s.host with msixPba := s.host.msixPba &&& ~~~(1#64 <<< v) } }
    else s) s

/-- Post a record (R399, R401): it takes the next JSEQ, and the device keeps the last 65,536. -/
def post (type cls index : Nat) (dseq : BitVec 32) (time : BitVec 64) (payload : List (BitVec 32)) (s : State) :
    State :=
  let r : Rec := { jseq := s.host.jhead, time, type := BitVec.ofNat 16 type, cls := BitVec.ofNat 3 cls,
                   index := BitVec.ofNat 16 index, dseq, payload }
  { s with host := { s.host with recs := (r :: s.host.recs).take 65536, jhead := s.host.jhead + 1 } }

/-- No command caused the record (R399). -/
def noDseq : BitVec 32 := 0xFFFFFFFF

/-- Count an event of class c, 1 to 5, in RAS_CLASSCNT (R473). -/
def countClass (c : Nat) (s : State) : State :=
  if c = 0 then s else
  { s with ras := { s.ras with classCnt := listUpd s.ras.classCnt (c - 1) (· + 1) } }

/-- Latch a cause of a bad verdict in SLC_CCAUSE (R206): after T_v it counts toward the next step. -/
def latchCause (bit : Nat) (s : State) : State :=
  if s.commit.st == .verdict || s.commit.st == .pending then
    { s with commit := { s.commit with nextCause := s.commit.nextCause ||| (1 <<< bit) } }
  else { s with commit := { s.commit with cause := s.commit.cause ||| (1 <<< bit) } }

/-- What STEP_FATAL does beside its record (R474): cause FATAL and MSI-X vector 3. -/
def stepFatalEffect (s : State) : State := signalMsix 3 (latchCause 0 s)

/-- Post the record of an event of a class and give the class its effect (R402, R473, R474). DEVICE_FATAL has the
rest of its effects in `deviceFatal`. -/
def event (type cls index : Nat) (payload : List (BitVec 32)) (dseq : BitVec 32 := noDseq) (s : State) : State :=
  let s := countClass cls (post type cls index dseq s.now payload s)
  if cls = 4 ∨ cls = 5 then stepFatalEffect s else s

/-- A record of no class. -/
def note (type index : Nat) (payload : List (BitVec 32)) (dseq : BitVec 32 := noDseq) (s : State) : State :=
  post type 0 index dseq s.now payload s

/-- A correction (R476): counted in its class and in the running count of its source, with no record. Sources: 0
Reservoir, 1 Basin, 2 HBM, 3 Relay store, 4 tag store, 5 Marshal SRAM. -/
def corrected (src : Nat) (s : State) : State :=
  let s := countClass 1 s
  { s with ras := { s.ras with ceNow := listUpd s.ras.ceNow src (· + 1) } }

/-- The low word of a 64-bit value. -/
def lo32 (v : BitVec 64) : BitVec 32 := v.truncate 32
/-- The high word of a 64-bit value. -/
def hi32 (v : BitVec 64) : BitVec 32 := (v >>> 32).truncate 32
/-- A number as a 32-bit word. -/
def w32 (n : Nat) : BitVec 32 := BitVec.ofNat 32 n

/-- A MEM_UE record (R478). -/
def memUe (source index addr : Nat) (seg arr : Nat) (s : State) : State :=
  event 0x81 (if source = 4 ∨ source = 9 then 2 else 4) index
    [w32 source, w32 addr, w32 (addr / 2 ^ 32), w32 seg, w32 arr] noDseq s

/-- Faults of a unit counted within 24 h, with the one just found: the times kept are those of the last 24 h. -/
def faultCount (n : Nat) : BitVec 32 := w32 n

end Sys2Proof.Machine
end

