-- ==== Sys2Proof/Machine/Crypto.lean ====
section
/-! DEFINITION. SHA-512 and pure Ed25519 verification (R447), as FIPS 180-4 and RFC 8032 define them, over bytes and natural
numbers. -/

namespace Sys2Proof

/-! ### SHA-512 -/

/-- The initial hash value. -/
def sha512H0 : List Nat :=
  [0x6A09E667F3BCC908, 0xBB67AE8584CAA73B, 0x3C6EF372FE94F82B, 0xA54FF53A5F1D36F1,
    0x510E527FADE682D1, 0x9B05688C2B3E6C1F, 0x1F83D9ABFB41BD6B, 0x5BE0CD19137E2179]

/-- Round constants 0 to 19. -/
def sha512K0 : List Nat :=
  [0x428A2F98D728AE22, 0x7137449123EF65CD, 0xB5C0FBCFEC4D3B2F, 0xE9B5DBA58189DBBC,
    0x3956C25BF348B538, 0x59F111F1B605D019, 0x923F82A4AF194F9B, 0xAB1C5ED5DA6D8118,
    0xD807AA98A3030242, 0x12835B0145706FBE, 0x243185BE4EE4B28C, 0x550C7DC3D5FFB4E2,
    0x72BE5D74F27B896F, 0x80DEB1FE3B1696B1, 0x9BDC06A725C71235, 0xC19BF174CF692694,
    0xE49B69C19EF14AD2, 0xEFBE4786384F25E3, 0x0FC19DC68B8CD5B5, 0x240CA1CC77AC9C65]

/-- Round constants 20 to 39. -/
def sha512K1 : List Nat :=
  [0x2DE92C6F592B0275, 0x4A7484AA6EA6E483, 0x5CB0A9DCBD41FBD4, 0x76F988DA831153B5,
    0x983E5152EE66DFAB, 0xA831C66D2DB43210, 0xB00327C898FB213F, 0xBF597FC7BEEF0EE4,
    0xC6E00BF33DA88FC2, 0xD5A79147930AA725, 0x06CA6351E003826F, 0x142929670A0E6E70,
    0x27B70A8546D22FFC, 0x2E1B21385C26C926, 0x4D2C6DFC5AC42AED, 0x53380D139D95B3DF,
    0x650A73548BAF63DE, 0x766A0ABB3C77B2A8, 0x81C2C92E47EDAEE6, 0x92722C851482353B]

/-- Round constants 40 to 59. -/
def sha512K2 : List Nat :=
  [0xA2BFE8A14CF10364, 0xA81A664BBC423001, 0xC24B8B70D0F89791, 0xC76C51A30654BE30,
    0xD192E819D6EF5218, 0xD69906245565A910, 0xF40E35855771202A, 0x106AA07032BBD1B8,
    0x19A4C116B8D2D0C8, 0x1E376C085141AB53, 0x2748774CDF8EEB99, 0x34B0BCB5E19B48A8,
    0x391C0CB3C5C95A63, 0x4ED8AA4AE3418ACB, 0x5B9CCA4F7763E373, 0x682E6FF3D6B2B8A3,
    0x748F82EE5DEFB2FC, 0x78A5636F43172F60, 0x84C87814A1F0AB72, 0x8CC702081A6439EC]

/-- Round constants 60 to 79. -/
def sha512K3 : List Nat :=
  [0x90BEFFFA23631E28, 0xA4506CEBDE82BDE9, 0xBEF9A3F7B2C67915, 0xC67178F2E372532B,
    0xCA273ECEEA26619C, 0xD186B8C721C0C207, 0xEADA7DD6CDE0EB1E, 0xF57D4F7FEE6ED178,
    0x06F067AA72176FBA, 0x0A637DC5A2C898A6, 0x113F9804BEF90DAE, 0x1B710B35131C471B,
    0x28DB77F523047D84, 0x32CAAB7B40C72493, 0x3C9EBE0A15C9BEBC, 0x431D67C49C100D4C,
    0x4CC5D4BECB3E42B6, 0x597F299CFC657E2A, 0x5FCB6FAB3AD6FAEC, 0x6C44198C4A475817]

/-- The eighty round constants. -/
def sha512K : List Nat := sha512K0 ++ sha512K1 ++ sha512K2 ++ sha512K3

/-- A word rotated right by n. -/
def ror64 (n x : Nat) : Nat := x / 2 ^ n + x % 2 ^ n * 2 ^ (64 - n)

/-- Three words combined bit by bit. -/
def xor3 (a b c : Nat) : Nat := Nat.xor a (Nat.xor b c)

/-- The big-endian value of a run of bytes. -/
def beNat (bs : List Byte) : Nat := leNat bs.reverse

/-- The n big-endian bytes of a value. -/
def beBytes (n v : Nat) : List Byte := (leBytes n v).reverse

/-- The message schedule, newest word first: n more words. -/
def sha512Sched : Nat → List Nat → List Nat
  | 0, w => w
  | n + 1, w =>
    let a := w.getD 1 0
    let b := w.getD 14 0
    let s1 := xor3 (ror64 19 a) (ror64 61 a) (a / 2 ^ 6)
    let s0 := xor3 (ror64 1 b) (ror64 8 b) (b / 2 ^ 7)
    sha512Sched n ((s1 + w.getD 6 0 + s0 + w.getD 15 0) % 2 ^ 64 :: w)

/-- The eight working variables after one round. -/
def sha512Round (v : List Nat) (k w : Nat) : List Nat :=
  match v with
  | [a, b, c, d, e, f, g, h] =>
    let ch := Nat.xor (Nat.land e f) (Nat.land (2 ^ 64 - 1 - e) g)
    let t1 := h + xor3 (ror64 14 e) (ror64 18 e) (ror64 41 e) + ch + k + w
    let mj := xor3 (Nat.land a b) (Nat.land a c) (Nat.land b c)
    let t2 := xor3 (ror64 28 a) (ror64 34 a) (ror64 39 a) + mj
    [(t1 + t2) % 2 ^ 64, a, b, c, (d + t1) % 2 ^ 64, e, f, g]
  | _ => v

/-- The hash value after one block of 128 bytes. -/
def sha512Block (h : List Nat) (ws : List Nat) : List Nat :=
  let sch := (sha512Sched 64 ws.reverse).reverse
  let v := (sha512K.zip sch).foldl (fun v e => sha512Round v e.1 e.2) h
  (h.zip v).map (fun e => (e.1 + e.2) % 2 ^ 64)

/-- Cut a list into runs of n; a last run may be shorter. -/
def runsOf {α : Type} (n : Nat) : Nat → List α → List (List α)
  | 0, _ => []
  | k + 1, l => if l.isEmpty then [] else l.take n :: runsOf n k (l.drop n)

/-- SHA-512 of a message. -/
def sha512 (m : List Byte) : List Byte :=
  let z := (239 - m.length % 128) % 128
  let padded := m ++ (0x80 : Byte) :: List.replicate z 0 ++ beBytes 16 (8 * m.length)
  let ws := (runsOf 8 padded.length padded).map beNat
  ((runsOf 16 ws.length ws).foldl sha512Block sha512H0).flatMap (beBytes 8)

/-! ### Ed25519 -/

/-- The field's prime. -/
def edP : Nat := 2 ^ 255 - 19

/-- The order of the base point. -/
def edL : Nat := 2 ^ 252 + 27742317777372353535851937790883648493

/-- The curve constant d. -/
def edD : Nat := 37095705934669439343138083508754565189542113879843219016388785533085940283555

/-- a to the power e, e below 2 to the fuel. -/
def powMod (m : Nat) : Nat → Nat → Nat → Nat
  | 0, _, _ => 1
  | n + 1, a, e => let r := powMod m n (a * a % m) (e / 2); if e % 2 = 1 then r * a % m else r

/-- A point in extended coordinates. -/
structure EdPt where
  /-- X -/
  x : Nat
  /-- Y -/
  y : Nat
  /-- Z -/
  z : Nat
  /-- T -/
  t : Nat
  deriving DecidableEq, Repr

/-- Subtraction in the field. -/
def edSub (a b : Nat) : Nat := (a + edP - b % edP) % edP

/-- The sum of two points. -/
def EdPt.add (p q : EdPt) : EdPt :=
  let a := edSub p.y p.x * edSub q.y q.x % edP
  let b := (p.y + p.x) * (q.y + q.x) % edP
  let c := 2 * p.t * q.t * edD % edP
  let d := 2 * p.z * q.z % edP
  let e := edSub b a
  let f := edSub d c
  let g := (d + c) % edP
  let h := (b + a) % edP
  { x := e * f % edP, y := g * h % edP, z := f * g % edP, t := e * h % edP }

/-- The neutral point. -/
def edZero : EdPt := { x := 0, y := 1, z := 1, t := 0 }

/-- The multiple of a point by a number below 2 to the fuel. -/
def EdPt.mul : Nat → Nat → EdPt → EdPt
  | 0, _, _ => edZero
  | n + 1, k, p => let r := EdPt.mul n (k / 2) (p.add p); if k % 2 = 1 then r.add p else r

/-- Two points are the same. -/
def EdPt.same (p q : EdPt) : Bool := p.x * q.z % edP = q.x * p.z % edP && p.y * q.z % edP = q.y * p.z % edP

/-- The base point. -/
def edB : EdPt :=
  let x := 15112221349535400772501151409588531511454012693041857206046113283949847762202
  let y := 46316835694926478169428394003475163141307993866256225615783033603165251855960
  { x, y, z := 1, t := x * y % edP }

/-- The point that 32 bytes encode, if they encode one. -/
def edDecode (bs : List Byte) : Option EdPt :=
  let n := leNat bs
  let y := n % 2 ^ 255
  let sign := n / 2 ^ 255
  if edP ≤ y then none
  else
    let u := edSub (y * y) 1
    let v := (edD * y % edP * y + 1) % edP
    let x2 := u * powMod edP 256 v (edP - 2) % edP
    let c := powMod edP 256 x2 ((edP + 3) / 8)
    let x := if c * c % edP = x2 then c else c * powMod edP 256 2 ((edP - 1) / 4) % edP
    if x * x % edP != x2 then none
    else if x = 0 && sign = 1 then none
    else
      let x := if x % 2 = sign then x else edP - x
      some { x, y, z := 1, t := x * y % edP }

/-- A signature of 64 bytes verifies over a message under a public key of 32 bytes (R447, RFC 8032 5.1.7). -/
def edVerify (pub msg sig : List Byte) : Bool :=
  match edDecode pub, edDecode (sig.take 32) with
  | some a, some r =>
    let s := leNat (sig.drop 32)
    let k := leNat (sha512 (sig.take 32 ++ pub ++ msg)) % edL
    s < edL && EdPt.same (EdPt.mul 4 8 (EdPt.mul 256 s edB)) (EdPt.mul 4 8 (r.add (EdPt.mul 256 k a)))
  | _, _ => false

/-- The 32 bytes of a point. -/
def EdPt.encode (p : EdPt) : List Byte :=
  let zi := powMod edP 256 p.z (edP - 2)
  leBytes 32 (p.y * zi % edP + p.x * zi % edP % 2 * 2 ^ 255)

/-- The secret scalar of a seed (RFC 8032 5.1.5). -/
def edScalar (seed : List Byte) : Nat :=
  let n := leNat ((sha512 seed).take 32)
  2 ^ 254 + n % 2 ^ 254 / 8 * 8

/-- The public key of a seed. -/
def edPublic (seed : List Byte) : List Byte := (EdPt.mul 256 (edScalar seed) edB).encode

/-- The signature of a message under a seed (RFC 8032 5.1.6). -/
def edSign (seed msg : List Byte) : List Byte :=
  let a := edScalar seed
  let r := leNat (sha512 ((sha512 seed).drop 32 ++ msg)) % edL
  let rb := (EdPt.mul 256 r edB).encode
  let k := leNat (sha512 (rb ++ edPublic seed ++ msg)) % edL
  rb ++ leBytes 32 ((r + k * a) % edL)

end Sys2Proof
end

