-- ==== Sys2Proof/Machine/Float.lean ====
section
/-! DEFINITION. The number formats and the arithmetic on them (R53 to R67, R72, R77): exact dyadic values, rounded once,
to nearest with ties to even. -/

namespace Sys2Proof.Machine

/-- The shape of a binary floating-point format (R54): exponent width, mantissa width, bias. -/
structure FpFmt where
  /-- exponent bits -/
  ew : Nat
  /-- mantissa bits -/
  mw : Nat
  /-- exponent bias -/
  bias : Nat
  /-- 0: infinities and NaNs (IEEE); 1: E4M3, NaN only; 2: E2M1, neither -/
  special : Nat
  deriving DecidableEq, Repr

/-- FP32 (R54). -/
def fp32 : FpFmt := ⟨8, 23, 127, 0⟩
/-- BF16 (R54). -/
def bf16 : FpFmt := ⟨8, 7, 127, 0⟩
/-- FP16 (R54). -/
def fp16 : FpFmt := ⟨5, 10, 15, 0⟩
/-- FP8 E4M3 (R54). -/
def e4m3 : FpFmt := ⟨4, 3, 7, 1⟩
/-- FP8 E5M2 (R54). -/
def e5m2 : FpFmt := ⟨5, 2, 15, 0⟩
/-- FP4 E2M1 (R54). -/
def e2m1 : FpFmt := ⟨2, 1, 1, 2⟩

/-- A value: a NaN, an infinity, or (−1)^neg · m · 2^e. -/
inductive Fp where
  | nan
  | inf (neg : Bool)
  | fin (neg : Bool) (m : Nat) (e : Int)
  deriving DecidableEq, Repr

/-- The code of the canonical NaN of a format (R55). -/
def FpFmt.nanCode (f : FpFmt) : Nat :=
  if f.special = 1 then 0x7F else (2 ^ f.ew - 1) * 2 ^ f.mw + 2 ^ (f.mw - 1)

/-- The code of the largest finite value of a format (R54). -/
def FpFmt.maxCode (f : FpFmt) : Nat :=
  if f.special = 0 then (2 ^ f.ew - 1) * 2 ^ f.mw - 1
  else if f.special = 1 then 2 ^ (f.ew + f.mw) - 2 else 2 ^ (f.ew + f.mw) - 1

/-- The code of plus infinity of a format that has one. -/
def FpFmt.infCode (f : FpFmt) : Nat := (2 ^ f.ew - 1) * 2 ^ f.mw

/-- A sign bit at the format's place. -/
def FpFmt.sign (f : FpFmt) (neg : Bool) : Nat := if neg then 2 ^ (f.ew + f.mw) else 0

/-- Decode a code of a format (R54). -/
def FpFmt.decode (f : FpFmt) (c : Nat) : Fp :=
  let neg := bitOf c (f.ew + f.mw)
  let ex := field c f.mw f.ew
  let man := field c 0 f.mw
  if f.special = 0 ∧ ex = 2 ^ f.ew - 1 then (if man = 0 then .inf neg else .nan)
  else if f.special = 1 ∧ ex = 2 ^ f.ew - 1 ∧ man = 2 ^ f.mw - 1 then .nan
  else if ex = 0 then .fin neg man (1 - (f.bias : Int) - f.mw)
  else .fin neg (man + 2 ^ f.mw) ((ex : Int) - f.bias - f.mw)

/-- The magnitude code of m · 2^e, m not 0, rounded to nearest, ties to even, with an unbounded exponent above: the
code runs past the format's largest when the value overflows. `sticky`: the value lies a little above m · 2^e. -/
def FpFmt.roundMag (f : FpFmt) (m : Nat) (e : Int) (sticky : Bool) : Nat :=
  let emin : Int := 1 - (f.bias : Int) - f.mw
  let q : Int := max (e + (Nat.log2 m : Int) - f.mw) emin
  let r : Nat :=
    if q ≤ e then m * 2 ^ (e - q).toNat
    else
      let sh := (q - e).toNat
      let d := m / 2 ^ sh
      let rem := m % 2 ^ sh
      let half := 2 ^ (sh - 1)
      if rem > half ∨ (rem = half ∧ (sticky ∨ d % 2 = 1)) then d + 1 else d
  r + (q - emin).toNat * 2 ^ f.mw

/-- A result: its code, the cause of the NaN it produced (0 none, R87), and how many clamps it counted. -/
structure Num where
  /-- the code -/
  v : Nat
  /-- cause of a produced NaN; 0 none -/
  cause : Nat := 0
  /-- SAT_CLAMP counts -/
  sat : Nat := 0
  deriving DecidableEq, Repr

/-- Round a value into a format that has infinities, or E4M3 or E2M1 (R61, R65, R66). `ovf` is the overflow mode. -/
def FpFmt.encode (f : FpFmt) (ovf : OvfMode) (x : Fp) (sticky : Bool := false) : Num :=
  match x with
  | .nan => { v := f.nanCode }
  | .inf neg =>
    if f.special = 0 then { v := f.sign neg + f.infCode }
    else if ovf == .sat then { v := f.sign neg + f.maxCode, sat := 1 }
    else { v := f.nanCode, cause := 4 }
  | .fin neg 0 _ => { v := f.sign neg }
  | .fin neg m e =>
    let c := f.roundMag m e sticky
    if c ≤ f.maxCode then { v := f.sign neg + c }
    else if f.special = 2 then { v := f.sign neg + f.maxCode }
    else if f.special = 1 ∨ ovf == .sat then { v := f.sign neg + f.maxCode, sat := 1 }
    else { v := f.sign neg + f.infCode }

/-- Exact product of two values; cause INVALID_MUL for 0 × ∞ (R63). -/
def Fp.mul (a b : Fp) : Fp × Nat :=
  match a, b with
  | .nan, _ => (.nan, 0)
  | _, .nan => (.nan, 0)
  | .inf s, .inf t => (.inf (s != t), 0)
  | .inf s, .fin t m _ => if m = 0 then (.nan, 1) else (.inf (s != t), 0)
  | .fin s m _, .inf t => if m = 0 then (.nan, 1) else (.inf (s != t), 0)
  | .fin s m e, .fin t n d => (.fin (s != t) (m * n) (e + d), 0)

/-- Exact sum of two values; cause INF_ADD for infinities of opposite sign (R61, R63). -/
def Fp.add (a b : Fp) : Fp × Nat :=
  match a, b with
  | .nan, _ => (.nan, 0)
  | _, .nan => (.nan, 0)
  | .inf s, .inf t => if s = t then (.inf s, 0) else (.nan, 3)
  | .inf s, .fin .. => (.inf s, 0)
  | .fin .., .inf t => (.inf t, 0)
  | .fin s m e, .fin t n d =>
    let q := min e d
    let x : Nat := m * 2 ^ (e - q).toNat
    let y : Nat := n * 2 ^ (d - q).toNat
    if s = t then (.fin s (x + y) q, 0)
    else if x = y then (.fin false 0 q, 0)
    else if y < x then (.fin s (x - y) q, 0)
    else (.fin t (y - x) q, 0)

/-- The negated value. -/
def Fp.neg : Fp → Fp
  | .nan => .nan
  | .inf s => .inf (!s)
  | .fin s m e => .fin (!s) m e

/-- True for a NaN. -/
def Fp.isNan : Fp → Bool
  | .nan => true
  | _ => false

/-- Decode an FP32 word. -/
def toFp (x : BitVec 32) : Fp := fp32.decode x.toNat

/-- True for an FP32 NaN (R54). -/
def isNan32 (x : BitVec 32) : Bool := field x.toNat 23 8 = 255 && field x.toNat 0 23 != 0

/-- The canonical FP32 NaN (R55). -/
def qnan : BitVec 32 := 0x7FC00000

/-- An FP32 result with its cause and clamps. -/
structure FR where
  /-- the FP32 word -/
  v : BitVec 32
  /-- cause of a produced NaN; 0 none -/
  cause : Nat := 0
  /-- SAT_CLAMP counts -/
  sat : Nat := 0
  deriving DecidableEq, Repr

/-- Round a value with the cause found on the way to FP32. -/
def toFR (ovf : OvfMode) (x : Fp × Nat) (sticky : Bool := false) : FR :=
  let r := fp32.encode ovf x.1 sticky
  { v := BitVec.ofNat 32 r.v, cause := x.2, sat := r.sat }

/-- FP32 addition (R61, R63, R65). -/
def fadd (ovf : OvfMode) (a b : BitVec 32) : FR := toFR ovf ((toFp a).add (toFp b))
/-- FP32 subtraction. -/
def fsub (ovf : OvfMode) (a b : BitVec 32) : FR := toFR ovf ((toFp a).add (toFp b).neg)
/-- FP32 multiplication (R61, R63, R65). -/
def fmul (ovf : OvfMode) (a b : BitVec 32) : FR := toFR ovf ((toFp a).mul (toFp b))

/-- An exact comparison of finite or infinite values: −1, 0 or 1. -/
def Fp.cmp (a b : Fp) : Int :=
  match a.add b.neg with
  | (.nan, _) => match a, b with
    | .inf s, .inf t => if s = t then 0 else if s then -1 else 1
    | _, _ => 0
  | (.inf s, _) => if s then -1 else 1
  | (.fin s m _, _) => if m = 0 then 0 else if s then -1 else 1

/-- max(A, B) (R117): a NaN operand gives NaN; zeros of both signs give +0. -/
def fmax (a b : BitVec 32) : BitVec 32 :=
  if isNan32 a || isNan32 b then qnan
  else match (toFp a).cmp (toFp b) with
    | 0 => if a = b then a else 0
    | .ofNat _ => a
    | .negSucc _ => b

/-- Bits kept by the divisions, roots and series below; far past where FP32 rounding can be in doubt. -/
def fracBits : Nat := 400

/-- FP32 division, correctly rounded (R61): 0/0 and ∞/∞ give NaN, x/0 an infinity. -/
def fdiv (ovf : OvfMode) (a b : BitVec 32) : FR :=
  match toFp a, toFp b with
  | .nan, _ => { v := qnan }
  | _, .nan => { v := qnan }
  | .inf _, .inf _ => { v := qnan, cause := 1 }
  | .inf s, .fin t _ _ => toFR ovf (.inf (s != t), 0)
  | .fin s _ _, .inf t => toFR ovf (.fin (s != t) 0 0, 0)
  | .fin s m e, .fin t n d =>
    if n = 0 then
      if m = 0 then { v := qnan, cause := 1 } else toFR ovf (.inf (s != t), 0)
    else if m = 0 then toFR ovf (.fin (s != t) 0 0, 0)
    else
      let x := m * 2 ^ fracBits
      toFR ovf (.fin (s != t) (x / n) (e - d - fracBits), 0) (x % n != 0)

/-- The integer square root, found bit by bit from bit i downward. -/
def isqrtFrom (n : Nat) : Nat → Nat → Nat
  | 0, r => if (r + 1) * (r + 1) ≤ n then r + 1 else r
  | i + 1, r =>
    let c := r + 2 ^ (i + 1)
    isqrtFrom n i (if c * c ≤ n then c else r)

/-- The integer square root. -/
def isqrt (n : Nat) : Nat := isqrtFrom n (Nat.log2 n / 2 + 1) 0

/-- FP32 square root, correctly rounded (R61); a value below 0 gives NaN. -/
def fsqrt (ovf : OvfMode) (a : BitVec 32) : FR :=
  match toFp a with
  | .nan => { v := qnan }
  | .inf s => if s then { v := qnan, cause := 5 } else { v := a }
  | .fin s m e =>
    if m = 0 then { v := a } else if s then { v := qnan, cause := 5 }
    else
      let odd := e % 2 = 1
      let m' := (if odd then 2 * m else m) * 2 ^ fracBits
      let e' := (if odd then e - 1 else e) - fracBits
      let r := isqrt m'
      toFR ovf (.fin false r (e' / 2), 0) (r * r != m')

/-- 1/x (R77). -/
def frcp (ovf : OvfMode) (a : BitVec 32) : FR :=
  match toFp a with
  | .nan => { v := qnan }
  | .inf s => { v := BitVec.ofNat 32 (fp32.sign s) }
  | .fin s m e =>
    if m = 0 then
      if ovf == .sat then { v := BitVec.ofNat 32 (fp32.sign s + fp32.maxCode), sat := 1 }
      else { v := BitVec.ofNat 32 (fp32.sign s + fp32.infCode) }
    else
      let x := 2 ^ fracBits
      toFR ovf (.fin s (x / m) (-e - fracBits), 0) (x % m != 0)

/-- 1/√x (R77). -/
def frsqrt (ovf : OvfMode) (a : BitVec 32) : FR :=
  match toFp a with
  | .nan => { v := qnan }
  | .inf s => if s then { v := qnan, cause := 5 } else { v := 0 }
  | .fin s m e =>
    if m = 0 then
      if ovf == .sat then { v := BitVec.ofNat 32 (fp32.sign s + fp32.maxCode), sat := 1 }
      else { v := BitVec.ofNat 32 (fp32.sign s + fp32.infCode) }
    else if s then { v := qnan, cause := 5 }
    else
      let odd := e % 2 = 1
      let m' := if odd then 2 * m else m
      let e' := if odd then e - 1 else e
      let q := 2 ^ (2 * fracBits)
      let r := isqrt (q / m')
      toFR ovf (.fin false r (-(e' / 2) - fracBits), 0) (r * r * m' != q)

/-- ln 2 in units of 2^-400, rounded down. -/
def ln2Fix : Nat := 1789879222497203190815761498240779176894896805856420935579692301363062920687047601279850318367644315849030039181347319086

/-- Terms of the exponential series: the sum of y^k / k! for k = from, from + 1, … in units of 2^-400. -/
def expSeries (y : Nat) : Nat → Nat → Nat → Nat
  | 0, _, _ => 0
  | n + 1, k, t => t + expSeries y n (k + 1) (t * y / 2 ^ fracBits / k)

/-- exp2(x), correctly rounded (R77): the series is carried to 400 bits, where no FP32 argument leaves the rounding in
doubt (DEDUCED, log 10). -/
def fexp2 (ovf : OvfMode) (a : BitVec 32) : FR :=
  match toFp a with
  | .nan => { v := qnan }
  | .inf s => { v := BitVec.ofNat 32 (if s then 0 else fp32.infCode) }
  | .fin s m e =>
    if m = 0 then { v := 0x3F800000 }
    else if 10 ≤ e + Nat.log2 m then
      -- beyond ±1,024: overflow or zero
      if s then { v := 0 } else toFR ovf (.fin false 1 1024, 0)
    else
      -- x in units of 2^-400; every FP32 magnitude below 1,024 is a multiple of 2^-149
      let mag : Nat := m * 2 ^ (e + fracBits).toNat
      let x : Int := if s then -(mag : Int) else mag
      let n : Int := x / (2 ^ fracBits : Nat)
      let fr : Nat := (x % (2 ^ fracBits : Nat)).toNat
      if fr = 0 then toFR ovf (.fin false 1 n, 0)
      else
        let y := fr * ln2Fix / 2 ^ fracBits
        toFR ovf (.fin false (expSeries y 90 1 (2 ^ fracBits)) (n - fracBits), 0) true

/-- Terms of the series of atanh: the sum of z^k / k for odd k from `k`, in units of 2^-400; p is z^k. -/
def atanhSeries (z2 : Nat) : Nat → Nat → Nat → Nat
  | 0, _, _ => 0
  | n + 1, k, p => p / k + atanhSeries z2 n (k + 2) (p * z2 / 2 ^ fracBits)

/-- log2(x), correctly rounded (R77), carried to 400 bits (DEDUCED, log 10). -/
def flog2 (ovf : OvfMode) (a : BitVec 32) : FR :=
  match toFp a with
  | .nan => { v := qnan }
  | .inf s => if s then { v := qnan, cause := 5 } else { v := a }
  | .fin s m e =>
    if m = 0 then { v := BitVec.ofNat 32 (fp32.sign true + fp32.infCode) }
    else if s then { v := qnan, cause := 5 }
    else
      let lg := Nat.log2 m
      let n : Int := e + lg
      let one := 2 ^ fracBits
      let r := m * 2 ^ fracBits / 2 ^ lg          -- in [1, 2)
      let z := (r - one) * one / (r + one)
      let l := 2 * atanhSeries (z * z / one) 140 1 z
      let v : Int := n * (one : Nat) + (l * one / ln2Fix : Nat)
      if v = 0 then { v := 0 } else
      toFR ovf (.fin (v < 0) v.natAbs (-(fracBits : Int)), 0) (r != one)

/-! ### Conversions -/

/-- Round an exact value to an integer, ties to even (R61). -/
def Fp.toInt (m : Nat) (e : Int) : Nat :=
  if 0 ≤ e then m * 2 ^ e.toNat
  else
    let sh := (-e).toNat
    let d := m / 2 ^ sh
    let rem := m % 2 ^ sh
    let half := 2 ^ (sh - 1)
    if rem > half ∨ (rem = half ∧ d % 2 = 1) then d + 1 else d

/-- Convert into a two's complement integer of n bits (R65, R66): saturated and counted; a NaN gives 0. -/
def toIntFmt (n : Nat) (x : Fp) : Num :=
  let hi := 2 ^ (n - 1) - 1
  match x with
  | .nan => { v := 0, cause := 2 }
  | .inf s => { v := if s then 2 ^ (n - 1) else hi, sat := 1 }
  | .fin s m e =>
    let k := Fp.toInt m e
    if s then
      if k ≤ 2 ^ (n - 1) then { v := (2 ^ n - k) % 2 ^ n } else { v := 2 ^ (n - 1), sat := 1 }
    else if k ≤ hi then { v := k } else { v := hi, sat := 1 }

/-- An integer as an exact value. -/
def Fp.ofInt (i : Int) : Fp := .fin (i < 0) i.natAbs 0

/-- The bits of an element of a format code (R53); a pair element is one BF16. -/
def fmtBits (code : Nat) : Nat :=
  match code with
  | 0 => 16 | 1 => 16 | 2 => 8 | 3 => 8 | 4 => 4 | 5 => 8 | 6 => 4 | 7 => 32 | 8 => 32 | _ => 16

/-- The floating-point shape of a format code that has one; MXFP4 elements are E2M1. -/
def fmtFp (code : Nat) : Option FpFmt :=
  match code with
  | 0 => some bf16 | 1 => some fp16 | 2 => some e4m3 | 3 => some e5m2 | 4 => some e2m1 | 7 => some fp32 | 9 => some bf16
  | _ => none

/-- Decode an element of a format code (R54, R57); an MXFP4 element without its scale. -/
def decodeElem (code v : Nat) : Fp :=
  match fmtFp code with
  | some f => f.decode v
  | none => Fp.ofInt (signed (fmtBits code) v)

/-- Convert an FP32 word into a format code other than MXFP4 (R65, R66). `prop`: a NaN here was produced earlier. -/
def convert (ovf : OvfMode) (code : Nat) (x : BitVec 32) : Num :=
  match fmtFp code with
  | some f => if code = 7 then { v := if isNan32 x then qnan.toNat else x.toNat } else f.encode ovf (toFp x)
  | none => toIntFmt (fmtBits code) (toFp x)

/-- The exponent of an E8M0 scale byte (R56), none for NaN. -/
def e8m0 (b : Byte) : Option Int := if b = 0xFF then none else some ((b.toNat : Int) - 127)

/-- Convert a block of 32 FP32 words into MXFP4 (R66, R67): the scale byte, the element codes, and for each element the
cause and clamps it counted. -/
def toMx (ovf : OvfMode) (xs : List (BitVec 32)) : Byte × List Num :=
  let clampInf (x : BitVec 32) : BitVec 32 × Nat :=
    match toFp x with
    | .inf s => (BitVec.ofNat 32 (fp32.sign s + fp32.maxCode), 1)
    | _ => (x, 0)
  let isInf (x : BitVec 32) : Bool := match toFp x with | .inf _ => true | _ => false
  if xs.any isNan32 || (ovf == .ieee && xs.any isInf) then
    (0xFF, xs.map (fun x => if isInf x then (if ovf == .ieee then { v := 0, cause := 4 } else { v := 0, sat := 1 }) else { v := 0 }))
  else
    let ys := xs.map clampInf
    let amax := ys.foldl (fun a y => max a (y.1.toNat % 2 ^ 31)) 0
    if amax = 0 then (0, xs.map (fun _ => { v := 0 }))
    else
      let lg : Int := match fp32.decode amax with | .fin _ m e => e + Nat.log2 m | _ => 0
      let e : Int := min (max (lg - 2 + 127) 0) 254
      (BitVec.ofNat 8 e.toNat,
       ys.map (fun y => match toFp y.1 with
         | .fin s m d => { e2m1.encode ovf (.fin s m (d - (e - 127))) with sat := y.2 }
         | _ => { v := 0 }))

/-- SPLIT of an FP32 word (R72): hi, lo and the clamps counted. -/
def split (ovf : OvfMode) (x : BitVec 32) : Nat × Nat × Nat :=
  if isNan32 x then (bf16.nanCode, bf16.nanCode, 0)
  else
    let h := bf16.encode ovf (toFp x)
    match bf16.decode h.v with
    | .fin s m e =>
      let d := (toFp x).add (Fp.neg (.fin s m e))
      (h.v, (bf16.encode ovf d.1).v, h.sat)
    | _ => (h.v, 0, h.sat)

end Sys2Proof.Machine
end

