-- ==== Sys2Proof/Machine/Operands.lean ====
section
/-! DEFINITION. The operand forms: step entries (R98 to R103), vector-op descriptors (R116), Plot DMA descriptors (R150,
R151), the addresses they name, and the checks the Pacer makes of them (R119, R153). -/

namespace Sys2Proof.Machine

/-- Bytes of a Reservoir (R131). -/
def rsvBytes : Nat := 0x1000000

/-- Bytes of step memory entry i, as one 128-bit word (R98). -/
def stepEntry (x : Plot) (i : Nat) : Nat := x.stepMem.le (16 * i) 16

/-- KIND of an entry (R98). -/
def eKind (w : Nat) : Nat := field w 126 2

/-- A WORK entry's fields (R99). -/
structure WorkE where
  /-- FL_ADDR -/
  flAddr : Nat
  /-- FL_STRIDE -/
  flStride : Nat
  /-- FL_ROWS -/
  flRows : Nat
  /-- FL_IX -/
  flIx : Nat
  /-- FMT -/
  fmt : Nat
  /-- FU_MASK -/
  fuMask : Nat
  /-- LD_MASK -/
  ldMask : Nat
  /-- LD_ADDR -/
  ldAddr : Nat
  /-- LD_IX -/
  ldIx : Nat
  /-- LD_FMT -/
  ldFmt : Nat
  /-- BASE -/
  base : Nat
  /-- B_ADD -/
  bAdd : Bool
  /-- bit 87 -/
  rsv : Bool
  /-- VX -/
  vx : Nat
  /-- DMA -/
  dma : Nat
  /-- WAIT_KIND -/
  waitKind : Nat
  /-- WAIT_ARG -/
  waitArg : Nat
  /-- RAISE -/
  raise : Nat
  /-- SC_SEL -/
  scSel : Nat
  /-- FL_SRC -/
  flSrc : Bool
  deriving DecidableEq, Repr

/-- The fields of a WORK entry (R99). -/
def parseWork (w : Nat) : WorkE :=
  { flAddr := field w 0 17, flStride := field w 17 10, flRows := field w 27 12, flIx := field w 39 3,
    fmt := field w 42 4, fuMask := field w 46 4, ldMask := field w 50 4, ldAddr := field w 54 15,
    ldIx := field w 69 3, ldFmt := field w 72 4, base := field w 76 10, bAdd := bitOf w 86, rsv := bitOf w 87,
    vx := field w 88 8, dma := field w 96 8, waitKind := field w 104 3, waitArg := field w 107 8,
    raise := field w 115 8, scSel := field w 123 2, flSrc := bitOf w 125 }

/-- A CONTROL entry's fields (R103). -/
structure CtlE where
  /-- IMM -/
  imm : Nat
  /-- TARGET -/
  target : Nat
  /-- SEL -/
  sel : Nat
  /-- FLAG -/
  flag : Nat
  /-- SENSE -/
  sense : Bool
  /-- COUNT -/
  count : Nat
  /-- INBOX -/
  inbox : Nat
  /-- bits [121:59] -/
  rsv : Nat
  /-- OP -/
  op : Nat
  deriving DecidableEq, Repr

/-- The fields of a CONTROL entry (R103). -/
def parseCtl (w : Nat) : CtlE :=
  { imm := field w 0 32, target := field w 32 12, sel := field w 44 2, flag := field w 46 6, sense := bitOf w 52,
    count := field w 53 4, inbox := field w 57 2, rsv := field w 59 63, op := field w 122 4 }

/-- A vector-op descriptor's fields (R116). -/
structure VxD where
  /-- OPCODE -/
  op : Nat
  /-- IN_FMT -/
  inFmt : Nat
  /-- OUT_FMT -/
  outFmt : Nat
  /-- FMASK -/
  fmask : Nat
  /-- PAIR_KEEP -/
  keep : Bool
  /-- IX_A -/
  ixA : Nat
  /-- IX_D -/
  ixD : Nat
  /-- COUNT -/
  count : Nat
  /-- BROW -/
  brow : Nat
  /-- A_ADDR -/
  aAddr : Nat
  /-- A_PITCH -/
  aPitch : Nat
  /-- B_ADDR -/
  bAddr : Nat
  /-- D_ADDR -/
  dAddr : Nat
  /-- D_PITCH -/
  dPitch : Nat
  /-- E_ADDR -/
  eAddr : Nat
  /-- SA -/
  sa : BitVec 32
  /-- SB -/
  sb : BitVec 32
  /-- reserved bits, all of them -/
  rsv : Nat
  deriving DecidableEq, Repr

/-- The fields of a vector-op descriptor (R116). -/
def parseVx (d : List Byte) : VxD :=
  let w := leNat d
  let word (i : Nat) := field w (32 * i) 32
  { op := field (word 0) 0 8, inFmt := field (word 0) 8 4, outFmt := field (word 0) 12 4,
    fmask := field (word 0) 16 4, keep := bitOf (word 0) 20, ixA := field (word 0) 21 3, ixD := field (word 0) 24 3,
    count := field (word 1) 0 12, brow := field (word 1) 12 10, aAddr := field (word 2) 0 24,
    aPitch := field (word 2) 24 8, bAddr := field (word 3) 0 24, dAddr := field (word 4) 0 24,
    dPitch := field (word 4) 24 8, eAddr := field (word 5) 0 24, sa := w32 (word 6), sb := w32 (word 7),
    rsv := field (word 0) 27 5 + field (word 1) 22 10 + field (word 3) 24 8 + field (word 5) 24 8 }

/-- The Furrows or lane groups of a mask, ascending. -/
def maskList (m : Nat) : List Nat := (List.range 4).filter (fun f => bitOf m f)

/-- Lanes of a row position (R116): those of the groups in FMASK, packed. -/
def VxD.lanes (d : VxD) : Nat := 64 * (maskList d.fmask).length

/-- DRAIN of pair rows (R116). -/
def VxD.pair (d : VxD) : Bool := d.op = 1 && d.inFmt = 9

/-- The operation reads the Basins (R117). -/
def VxD.readsBasin (d : VxD) : Bool := d.op = 1 || d.op = 0x0D || d.op = 0x0E || d.op = 0x0F

/-- The operation takes IN_FMT as the format of Reservoir operands (R117). -/
def VxD.usesIn (d : VxD) : Bool :=
  (2 ≤ d.op && d.op ≤ 0x0C)

/-- The operation takes OUT_FMT as the format of D (R117). -/
def VxD.usesOut (d : VxD) : Bool :=
  d.op = 1 || (2 ≤ d.op && d.op ≤ 0x0A) || d.op = 0x0C || d.op = 0x0E || d.op = 0x10

/-- Format of operand A (R117). -/
def VxD.aFmt (d : VxD) : Nat := if d.op = 0x0D then 7 else d.inFmt

/-- The operation reads A as row-form data (R117). -/
def VxD.rowA (d : VxD) : Bool := (2 ≤ d.op && d.op ≤ 0x0D)

/-- The operation reads B as row-form data (R117). -/
def VxD.rowB (d : VxD) : Bool := 2 ≤ d.op && d.op ≤ 5

/-- The operation reads B as a vector (R117, R118). -/
def VxD.vecB (d : VxD) : Bool := d.op = 0x0C || d.op = 0x0D || d.op = 0x0E

/-- Bytes of a row of n elements of a format. -/
def rowBytes (fmt n : Nat) : Nat := n * fmtBits fmt / 8

/-- Distance between row positions: the pitch in units of 64 B, or packed (R116). -/
def pitchOf (p nb : Nat) : Nat := if p = 0 then nb else 64 * p

/-- Bytes of D at one row position (R117). -/
def VxD.dBytes (d : VxD) : Nat :=
  if d.op = 0x0F then 32
  else if d.pair && d.keep then 8 * d.lanes
  else if d.op = 0x0B then 2 * d.lanes
  else if d.op = 0x0D then 4 * d.lanes
  else rowBytes d.outFmt d.lanes

/-- The result has MXFP4 elements, whose scale bytes go to E (R117; for operations other than CONVERT, DEDUCED log
11). -/
def VxD.mxOut (d : VxD) : Bool := d.usesOut && d.outFmt = 4

/-- The operands a vector operation reads, with the value of IX_A: (first address, distance, bytes) of each (R116, R117). -/
def VxD.inAreas (d : VxD) (ix : Nat) : List (Nat × Nat × Nat) :=
  let nb := rowBytes d.aFmt d.lanes
  (if d.rowA then [(d.aAddr + ix, pitchOf d.aPitch nb, nb)] else [])
  ++ (if d.op = 0x0E then [(d.aAddr + ix, 4, 4)] else [])
  ++ (if d.rowB then [(d.bAddr + ix, pitchOf d.aPitch nb, nb)] else [])
  ++ (if d.vecB then [(d.bAddr + ix, 4, 4)] else [])

/-- The results a vector operation writes beside the vectors of SOFTMAX_BLOCK, with the value of IX_D (R116, R117). -/
def VxD.outAreas (d : VxD) (ix : Nat) : List (Nat × Nat × Nat) :=
  [(d.dAddr + ix, pitchOf d.dPitch d.dBytes, d.dBytes)]
  ++ (if d.op = 0x0B then [(d.eAddr + ix, pitchOf d.dPitch d.dBytes, d.dBytes)] else [])
  ++ (if d.op = 0x0E then [(d.eAddr + ix, 4, 4)] else [])
  ++ (if d.mxOut then [(d.eAddr + ix, d.lanes / 32, d.lanes / 32)] else [])

/-- An operand is 16 B aligned and inside the Reservoir at every row position (R116, R119). -/
def areaOk (count : Nat) (a : Nat × Nat × Nat) : Bool :=
  a.1 % 16 = 0 && a.1 + (count - 1) * a.2.1 + a.2.2 ≤ rsvBytes

/-- A reserved encoding or a reserved field in a vector-op descriptor (R116, R117, R119). Format codes the vector unit does
not take (R53) count among them (DEDUCED, log 11). -/
def VxD.reserved (d : VxD) : Bool :=
  d.rsv != 0 || 0x10 < d.op || 9 < d.inFmt || 9 < d.outFmt || 4 < d.ixA || 4 < d.ixD || d.count = 0
  || (d.op = 1 && d.inFmt != 7 && d.inFmt != 8 && d.inFmt != 9)
  || (d.op = 0x0B && d.outFmt != 0)
  || (d.usesIn && d.inFmt = 9) || (d.usesOut && d.outFmt = 9)

/-- A Plot DMA descriptor's fields (R151). -/
structure DmaD where
  /-- SRC -/
  src : Nat
  /-- SRC_IX -/
  srcIx : Nat
  /-- DST -/
  dst : Nat
  /-- DST_IX -/
  dstIx : Nat
  /-- ROW_BYTES -/
  rowBytes : Nat
  /-- ROWS -/
  rows : Nat
  /-- SRC_PITCH -/
  srcPitch : Nat
  /-- DST_PITCH -/
  dstPitch : Nat
  /-- DEVICE -/
  device : Nat
  /-- REMOTE -/
  remote : Bool
  /-- APPEND -/
  append : Nat
  /-- INBOX -/
  inbox : Nat
  /-- DST_RAISE -/
  raise : Nat
  /-- CLS -/
  cls : Bool
  /-- VALID -/
  valid : Bool
  /-- reserved bits, all of them -/
  rsv : Nat
  deriving DecidableEq, Repr

/-- The fields of a Plot DMA descriptor (R151). -/
def parseDma (d : List Byte) : DmaD :=
  let w := leNat d
  let word (i : Nat) := field w (64 * i) 64
  { src := field (word 0) 0 48, srcIx := field (word 0) 48 3, dst := field (word 1) 0 48,
    dstIx := field (word 1) 48 3, rowBytes := field (word 2) 0 20, rows := field (word 2) 20 12,
    srcPitch := field (word 2) 32 16, dstPitch := field (word 2) 48 16, device := field (word 3) 0 14,
    remote := bitOf (word 3) 14, append := field (word 3) 15 2, inbox := field (word 3) 17 2,
    raise := field (word 3) 19 8, cls := bitOf (word 3) 27, valid := bitOf (word 3) 28,
    rsv := field (word 0) 51 13 + field (word 1) 51 13 + field (word 3) 29 35 }

/-- A reserved encoding or field in a Plot DMA descriptor (R119, R151). -/
def DmaD.reserved (d : DmaD) : Bool :=
  d.rsv != 0 || 4 < d.srcIx || 4 < d.dstIx || d.append = 3 || bitOf d.raise 6 || d.rowBytes = 0 || d.rows = 0

/-- Where a run of device addresses lies (R145). -/
inductive Space where
  | hbm
  | rsv (l : Nat) (off : Nat)
  | own (off : Nat)
  | reserved
  deriving DecidableEq, Repr

/-- The space of a device address (R145). -/
def spaceOf (a : Nat) : Space :=
  if a < 0x16800000000 then .hbm
  else if a < 0x800000000000 then .reserved
  else if a < 0x800100000000 then .rsv ((a - 0x800000000000) / rsvBytes) (a % rsvBytes)
  else if a < 0xFFFF00000000 then .reserved
  else if a < 0xFFFF01000000 then .own (a % rsvBytes)
  else .reserved

/-- A row of n bytes at a passes the Pacer's check (R153): no byte in a reserved range, and none past the window of the
accessing Plot. -/
def rowAddrOk (a n : Nat) : Bool :=
  match spaceOf a with
  | .hbm => spaceOf (a + n - 1) == .hbm
  | .rsv .. => match spaceOf (a + n - 1) with | .rsv .. => true | _ => false
  | .own o => o + n ≤ rsvBytes
  | .reserved => false

/-- Every row of an operand passes the check (R153); the rows lie at rising addresses, but each is looked at. -/
def rowsOk (a pitch rows n : Nat) : Bool := (List.range rows).all (fun r => rowAddrOk (a + r * pitch * 16) n)

/-- The Pacer's check of a transfer's source rows (R153). -/
def DmaD.srcOk (d : DmaD) (ix : Nat) : Bool := rowsOk (d.src + ix) d.srcPitch d.rows d.rowBytes

/-- The Pacer's check of a transfer's destination rows, or of the window an append names (R153, R154). -/
def DmaD.dstOk (d : DmaD) (ix : Nat) : Bool :=
  if d.append = 0 then rowsOk (d.dst + ix) d.dstPitch d.rows d.rowBytes
  else match spaceOf (d.dst + ix) with | .rsv .. => true | .own _ => true | _ => false

/-- The value of an index register named by an index field: 0 names none (R99, R116, R151). -/
def ixVal (ix : List (BitVec 24)) (n : Nat) : Nat := if n = 0 then 0 else (ix.getD (n - 1) 0).toNat

/-- K of a tile or row in a format (R24). -/
def tileK (fmt : Nat) : Nat := 1024 / fmtBits fmt

/-- The target format of the weight expander (R86). -/
def WexpCfg.targetFmt (w : WexpCfg) : Nat := if w.target = 0 then 0 else if w.target = 1 then 2 else 3

/-- The group size of the weight expander (R70, R86). -/
def WexpCfg.g (w : WexpCfg) : Nat := 32 * 2 ^ w.group.toNat

/-- Bytes of an expander metadata entry (R70). -/
def WexpCfg.metaBytes (w : WexpCfg) : Nat :=
  if w.mode then 4 else (if w.codeW then 4 else 16) * (fmtBits w.targetFmt / 8)

/-- Bytes of the codes of an expander tile (R70). -/
def WexpCfg.codeBytes (w : WexpCfg) : Nat := tileK w.targetFmt * (if w.codeW then 16 else 32)

/-- Bytes of an expander tile (R70). -/
def WexpCfg.tileBytes (w : WexpCfg) : Nat :=
  w.codeBytes + ((tileK w.targetFmt + w.g - 1) / w.g) * 64 * w.metaBytes

/-- Distance between the tiles an entry loads (R101). -/
def tileStep (ldFmt : Nat) : Nat := if ldFmt = 4 then 8704 else 8192

/-- Bytes read for the tile that an entry loads into Furrow f (R59, R70, R101). -/
def tileBytes (x : Plot) (f ldFmt : Nat) : Nat :=
  if f = 0 && x.wexp.en then x.wexp.tileBytes else tileStep ldFmt

/-- Byte address of stream row i (R100). -/
def Stream.rowAddr (st : Stream) (i : Nat) : Nat :=
  match st.ring with
  | some (base, head, cap, pitch) => base * 128 + ((head + i) % cap) * pitch * 128 + st.addr0
  | none => st.addr0 + i * st.stride

/-- The Basin row that stream row i writes, logical (R35). -/
def Stream.basinRow (st : Stream) (i : Nat) : Nat :=
  if st.fmt = 9 then (st.base.toNat + i) % 512 else (st.base.toNat + i) % 1024

/-- The physical rows a logical Basin row holds, before spare mapping (R35). -/
def physRows (pair : Bool) (r : Nat) : List Nat := if pair then [2 * r, 2 * r + 1] else [r]

/-- The physical row that serves row r of a Furrow's Basin: the lowest valid spare that names it, or itself (R40, R50). -/
def Furrow.mapRow (fu : Furrow) (r : Nat) : Nat :=
  match (List.range 4).find? (fun e => fu.spares.get? e == some (BitVec.ofNat 10 r, true)) with
  | some e => 1024 + e
  | none => r

/-- Basin word at physical row r, before spare mapping, and column c. -/
def Furrow.word (fu : Furrow) (r c : Nat) : BitVec 32 := fu.words.get (fu.mapRow r * 64 + c) 0

/-- The word is poisoned (R39). -/
def Furrow.bad (fu : Furrow) (r c : Nat) : Bool := fu.poison.contains ((fu.mapRow r * 64 + c) / 2)

/-- The NaN tag of a Basin element (R80). -/
def Furrow.tag (fu : Furrow) (r c : Nat) : Bool := fu.tags.contains (fu.mapRow r * 64 + c)

/-- Furrow f of a Plot. -/
def Plot.furrow (x : Plot) (f : Nat) : Furrow := x.furrows.getD f {}

/-- Change Furrow f of a Plot. -/
def Plot.onFurrow (x : Plot) (f : Nat) (g : Furrow → Furrow) : Plot := { x with furrows := listUpd x.furrows f g }

/-- Change the Pacer of a Plot. -/
def Plot.onPacer (x : Plot) (g : Pacer → Pacer) : Plot := { x with pacer := g x.pacer }

/-- The Pacer is running or draining (R90). -/
def Pacer.active (p : Pacer) : Bool := p.st == .running || p.st == .draining

/-- Inbox n of a Pacer. -/
def Pacer.inbox (p : Pacer) (n : Nat) : Inbox := p.inboxes.getD n {}

/-- Change inbox n of a Pacer. -/
def Pacer.onInbox (p : Pacer) (n : Nat) (g : Inbox → Inbox) : Pacer := { p with inboxes := listUpd p.inboxes n g }

/-- Slots of a slot-mode inbox that R113 accepts; 0 where it does not. -/
def Inbox.slotCount (b : Inbox) : Nat :=
  if b.slots = 0 ∨ b.cap.toNat % b.slots.toNat ≠ 0 then 0 else b.slots.toNat

/-- Ring rows of one unit: a row, or a slot (R113). -/
def Inbox.unitRows (b : Inbox) : Nat := if b.slotMode then b.cap.toNat / b.slotCount else 1

/-- Units of the ring: rows, or slots. -/
def Inbox.units (b : Inbox) : Nat := if b.slotMode then b.slotCount else b.cap.toNat

/-- Byte address of ring row r of an inbox (R110). -/
def Inbox.rowAddr (b : Inbox) (r : Nat) : Nat := b.base.toNat * 128 + r * b.pitch.toNat * 128

/-- Add x to the count of a local flag (R105): a raise past 15 is lost and sets FLAG_OVF. -/
def Pacer.raiseFlag (p : Pacer) (f : Nat) : Pacer :=
  let c := (p.flags.get f 0).toNat
  if c = 15 then { p with flagOvf := true } else { p with flags := p.flags.put f (BitVec.ofNat 4 (c + 1)) }

/-- Units a byte run of an element list: codes of n bits, lowest position lowest (R58). -/
def unpack (bits : Nat) (bs : List Byte) : List (BitVec 16) :=
  if bits = 4 then bs.flatMap (fun b => [BitVec.ofNat 16 (b.toNat % 16), BitVec.ofNat 16 (b.toNat / 16)])
  else if bits = 8 then bs.map (fun b => b.zeroExtend 16)
  else (List.range (bs.length / 2)).map (fun i => BitVec.ofNat 16 ((bs.getD (2 * i) 0).toNat + 256 * (bs.getD (2 * i + 1) 0).toNat))

/-- The code a poisoned element of a format reads as (R138): the canonical NaN, or 0 in an integer format. An MXFP4 element
has no NaN code of its own; 0x8000 stands for one. -/
def poisonCode (fmt : Nat) : BitVec 16 :=
  match fmt with
  | 4 => 0x8000 | 5 => 0 | 6 => 0
  | _ => match fmtFp fmt with | some f => BitVec.ofNat 16 f.nanCode | none => 0

/-- Element codes of a byte run at address a, with the elements of its poisoned words (by word index) replaced (R138). -/
def codesOf (fmt a : Nat) (bs : List Byte) (bad : List Nat) : List (BitVec 16) :=
  let cs := unpack (fmtBits fmt) bs
  if bad.isEmpty then cs
  else cs.zipIdx.map (fun (c, i) => if bad.contains ((a + i * fmtBits fmt / 8) / 8) then poisonCode fmt else c)

/-- Bytes with those of the poisoned words (by word index) replaced by v. -/
def maskBytes (v : Byte) (a : Nat) (bs : List Byte) (bad : List Nat) : List Byte :=
  if bad.isEmpty then bs else bs.zipIdx.map (fun (b, i) => if bad.contains ((a + i) / 8) then v else b)

/-- Decode an element code of a row or tile, with its MXFP4 scale byte (R56, R138). -/
def decodeScaled (fmt : Nat) (c : BitVec 16) (scale : Byte) : Fp :=
  if fmt = 4 then (if c = 0x8000 ∨ scale = 0xFF then .nan else decodeElem 4 c.toNat) else decodeElem fmt c.toNat

/-- Words of 64 bits that a run of n bytes at a touches. -/
def wordsOf (a n : Nat) : List Nat := if n = 0 then [] else (List.range ((a + n - 1) / 8 - a / 8 + 1)).map (· + a / 8)

/-- The poisoned Reservoir words that a run touches. -/
def Plot.badWords (x : Plot) (a n : Nat) : List Nat := if x.resvPoison.isEmpty then [] else
  x.resvPoison.filter (fun w => a / 8 ≤ w && w ≤ (a + n - 1) / 8)

end Sys2Proof.Machine
end

