-- ==== Sys2Proof/Machine/Flags.lean ====
section
/-! DEFINITION. Flags, counters and captures: the numeric capture record (R78 to R84), Reservoir and Basin error flags (R39,
R137), residue faults (R477), the run controls' stop (R91) and DEVICE_FATAL (R475). -/

namespace Sys2Proof.Machine

/-- A produced NaN (R78): what PLT_NUMEV0 to PLT_NUMEV3 would hold of it. -/
structure NumEv where
  /-- CAUSE (R87) -/
  cause : Nat
  /-- STAGE -/
  stage : Nat
  /-- FURROW -/
  furrow : Nat
  /-- POS -/
  pos : Nat
  /-- TERM -/
  term : Nat
  /-- ROW (R88) -/
  row : Nat
  /-- STEP -/
  step : Nat
  /-- LOOP0 -/
  loop0 : BitVec 32
  deriving DecidableEq, Repr

/-- The word of PLT_NUMEV0 (R87). -/
def NumRec.word0 (r : NumRec) : BitVec 32 :=
  w32 (b2n r.valid + putField 1 r.cause.toNat + putField 4 r.stage.toNat + putField 6 r.furrow.toNat
    + putField 8 r.pos.toNat + putField 17 r.term.toNat)

/-- The words of PLT_NUMEV0 to PLT_NUMEV3 (R87, R88). -/
def NumRec.words (r : NumRec) : List (BitVec 32) := [r.word0, w32 r.row.toNat, w32 r.step.toNat, r.loop0]

/-- The record that captures an event at Stride Time t (R78, R87, R88). -/
def NumEv.capture (e : NumEv) (t : BitVec 64) : NumRec :=
  { valid := true, cause := BitVec.ofNat 3 e.cause, stage := BitVec.ofNat 2 e.stage, furrow := BitVec.ofNat 2 e.furrow,
    pos := BitVec.ofNat 9 e.pos, term := BitVec.ofNat 8 e.term, row := BitVec.ofNat 24 e.row,
    step := BitVec.ofNat 12 e.step, loop0 := e.loop0, time := t }

/-- Count n NaNs that the record did not capture (R78, R84). -/
def Plot.more (x : Plot) (n : Nat) : Plot := { x with cntMore := satAdd x.cntMore n }

/-- Count n clamps (R78). -/
def Plot.clamps (x : Plot) (n : Nat) : Plot := { x with cntSat := satAdd x.cntSat n }

/-- A capture with TRAP set stops a running Pacer's issue (R81, R90). -/
def Plot.trapNow (x : Plot) : Plot :=
  if x.trap && x.pacer.st == .running then
    x.onPacer (fun q => { q with st := .draining, drainTo := .toNumericHalt })
  else x

/-- The NaNs that one step of a Plot produced, in the order of R79: the first is captured if the record is free, the others
are counted (R78 to R82). -/
def numericEvents (p : Nat) (evs : List NumEv) (s : State) : State :=
  match evs with
  | [] => s
  | e :: rest =>
    let x := s.plot p
    if x.numev.valid then s.setPlot p (x.more evs.length)
    else
      let r := e.capture s.now
      let x := ({ x with numev := r }.more rest.length).trapNow
      post 1 0 p noDseq r.time (s.lplotW p :: r.words) (s.setPlot p x)

/-- Stride ns of 24 h (R478, R480). -/
def dayNs : Nat := 86400000000000

/-- The Health Marshal notes an error of a row (R480): kind 0 or 1 a single-bit or double-bit error of a Basin row, 2 or 3 of a
Reservoir row. -/
def noteRow (kind obj : Nat) (s : State) : State :=
  { s with ras := { s.ras with
      auxFaults := (kind, obj, s.now) :: s.ras.auxFaults.filter (fun e => s.now.toNat - e.2.2.toNat < dayNs) } }

/-- A Basin row as the Health Marshal names it. -/
def basinObj (p f row : Nat) : Nat := (p * 4 + f) * 1024 + row

/-- A Reservoir row as the Health Marshal names it. -/
def rsvObj (p bank sub row : Nat) : Nat := ((p * 32 + bank) * 16 + sub) * 512 + row

/-- The row of the Reservoir byte at a (R131): its bank, sub-array and row. The line within a bank counts the 128 KiB blocks of
the quarter and the 512 B of a block in address order, 512 lines to a sub-array (DESIGN CHOICE, log 32). -/
def rsvRowOf (p a : Nat) : Nat :=
  let line := a / 524288 * 256 + a / 512 % 256
  rsvObj p (field a 17 2 * 8 + field a 6 3) (line / 512) (line % 512)

/-- Note a Reservoir error of one word (R137): corrected and counted, or poisoned with a STEP_FATAL event. -/
def rsvHit (p : Nat) (h : EccHit) (s : State) : State :=
  let s := noteRow (if h.double then 3 else 2) (rsvRowOf p h.addr) s
  let x := s.plot p
  if h.double then
    let x := { x with resvPoison := if x.resvPoison.contains (h.addr / 8) then x.resvPoison else h.addr / 8 :: x.resvPoison,
                      rsvUeAddr := if x.rsvUe then x.rsvUeAddr else BitVec.ofNat 24 (h.addr / 8 * 8), rsvUe := true }
    memUe 1 p (h.addr / 8 * 8) 0 0 (s.setPlot p x)
  else corrected 0 (s.setPlot p { x with rsvCe := true, rsvCeCnt := satAdd x.rsvCeCnt 1 })

/-- Note the errors among `hits` that a Reservoir read of n bytes at a finds; hits outside the read are not found by it. -/
def rsvHits (p a n : Nat) (hits : List EccHit) (s : State) : State :=
  (hits.filter (fun h => a / 8 ≤ h.addr / 8 && h.addr / 8 ≤ (a + n - 1) / 8)).foldl (fun s h => rsvHit p h s) s

/-- Note a Basin error of one 64-bit word (R39). The hit's address is row × 32 + word, the row as addressed. -/
def basinHit (p f : Nat) (h : EccHit) (s : State) : State :=
  let row := h.addr / 32
  let s := noteRow (b2n h.double) (basinObj p f (((s.plot p).furrow f).mapRow row)) s
  if h.double then
    let s := s.onPlot p (fun x => x.onFurrow f (fun fu =>
      let k := (fu.mapRow row * 64) / 2 + h.addr % 32
      { fu with ue := true, poison := if fu.poison.contains k then fu.poison else k :: fu.poison }))
    memUe 2 p (f * 1024 + row) 0 0 s
  else corrected 1 (s.onPlot p (fun x => x.onFurrow f (fun fu => { fu with ce := true })))

/-- The fault times of the last 24 h with the present one. -/
def recent (now : BitVec 64) (ts : List (BitVec 64)) : List (BitVec 64) :=
  now :: ts.filter (fun t => now.toNat - t.toNat < dayNs)

/-- The physical column of logical column j under a map (R46). -/
def ColMap.phys (m : ColMap) (j : Nat) : Nat := if m.spareEn && m.badCol.toNat ≤ j then j + 1 else j

/-- A residue fault of a Plot (R477, R478): UNIT 1 cell, 2 column tree, 3 vector unit. RETIRE_ADVISED is 1 where R480 would
spare a column whose Furrow has no spare left. -/
def plotFault (p unit f col : Nat) (s : State) : State :=
  let x := s.plot p
  let key := (if unit = 3 then 16384 else 0) + f * 1024 + col
  let ts := recent s.now (x.residueCnt.get key [])
  let adv := unit != 3 && 2 ≤ ts.length && (x.furrow f).map.spareEn && s.ras.auto.getLsbD 0
  event 0x80 4 p [s.lplotW p, w32 unit, w32 f, w32 col, faultCount ts.length, w32 (b2n adv)] noDseq
    (s.setPlot p { x with residueCnt := x.residueCnt.put key ts })

/-- A stop of a Pacer (R91): it issues nothing further, and enters STOPPED once the issued entries are complete. -/
def Pacer.stop (q : Pacer) : Pacer :=
  match q.st with
  | .stopped => q
  | .running => { q with st := .draining, drainTo := .toStopped }
  | .draining => { q with drainTo := if q.drainTo == .toHaltStop then .toHaltStop else .toStopped }
  | .paused => { q with st := .stopped }
  | .numericHalt => { q with st := .stopped }
  | .faultHalt => { q with st := .stopped }

/-- The row of the Reservoir that entry k of the spare table replaces (R131, R139). -/
def repRow (p k : Nat) (row : BitVec 9) : Nat := rsvObj p (k % 32) (k / 32 % 16) row.toNat

/-- The errors that the copy of a failing Reservoir row finds (R137, R139): those in a row that a waiting mapping replaces. -/
def copyHits (p : Nat) (ecc : List EccHit) (s : State) : State :=
  let rows := ((s.plot p).repNext.filter (fun e => e.2.2)).map (fun e => repRow p e.1 e.2.1)
  (ecc.filter (fun h => rows.contains (rsvRowOf p h.addr))).foldl (fun s h => rsvHit p h s) s

/-- The errors named for physical Plot p. -/
def hitsOf (p : Nat) (ecc : List (Nat × EccHit)) : List EccHit := (ecc.filter (fun e => e.1 == p)).map (·.2)

/-- A Basin spare mapping in force, and the spare row cleared to zero (R40). -/
def Furrow.applySpare (fu : Furrow) (e : Nat) (v : BitVec 10 × Bool) : Furrow :=
  let lo := (1024 + e) * 64
  let out (k : Nat) : Bool := k < lo || lo + 64 ≤ k
  { fu with spares := fu.spares.put e v, words := fu.words.filter (fun w => out w.1), tags := fu.tags.filter out,
            poison := fu.poison.filter (fun k => out (2 * k)) }

/-- Bring the spare mappings of a Plot into force (R40, R139): each replaced Basin spare row is cleared to zero, a Reservoir row
is copied as it reads, and each new mapping posts ROW_SPARED (R478). -/
def applySpares (p : Nat) (ecc : List EccHit) (s : State) : State :=
  let s := copyHits p ecc s
  let x := s.plot p
  let fus := x.furrows.map (fun fu => { fu.sparesNext.foldl (fun fu e => fu.applySpare e.1 e.2) fu with sparesNext := [] })
  let recsB := x.furrows.zipIdx.flatMap (fun (fu, f) =>
    (fu.sparesNext.filter (fun e => e.2.2)).map (fun e => [w32 0, w32 f, w32 0, w32 e.1, w32 e.2.1.toNat]))
  let recsR := (x.repNext.filter (fun e => e.2.2)).map (fun e =>
    [w32 1, w32 (e.1 % 32), w32 (e.1 / 32 % 16), w32 (e.1 / 512), w32 e.2.1.toNat])
  let rep := x.repNext.foldl (fun t e => t.put e.1 e.2) x.repEnts
  (recsB ++ recsR).foldl (fun s r => event 0x86 3 p r noDseq s)
    (s.setPlot p { x with furrows := fus, repEnts := rep, repNext := [] })

/-- Spare mappings of the Plot wait (R50, R157). -/
def Plot.sparesWait (x : Plot) : Bool := !x.repNext.isEmpty || x.furrows.any (fun fu => !fu.sparesNext.isEmpty)

/-- Waiting spare mappings come into force once the Pacer is STOPPED (R40, R90, R139). -/
def applyIfStopped (p : Nat) (ecc : List EccHit) (s : State) : State :=
  if (s.plot p).pacer.st == .stopped && (s.plot p).sparesWait then applySpares p ecc s else s

/-- Stop the Pacer of physical Plot p (R91). -/
def stopPlot (p : Nat) (s : State) : State := s.onPlot p (fun x => x.onPacer Pacer.stop)

/-- The word of RAS_FATAL (R489). -/
def Ras.fatalWord (r : Ras) : BitVec 32 := w32 (r.fatalCause.toNat + putField 4 r.fatalIndex.toNat)

/-- Every Pacer receives a stop (R475); spare mappings of a Pacer that is thereby STOPPED come into force (R40, R139). -/
def stopAll (s : State) : State :=
  let t := { s with plots := s.plots.mapVals (fun _ x => x.onPacer Pacer.stop) }
  t.plots.foldl (fun s e => applyIfStopped e.1 [] s) t

/-- A DEVICE_FATAL event (R475): STEP_FATAL's effects, FAULT_N, every Pacer stopped as hardware safety, RAS_FATAL. -/
def deviceFatal (cause index : Nat) (s : State) : State :=
  let ras := { s.ras with fatal := true, fatalCause := BitVec.ofNat 4 cause, fatalIndex := BitVec.ofNat 8 index }
  stopAll (event 0x8E 5 index [ras.fatalWord] noDseq { s with ras })

/-- Raise local flag f of physical Plot p (R105, R106). -/
def raiseLocal (p f : Nat) (s : State) : State := s.onPlot p (fun x => x.onPacer (·.raiseFlag f))

/-- Raise readiness flag d for the logical number of Plot p (R107): a bit already set changes nothing and sets FLAG_OVF. -/
def raiseReady (p d : Nat) (s : State) : State :=
  match s.lplot? p with
  | none => s
  | some l =>
    let b := s.relay.rdy.get d 0
    if b.getLsbD l then s.onPlot p (fun x => x.onPacer (fun q => { q with flagOvf := true }))
    else { s with relay := { s.relay with rdy := s.relay.rdy.put d (b ||| (1 <<< l)) } }

/-- Make an entry's RAISE (R97, R99, R107). -/
def makeRaise (p : Nat) (r : BitVec 8) (s : State) : State :=
  if r.getLsbD 7 then
    (if r.getLsbD 6 then raiseReady p (r.toNat % 64) s else raiseLocal p (r.toNat % 64) s)
  else s

end Sys2Proof.Machine
end

