-- ==== Sys2Proof/Machine/Command.lean ====
section
/-! DEFINITION. The command windows as every host command sees them (R385 to R396): packets, parameters, replies, long
commands, and the checks that stand before a command runs. -/

namespace Sys2Proof.Machine

/-! ### Status codes (R395) -/

/-- OK -/
def stOk : Nat := 0
/-- ACCEPTED -/
def stAccepted : Nat := 1
/-- DUPLICATE -/
def stDuplicate : Nat := 2
/-- GAP -/
def stGap : Nat := 3
/-- RESTARTED -/
def stRestarted : Nat := 4
/-- SUPERSEDED -/
def stSuperseded : Nat := 5
/-- OWNER -/
def stOwner : Nat := 6
/-- DENIED -/
def stDenied : Nat := 7
/-- BAD_PACKET -/
def stBadPacket : Nat := 8
/-- UNKNOWN_OP -/
def stUnknownOp : Nat := 9
/-- RSV_ENC -/
def stRsvEnc : Nat := 0xA
/-- RANGE -/
def stRange : Nat := 0xB
/-- STATE -/
def stState : Nat := 0xC
/-- BUSY -/
def stBusy : Nat := 0xD
/-- EXHAUSTED -/
def stExhausted : Nat := 0xE
/-- VERDICT_BAD -/
def stVerdictBad : Nat := 0xF
/-- REFUSED -/
def stRefused : Nat := 0x10
/-- DISPATCHED -/
def stDispatched : Nat := 0x11
/-- FAILED -/
def stFailed : Nat := 0x12
/-- COLL + c -/
def stColl (c : Nat) : Nat := 0x100 + c

/-! ### Opcodes and parameters -/

/-- An opcode's window (true: both) and the sizes of its parameters in bytes (R396). ECHO's DATA has no size of its own. -/
def opInfo (op : Nat) : Option (Bool × List Nat) :=
  match op with
  | 0x00 => some (true, [])
  | 0x01 => some (true, [])
  | 0x02 => some (true, [8, 4, 8])
  | 0x10 => some (true, [32, 4, 4, 4, 8])
  | 0x11 => some (true, [32, 4, 4])
  | 0x12 => some (false, [32])
  | 0x13 => some (true, [32, 4])
  | 0x14 => some (true, [32, 4, 8])
  | 0x20 => some (true, [8, 4])
  | 0x21 => some (true, [8, 4])
  | 0x22 => some (true, [8, 8, 4])
  | 0x30 => some (true, [4, 32])
  | 0x31 => some (true, [4])
  | 0x32 => some (true, [4, 32])
  | 0x33 => some (true, [4])
  | 0x40 => some (true, [4, 4, 4, 8])
  | 0x41 => some (true, [4])
  | 0x42 => some (true, [128])
  | 0x43 => some (true, [4, 4])
  | 0x44 => some (true, [4])
  | 0x50 => some (true, [4, 8, 4, 8, 8, 4, 8, 4])
  | 0x51 => some (false, [4, 4, 4])
  | 0x52 => some (false, [4])
  | 0x53 => some (false, [])
  | 0x54 => some (true, [])
  | 0x55 => some (true, [4, 4])
  | 0x60 => some (false, [4, 4])
  | 0x61 => some (false, [4])
  | 0x62 => some (false, [4, 4])
  | 0x63 => some (false, [8])
  | 0x64 => some (false, [8, 4, 4])
  | 0x70 => some (false, [4])
  | 0x71 => some (false, [4, 4])
  | 0x72 => some (false, [4])
  | 0x73 => some (true, [])
  | 0x80 => some (false, [4, 4])
  | 0x81 => some (false, [4, 4, 4, 4, 4, 4, 4])
  | 0x82 => some (false, [4, 4, 4])
  | 0x83 => some (false, [4, 4])
  | 0x84 => some (false, [])
  | 0x90 => some (false, [])
  | 0x91 => some (false, [4])
  | 0x92 => some (false, [])
  | 0xA0 => some (false, [8, 4])
  | 0xA1 => some (false, [8, 4])
  | 0xA2 => some (false, [8, 4])
  | 0xA3 => some (false, [4, 8, 4])
  | 0xF0 => some (false, [8, 4])
  | 0xF1 => some (false, [4])
  | 0xF2 => some (false, [])
  | 0xF3 => some (false, [4])
  | _ => none

/-- The (offset, size) of fields laid from byte pos of a packet: each aligned to its own size and to at least 4 B (R390). -/
def place : Nat → List Nat → List (Nat × Nat)
  | _, [] => []
  | pos, n :: r =>
    let al := Nat.max 4 n
    let at_ := (pos + al - 1) / al * al
    (at_, n) :: place (at_ + n) r

/-- The length of a packet that ends with these fields, a multiple of 4 B. -/
def placeEnd (fs : List (Nat × Nat)) : Nat :=
  match fs.getLast? with
  | some (o, n) => (o + n + 3) / 4 * 4
  | none => 16

/-- Result fields (size, value) laid out as a reply's RESULT, aligned as parameters are (R391, R396). -/
def pack (fs : List (Nat × Nat)) : List Byte :=
  let ps := place 16 (fs.map (·.1))
  let z := List.replicate (placeEnd ps - 16) (0 : Byte)
  (ps.zip fs).foldl (fun b (p, f) => b.take (p.1 - 16) ++ leBytes p.2 f.2 ++ b.drop (p.1 - 16 + p.2)) z

/-- A window of the host port (R385). -/
def State.window (s : State) : Win → Window
  | .pcw => s.host.pcw
  | .jcw => s.host.jcw

/-- Change a window. -/
def State.onWindow (s : State) (w : Win) (f : Window → Window) : State :=
  match w with
  | .pcw => { s with host := { s.host with pcw := f s.host.pcw } }
  | .jcw => { s with host := { s.host with jcw := f s.host.jcw } }

/-- The window's number in Journal records (R400). -/
def winIndex : Win → Nat
  | .pcw => 0
  | .jcw => 1

/-- The parameters in the window's packet, by the opcode's layout (R390, R396). -/
def Window.params (q : Window) (sizes : List Nat) : List Nat := (place 16 sizes).map (fun p => q.req.le p.1 p.2)

/-! ### Roles -/

/-- A Marshal that holds role r runs (R429, R430, R463). -/
def State.roleUp (s : State) (r : Nat) : Bool :=
  s.boot.marshals.any (fun m => m.role.toNat == r && m.st == .running && !m.halted)

/-- The roles that carrying out an opcode needs (R430, R441): Command, and Fabric for the link, Heat Sheet and route
commands, or Power for POWER_STATE. -/
def opRoles (op : Nat) : List Nat :=
  if 0x60 ≤ op ∧ op ≤ 0x64 then [1, 3] else if op = 0x72 then [1, 2] else [1]

/-! ### Carrying out a command -/

/-- The DSEQ of the command in window w, where it is consumed, without a reply yet, of this opcode and with these
parameters, and every role it needs runs (R386, R390, R393, R430). -/
def State.carries (s : State) (w : Win) (op : Nat) (ps : List Nat) : Option (BitVec 32) :=
  let q := s.window w
  match opInfo op with
  | none => none
  | some (_, sizes) =>
    if q.st == .busy && q.req.le 0 1 == op && q.params sizes == ps && (opRoles op).all s.roleUp then q.cur else none

/-- The bytes of a reply (R391). -/
def replyBytes (op : Nat) (hseq dseq : BitVec 32) (st orig : Nat) (res : List Byte) : List Byte :=
  leBytes 4 (op + (16 + res.length) * 65536) ++ leBytes 4 hseq.toNat ++ leBytes 4 dseq.toNat
    ++ leBytes 4 (st + orig * 65536) ++ res

/-- The window's reply is written, its state is DONE, and its vector is signalled where asked for (R388). -/
def sendReply (w : Win) (b : List Byte) (s : State) : State :=
  let s := s.onWindow w (fun q => { q with st := .done, reply := b, cur := none })
  if (s.window w).irqEn then signalMsix (winIndex w) s else s

/-- The reply to a consumed packet, which is kept for DUPLICATE (R391, R392). -/
def answer (w : Win) (d : BitVec 32) (st : Nat) (res : List Byte) (s : State) : State :=
  let q := s.window w
  let b := replyBytes (q.req.le 0 1) (BitVec.ofNat 32 (q.req.le 4 4)) d st 0 res
  sendReply w b (s.onWindow w (fun q => { q with cache := b }))

/-- What carrying out a command gives: its status, its result bytes and the new state. -/
structure Reply where
  /-- STATUS -/
  st : Nat
  /-- RESULT -/
  res : List Byte := []
  /-- the state after the command's effect -/
  s : State

/-- The records posted since JHEAD was n carry the DSEQ of the command that caused them (R393, R399). -/
def caused (n : BitVec 64) (d : BitVec 32) (s : State) : State :=
  let k := (s.host.jhead - n).toNat
  { s with host := { s.host with
      recs := (s.host.recs.take k).map (fun r => if r.dseq = noDseq then { r with dseq := d } else r) ++ s.host.recs.drop k } }

/-- Carry out the command of a window (R396): act takes the command's DSEQ and the state. -/
def command (w : Win) (op : Nat) (ps : List Nat) (act : BitVec 32 → State → Reply) (s : State) : Out :=
  match s.carries w op ps with
  | none => .next s
  | some d => let r := act d s; .next (answer w d r.st r.res (caused s.host.jhead d r.s))

/-- A refusal: nothing else changes. -/
def refuse (st : Nat) (s : State) : Reply := { st, s }

/-- OK with no result. -/
def done (s : State) : Reply := { st := stOk, s }

/-! ### Long commands -/

/-- Start a long command (R394). -/
def startLong (w : Win) (op : Nat) (d : BitVec 32) (arg : Nat) (s : State) : State :=
  let l : Long := { op := BitVec.ofNat 8 op, win := w, hseq := BitVec.ofNat 32 ((s.window w).req.le 4 4), dseq := d, arg }
  { s with host := { s.host with longs := s.host.longs ++ [l] } }

/-- A long command is accepted (R394). -/
def accept (w : Win) (op : Nat) (d : BitVec 32) (arg : Nat) (s : State) : Reply :=
  { st := stAccepted, s := startLong w op d arg s }

/-- A CMD_DONE record (R394, R400). -/
def cmdDone (w : Win) (hseq : BitVec 32) (op : Nat) (d : BitVec 32) (st : Nat) (res : List (BitVec 32)) (s : State) :
    State :=
  note 0xF0 (winIndex w) ([hseq, w32 op, w32 st] ++ res.take 4) d s

/-- The work of a long command ends (R394). While the Command role is down the command stays noted and ends as RESTARTED
when the role is back (R398, R441); one that a restart has ended already posts nothing more. -/
def finishLong (d : BitVec 32) (st : Nat) (res : List (BitVec 32)) (s : State) : State :=
  if !s.roleUp 1 then s else
  match takeFirst (fun l => l.dseq == d) s.host.longs with
  | none => s
  | some (l, r) =>
    cmdDone l.win l.hseq l.op.toNat d st res { s with host := { s.host with longs := r } }

/-- Long commands and host transfers end with CMD_DONE of status RESTARTED when the Command role restarts (R398). -/
def restartLongs (s : State) : State :=
  let ls := s.host.longs
  let ds := s.host.dmas
  let s := { s with host := { s.host with longs := [], dmas := [] } }
  let s := ls.foldl (fun s l => cmdDone l.win l.hseq l.op.toNat l.dseq stRestarted [] s) s
  ds.foldl (fun s l =>
    cmdDone l.win l.hseq (match l.kind with | .toDevice => 0x20 | .toHost => 0x21 | .fill => 0x22) l.dseq stRestarted [] s) s

/-- The device owner of a window's orders (R240). -/
def winJcw : Win → Bool
  | .pcw => false
  | .jcw => true

/-- The DSEQ of the command whose work caused a record, or none. -/
def longDseq (s : State) (p : Long → Bool) : BitVec 32 :=
  match s.host.longs.find? p with
  | some l => l.dseq
  | none => noDseq

/-- Some logical Plot of the set has no physical Plot: the request fails with RANGE (R481). -/
def State.psetBad (s : State) (b : BitVec 256) : Bool := (psetList b).any (fun l => (s.phys? l).isNone)

end Sys2Proof.Machine
end

