-- ==== Sys2Proof/Machine/Hbm.lean ====
section
/-! DEFINITION. HBM stacks and base dies (R158 to R179): addresses, protection, scrub, row tracking, post-package repair,
channel sparing, refresh and power; and device memory in HBM through the region table (R145, R146). -/

namespace Sys2Proof.Machine

/-! ### Addresses -/

/-- Stack byte to logical channel (R160). -/
def lchOf (sb : Nat) : Nat := sb / 256 % 30
/-- Stack byte to channel address (R160). -/
def caOf (sb : Nat) : Nat := sb / 256 / 30 * 256 + sb % 256
/-- Bytes of a physical channel. -/
def chBytes : Nat := 2 ^ 31

/-- The physical channel of logical channel c (R159). -/
def Stack.physOf (x : Stack) (c : Nat) : Nat := (x.chmap.get c (BitVec.ofNat 5 c)).toNat

/-- The physical channel that serves channel address ca of logical channel c, a sparing copy included (R172). -/
def Stack.serve (x : Stack) (c ca : Nat) : Nat :=
  match x.spare with
  | some k => if k.lch = c && ca / 4096 < x.spareWm.toNat then k.target else x.physOf c
  | none => x.physOf c

/-- The key of a byte of the stack's memory. -/
def Stack.key (x : Stack) (sb : Nat) : Nat := x.serve (lchOf sb) (caOf sb) * chBytes + caOf sb

/-- The fields of a channel address (R161): pseudo-channel, column, bank, bank group, SID, row. -/
structure DramAddr where
  /-- pseudo-channel -/
  pc : Nat
  /-- column -/
  col : Nat
  /-- bank -/
  bank : Nat
  /-- bank group -/
  bg : Nat
  /-- SID -/
  sid : Nat
  /-- row -/
  row : Nat
  deriving DecidableEq, Repr

/-- Decode a channel address (R161). -/
def dramAddr (ca : Nat) : DramAddr :=
  { pc := field ca 5 1, col := field ca 6 5, bank := field ca 11 2, bg := field ca 13 2, sid := field ca 15 2,
    row := field ca 17 14 }

/-- The channel address of unit `col` of a row (R161). -/
def Ppr.unitCa (r : Ppr) (col : Nat) : Nat :=
  putField 5 r.pc + putField 6 col + putField 11 r.bank + putField 13 r.bg + putField 15 r.sid + putField 17 r.row

/-- The bank of a channel address is held by a repair (R170). -/
def Stack.bankHeld (x : Stack) (phys ca : Nat) : Bool :=
  let d := dramAddr ca
  x.pprs.any (fun r => r.phys = phys && r.pc = d.pc && r.sid = d.sid && r.bg = d.bg && r.bank = d.bank)

/-- A unit is poisoned (R163). -/
def Stack.isBad (x : Stack) (key : Nat) : Bool := x.poison.contains (key / 32)

/-- Mark a unit poisoned. -/
def Stack.mark (x : Stack) (key : Nat) : Stack :=
  if x.isBad key then x else { x with poison := key / 32 :: x.poison }

/-- A repair or a copy finds a unit uncorrectable (R170, R179): it is poisoned, which no demand read has met, and CHERRp.UE counts it
once. -/
def Stack.poisonNew (x : Stack) (phys ca : Nat) : Stack :=
  let key := phys * chBytes + ca
  if x.isBad key then x
  else { x.mark key with latent := key / 32 :: x.latent, chUe := x.chUe.upd phys 0 (satAdd · 1) }

/-- HBM answers accesses (R177, R178): initialised, and the stack is not in self-refresh. -/
def State.hbmUp (s : State) (k : Nat) : Bool := s.boot.hbmReady && !(s.stack k).selfRefresh

/-- An access wakes a channel in power-down (R177). -/
def Stack.wake (x : Stack) (phys : Nat) : Stack := { x with asleep := x.asleep.filter (· != phys) }

/-! ### Errors -/

/-- Note a correctable error of a row (R169): the tracker entry of the row, or the one with the lowest count, lowest index
first. Answers the entry and its new count. -/
def Stack.track (x : Stack) (phys ca : Nat) : Nat × RowTrk × Stack :=
  let d := dramAddr ca
  let same (t : RowTrk) : Bool := t.count != 0 && t.phys.toNat = phys && t.pc = (d.pc = 1 : Bool) && t.sid.toNat = d.sid
    && t.bg.toNat = d.bg && t.bank.toNat = d.bank && t.row.toNat = d.row
  let at_ (i : Nat) : RowTrk := x.rowTrk.get i {}
  match (List.range 16).find? (fun i => same (at_ i)) with
  | some i =>
    let t := { at_ i with count := satAdd (at_ i).count 1 }
    (i, t, { x with rowTrk := x.rowTrk.put i t })
  | none =>
    let i := (List.range 16).foldl (fun b j => if (at_ j).count.toNat < (at_ b).count.toNat then j else b) 0
    let t : RowTrk := { row := BitVec.ofNat 14 d.row, bank := BitVec.ofNat 2 d.bank, bg := BitVec.ofNat 2 d.bg,
                        sid := BitVec.ofNat 2 d.sid, pc := d.pc = 1, phys := BitVec.ofNat 5 phys, count := 1 }
    (i, t, { x with rowTrk := x.rowTrk.put i t })

/-- The 64 bits of HBM_ROWTRKt (R179). -/
def RowTrk.word (t : RowTrk) : Nat :=
  t.row.toNat + putField 14 t.bank.toNat + putField 16 t.bg.toNat + putField 18 t.sid.toNat + putField 20 (b2n t.pc)
    + putField 21 t.phys.toNat + putField 26 t.count.toNat

/-- A correctable error of a unit (R163, R169): counted, tracked, and ROW_THRESH posted when the row's count reaches it. -/
def correctUnit (k phys ca : Nat) (s : State) : State :=
  let x := s.stack k
  let x := { x with chCe := x.chCe.upd phys 0 (satAdd · 1) }
  let t := x.track phys ca
  let s := corrected 2 (s.setStack k t.2.2)
  if t.2.1.count.toNat = x.rowThresh.toNat then
    event 0x10 1 k [w32 t.2.1.word, w32 (t.2.1.word / 2 ^ 32)] noDseq s
  else s

/-- HBM_UEADDR records the first unit found uncorrectable since the three flags were all clear (R179). A write that met a unit
already poisoned has set PARTIAL_POISON without finding one (R164). -/
def Stack.noteUe (x : Stack) (phys ca : Nat) : Stack :=
  if x.ueNoted then x else { x with ueNoted := true, ueCa := BitVec.ofNat 31 ca, uePhys := BitVec.ofNat 5 phys }

/-- The unit at a key takes the data that the code gives for a miscorrected error (R162): it is returned and written back. -/
def Stack.miscorrect (x : Stack) (key : Nat) (data : List Byte) : Stack :=
  { x with mem := x.mem.write key ((List.range 32).map (fun i => data.getD i 0)) }

/-- Which access found an uncorrectable unit (R163): a demand read, with the segment and array when a Sluice was reading a
committed unit; the patrol scrub; or the read half of a partial write. -/
inductive UeKind where
  | demand (sluice : Option (Nat × Nat))
  | scrub
  | partialWrite
  deriving DecidableEq, Repr

/-- A unit of the stack is found uncorrectable for the first time (R163, R164, R478). -/
def uncorrectable (k phys ca sb : Nat) (kind : UeKind) (s : State) : State :=
  let x := s.stack k
  let x := x.noteUe phys ca
  let x := (x.mark (phys * chBytes + ca))
  let x := { x with chUe := x.chUe.upd phys 0 (satAdd · 1) }
  match kind with
  | .demand none => memUe 3 k (sb / 32 * 32) 0 0 (s.setStack k { x with ue := true })
  | .demand (some q) =>
    memUe 8 k (sb / 32 * 32) q.1 q.2
      (s.setStack k { x with ue := true, ueSeen := (phys * chBytes + ca) / 32 :: x.ueSeen })
  | .scrub => memUe 4 k (sb / 32 * 32) 0 0 (s.setStack k { x with scrubUe := true, latent := (phys * chBytes + ca) / 32 :: x.latent })
  | .partialWrite =>
    memUe 9 k (sb / 32 * 32) 0 0 (s.setStack k { x with partialPoison := true, latent := (phys * chBytes + ca) / 32 :: x.latent })

/-- The first demand read of a unit that something else had found and poisoned (R163, R164): it raises STEP_FATAL, and the error
is not counted again. -/
def metLatent (k phys ca sb : Nat) (sluice : Option (Nat × Nat)) (s : State) : State :=
  let u := (phys * chBytes + ca) / 32
  let x := s.stack k
  if !x.latent.contains u then s
  else
    let x := { x.noteUe phys ca with ue := true, latent := x.latent.erase u }
    match sluice with
    | none => memUe 3 k (sb / 32 * 32) 0 0 (s.setStack k x)
    | some q => memUe 8 k (sb / 32 * 32) q.1 q.2 (s.setStack k { x with ueSeen := u :: x.ueSeen })

/-- What the ECC finds as a unit is read (R162, R163, R164): a unit already poisoned is not counted again. -/
def readUnit (k phys ca sb : Nat) (e : UnitErr) (kind : UeKind) (s : State) : State :=
  if (s.stack k).isBad (phys * chBytes + ca) then
    match kind with
    | .demand q => metLatent k phys ca sb q s
    | _ => s
  else match e with
    | .clean => s
    | .single => correctUnit k phys ca s
    | .miscorrected d => correctUnit k phys ca (s.onStack k (·.miscorrect (phys * chBytes + ca) d))
    | .uncorrectable => uncorrectable k phys ca sb kind s

/-- The stack byte of a channel address of a logical channel (R160). -/
def sbOf (c ca : Nat) : Nat := (ca / 256 * 30 + c) * 256 + ca % 256

/-! ### Accesses of one unit -/

/-- A unit of the stack can be accessed now: HBM is up, the channel is in service and its bank is not held (R170, R175). -/
def State.unitOpen (s : State) (k sb : Nat) : Bool :=
  let x := s.stack k
  s.hbmUp k && !x.offline.contains (lchOf sb) && !x.bankHeld (x.serve (lchOf sb) (caOf sb)) (caOf sb)

/-- HBM_DEMAND_READ (R163): the unit's 32 bytes are returned, poisoned or not. -/
def execHbmDemandRead (k sb : Nat) (err : UnitErr) (sluice : Option (Nat × Nat)) (s : State) : Out := s.live <|
  let u := sb / 32 * 32
  let phys := (s.stack k).serve (lchOf u) (caOf u)
  let t := readUnit k phys (caOf u) u err (.demand sluice) s
  let x := (t.stack k).wake phys
  let key := phys * chBytes + caOf u
  when (s.unitOpen k u) (t.setStack k { x with rdData := x.mem.bytes key 32, rdPoison := x.isBad key }) s

/-- Store the whole of a unit: its poison is cleared (R164). -/
def Stack.putUnit (x : Stack) (key : Nat) (data : List Byte) : Stack :=
  { x with mem := x.mem.write key data, poison := x.poison.filter (· != key / 32), latent := x.latent.filter (· != key / 32) }

/-- HBM_WRITE (R164): a write of one whole 32 B unit. -/
def execHbmWrite (k sb : Nat) (data : List Byte) (s : State) : Out := s.live <|
  let x := s.stack k
  let phys := x.serve (lchOf sb) (caOf sb)
  when (s.unitOpen k sb && data.length = 32 && sb % 32 = 0)
    (s.setStack k ((x.wake phys).putUnit (phys * chBytes + caOf sb) data)) s

/-- A write of part of a unit (R164): merged, unless the unit is poisoned. -/
def partialWrite (k sb : Nat) (data : List Byte) (err : UnitErr) (s : State) : State :=
  let phys := (s.stack k).serve (lchOf sb) (caOf sb)
  let key := phys * chBytes + caOf sb
  let s := readUnit k phys (caOf sb / 32 * 32) (sb / 32 * 32) err .partialWrite s
  let x := (s.stack k).wake phys
  if x.isBad key then s.setStack k { x with partialPoison := true }
  else s.setStack k { x with mem := x.mem.write key data }

/-- HBM_PARTIAL_WRITE (R164). -/
def execHbmPartialWrite (k sb : Nat) (data : List Byte) (err : UnitErr) (s : State) : Out := s.live <|
  when (s.unitOpen k sb && sb % 32 + data.length ≤ 32) (partialWrite k sb data err s) s

/-- The error that a list names for an object; none named is a clean read. -/
def errOf (errs : List (Nat × UnitErr)) (i : Nat) : UnitErr :=
  match errs.find? (fun e => e.1 == i) with
  | some e => e.2
  | none => .clean

/-- PATROL_SCRUB_READ (R163, R165, R167, R168, R170): each channel that holds addresses reads the unit at POS; `errs` names what
its physical channels find. The scrub waits for a bank that a repair holds (log 62). -/
def execPatrolScrubRead (k : Nat) (errs : List (Nat × UnitErr)) (s : State) : Out := s.live <|
  let x := s.stack k
  let ca := x.scrubPos.toNat * 32
  if !s.hbmUp k then .next s
  else
    let chs := (List.range 30).filter (fun c => !x.offline.contains c)
    if chs.any (fun c => x.bankHeld (x.serve c ca) ca) then .next s
    else
    let s := chs.foldl (fun s c =>
      let phys := x.serve c ca
      (readUnit k phys ca (sbOf c ca) (errOf errs phys) .scrub s).onStack k (·.wake phys)) s
    .next (s.onStack k (fun x =>
      if x.scrubPos.toNat = 2 ^ 26 - 1 then { x with scrubPos := 0, scrubPasses := x.scrubPasses + 1 }
      else { x with scrubPos := x.scrubPos + 1 }))

/-- DIE_LINK_REPLAY (R166): a flit to the base die is replayed; `again`: the same flit failed before. -/
def execDieLinkReplay (k : Nat) (again : Bool) (s : State) : Out := s.live <|
  let n := if again then (s.stack k).retrySeq + 1 else 1
  let s := s.onStack k (fun x => { x with linkRetry := satAdd x.linkRetry 1, retrySeq := n })
  .next (if n = 16 then deviceFatal 2 k s else s)

/-- HBM_REFRESH (R176): per-bank refresh in RUN and TRIM. -/
def execHbmRefresh (k : Nat) (s : State) : Out := s.live <|
  when (s.hbmUp k && (s.power.st == .run || s.power.st == .trim))
    (s.onStack k (fun x => { x with refreshes := x.refreshes + 1 })) s

/-- A threshold with 3 °C of hysteresis (R176). -/
def above (t : Nat) (temp : Nat) (was : Bool) : Bool := t ≤ temp || (was && t < temp + 3)

/-- The base die answers a temperature (R176). -/
def Stack.heat (x : Stack) (temp : BitVec 8) : Stack :=
  { x with tempLive := temp, refresh2x := above 85 temp.toNat x.refresh2x, throttle := above 95 temp.toNat x.throttle }

/-- HBM_TEMP_THRESHOLD (R176): the stack's temperature crosses a threshold. -/
def execHbmTempThreshold (k : Nat) (temp : BitVec 8) (s : State) : Out := s.live <| .next (s.onStack k (·.heat temp))

/-- HBM_IDLE_POWER_DOWN (R177): in IDLE a channel without an access for 1 µs enters power-down. -/
def execHbmIdlePowerDown (k ch : Nat) (s : State) : Out := s.live <|
  when (s.power.st == .idle && s.hbmUp k && (List.range 30).any (fun c => (s.stack k).physOf c == ch))
    (s.onStack k (fun x => { x with asleep := if x.asleep.contains ch then x.asleep else ch :: x.asleep })) s

/-- HBM_INIT_COMPLETE (R174, R178): training, the zero fill and the test of the reserve channels end; `bad` names the
reserve channels (stack, physical channel) that failed. -/
def execHbmInitComplete (bad : List (Nat × Nat)) (s : State) : Out := s.live <|
  when (s.boot.hsDone && !s.boot.hbmReady)
    (bad.foldl (fun s b => s.onStack b.1 (fun x =>
        if (List.range 30).any (fun c => x.physOf c == b.2) then x else { x with failed := x.failed ||| (1 <<< b.2) }))
      { s with boot := { s.boot with hbmReady := true } }) s

/-! ### Post-package repair -/

/-- A repair or a sparing copy runs on a physical channel (R171). -/
def Stack.chBusy (x : Stack) (phys : Nat) : Bool :=
  x.pprs.any (fun r => r.phys == phys) ||
  (match x.spare with
   | some k => k.target == phys || x.physOf k.lch == phys
   | none => false)

/-- The spare row that a repair would use (R170): one for each bank group, SID and pseudo-channel of a channel. -/
def pprSlot (pc sid bg : Nat) : Nat := pc + 2 * sid + 8 * bg

/-- Spare rows left on a physical channel: HBM_PPRSTAT.AVAIL (R170, R179). -/
def Stack.pprAvail (x : Stack) (phys : Nat) : Nat := ((List.range 32).filter (fun i => !(x.pprUsed.get phys 0).getLsbD i)).length

/-- Start a post-package repair (R170, R171): EXHAUSTED where its spare row is used (log 62), so always where AVAIL is 0. -/
def startPpr (w : Win) (k phys pc sid bg bank row : Nat) (d : BitVec 32) (s : State) : Reply :=
  if 24 ≤ k || 32 ≤ phys || 2 ≤ pc || 4 ≤ sid || 4 ≤ bg || 4 ≤ bank || 16384 ≤ row then refuse stRange s
  else if !s.hbmUp k then refuse stState s
  else
    let s := s.onStack k (fun x => { x with pprPhys := BitVec.ofNat 5 phys })
    let x := s.stack k
    if x.chBusy phys then refuse stBusy s
    else if (x.pprUsed.get phys 0).getLsbD (pprSlot pc sid bg) then refuse stExhausted s
    else accept w 0x81 d k (s.setStack k { x with pprs := x.pprs ++ [{ phys, pc, sid, bg, bank, row, dseq := d }] })

/-- HBM_PPR (R170, R171, R396). -/
def execHbmPpr (w : Win) (stack phys pc sid bg bank row : BitVec 32) (s : State) : Out := s.live <|
  command w 0x81 [stack.toNat, phys.toNat, pc.toNat, sid.toNat, bg.toNat, bank.toNat, row.toNat]
    (fun d s => startPpr w stack.toNat phys.toNat pc.toNat sid.toNat bg.toNat bank.toNat row.toNat d s) s

/-- Move the repair of a channel from one phase to the next (R170). -/
def pprStep (k ch : Nat) (st nx : PprStage) (f : Ppr → Ppr) (s : State) : Out :=
  when ((s.stack k).pprs.any (fun r => r.phys == ch && r.stage == st))
    (s.onStack k (fun x => { x with pprs := x.pprs.map (fun r =>
      if r.phys = ch && r.stage == st then { f r with stage := nx } else r) })) s

/-- PPR_DRAIN_DONE (R170). -/
def execPprDrainDone (k ch : Nat) (s : State) : Out := s.live <| pprStep k ch .drain .readRow id s

/-- The holding buffer of a repair: the row's units with their column, bytes and poison (R170). -/
def Stack.holdRow (x : Stack) (r : Ppr) : Ppr :=
  let key (c : Nat) := r.phys * chBytes + r.unitCa c
  { r with held := (List.range 32).flatMap (fun c => (Mem.slice x.mem (key c) 32).map (fun b => (32 * c + b.1, b.2))),
           heldPoison := (List.range 32).filter (fun c => x.isBad (key c)) }

/-- The logical channel that a physical channel serves; 31 for none. -/
def Stack.lchServed (x : Stack) (phys : Nat) : Nat := ((List.range 30).find? (fun c => x.physOf c == phys)).getD 31

/-- PPR_ROW_READ_DONE (R170): the row is read, corrected, into the holding buffer; `errs` names what its 32 units show. -/
def execPprRowReadDone (k ch : Nat) (errs : List (Nat × UnitErr)) (s : State) : Out := s.live <|
  match (s.stack k).pprs.find? (fun r => r.phys == ch && r.stage == .readRow) with
  | none => .next s
  | some r =>
    let s := (List.range 32).foldl (fun s c =>
      match errOf errs c with
      | .clean => s
      | .uncorrectable => s.onStack k (·.poisonNew ch (r.unitCa c))
      | e => readUnit k ch (r.unitCa c) 0 e .scrub s) s
    pprStep k ch .readRow .program (fun r => (s.stack k).holdRow r) s

/-- PPR_PROGRAM_DONE (R170). -/
def execPprProgramDone (k ch : Nat) (s : State) : Out := s.live <| pprStep k ch .program .writeBack id s

/-- The held row is written into the spare row (R170). -/
def Stack.writeBack (x : Stack) (r : Ppr) : Stack :=
  (List.range 32).foldl (fun x c =>
    let key := r.phys * chBytes + r.unitCa c
    let seg : Mem := (r.held.filter (fun b => b.1 / 32 = c)).map (fun b => (b.1 % 32, b.2))
    { x with mem := Mem.splice x.mem key 32 seg,
             poison := (x.poison.filter (· != key / 32)) ++ (if r.heldPoison.contains c then [key / 32] else []) }) x

/-- PPR_COMPLETE (R170): the row is back, the bank reopens, a REPAIRED record is posted and AVAIL falls. -/
def execPprComplete (k ch : Nat) (s : State) : Out := s.live <|
  match takeFirst (fun r => r.phys == ch && r.stage == .writeBack) (s.stack k).pprs with
  | none => .next s
  | some (r, rest) =>
    let x := (s.stack k).writeBack r
    let s := s.setStack k { x with pprs := rest, pprUsed := x.pprUsed.upd ch 0 (· ||| (1 <<< pprSlot r.pc r.sid r.bg)) }
    let s := { s with ras := { s.ras with
      pprFuse := s.ras.pprFuse.upd (k * 32 + ch) 0 (· ||| (1 <<< pprSlot r.pc r.sid r.bg)) } }
    .next (finishLong r.dseq stOk [] (event 0x11 3 k [0, w32 ch, w32 (x.lchServed ch)] r.dseq s))

/-! ### Channel sparing -/

/-- The reserve channel a copy would use (R159, R174): the lowest (log 62) that serves no logical channel and has not failed. -/
def Stack.reserve? (x : Stack) : Option Nat :=
  (List.range 32).find? (fun p => !x.failed.getLsbD p && !(List.range 30).any (fun c => x.physOf c == p))

/-- Start a sparing copy (R173). -/
def startSpare (w : Win) (k lch rate : Nat) (d : BitVec 32) (s : State) : Reply :=
  if 24 ≤ k || 30 ≤ lch || rate = 0 || 32 < rate then refuse stRange s
  else
    let x := s.stack k
    if !s.hbmUp k || x.offline.contains lch then refuse stState s
    else if x.spare.isSome then refuse stBusy s
    else match x.reserve? with
      | none => refuse stExhausted s
      | some t => accept w 0x82 d k (s.setStack k
          { x with spare := some { lch, target := t, dseq := d }, spareLch := BitVec.ofNat 5 lch,
                   spareTarget := BitVec.ofNat 5 t, spareRate := BitVec.ofNat 6 rate, spareWm := 0 })

/-- HBM_SPARE (R173, R396). -/
def execHbmSpare (w : Win) (stack lch rate : BitVec 32) (s : State) : Out := s.live <|
  command w 0x82 [stack.toNat, lch.toNat, rate.toNat] (fun d s => startSpare w stack.toNat lch.toNat rate.toNat d s) s

/-- Change the copy of a stack. -/
def Stack.onSpare (x : Stack) (f : SpareCopy → SpareCopy) : Stack := { x with spare := x.spare.map f }

/-- SPARE_TARGET_READY (R173): the target has left self-refresh. -/
def execSpareTargetReady (k : Nat) (s : State) : Out := s.live <|
  when (s.hbmUp k && (s.stack k).spare.any (fun c => !c.awake)) (s.onStack k (·.onSpare (fun c => { c with awake := true }))) s

/-- Blocks of a channel (R172). -/
def spareBlocks : Nat := 524288

/-- Copy one 4 KiB block of a channel (R172, R177): what its 128 units show is in `errs`. A unit found uncorrectable counts against
the source. -/
def copyBlock (k : Nat) (c : SpareCopy) (errs : List (Nat × UnitErr)) (s : State) : State :=
  let src := (s.stack k).physOf c.lch
  let ca0 := (s.stack k).spareWm.toNat * 4096
  let s := (List.range 128).foldl (fun s u =>
    match errOf errs u with
    | .clean => s
    | .uncorrectable => s.onStack k (·.poisonNew src (ca0 + 32 * u))
    | e => readUnit k src (ca0 + 32 * u) 0 e .scrub s) s
  let x := ((s.stack k).wake src).wake c.target
  let from_ := src * chBytes + ca0
  let dst := c.target * chBytes + ca0
  let bad := ((List.range 128).filter (fun u => x.isBad (from_ + 32 * u))).map (fun u => dst / 32 + u)
  s.setStack k { x with
    mem := Mem.splice x.mem dst 4096 (Mem.slice x.mem from_ 4096),
    poison := x.poison.filter (fun q => q < dst / 32 || dst / 32 + 128 ≤ q) ++ bad,
    latent := x.latent.filter (fun q => q < dst / 32 || dst / 32 + 128 ≤ q)
      ++ bad.filter (fun q => x.latent.contains (q - dst / 32 + from_ / 32)),
    spareWm := x.spareWm + 1 }

/-- SPARE_BLOCK_COPIED (R172, R173): a copy waits while a repair runs on its source or its target, and while it is paused. -/
def execSpareBlockCopied (k : Nat) (errs : List (Nat × UnitErr)) (s : State) : Out := s.live <|
  let x := s.stack k
  match x.spare with
  | none => .next s
  | some c =>
    when (s.hbmUp k && c.awake && !c.paused && x.spareWm.toNat < spareBlocks
        && !x.pprs.any (fun r => r.phys == x.physOf c.lch || r.phys == c.target)) (copyBlock k c errs s) s

/-- SPARE_COPY_COMPLETE (R174): PHYS of the REPAIRED record names the target (log 62). -/
def execSpareCopyComplete (k : Nat) (s : State) : Out := s.live <|
  let x := s.stack k
  match x.spare with
  | none => .next s
  | some c =>
    if x.spareWm.toNat != spareBlocks then .next s
    else
      let src := x.physOf c.lch
      let x := { x with spare := none, chmap := x.chmap.put c.lch (BitVec.ofNat 5 c.target), failed := x.failed ||| (1 <<< src) }
      let s := s.setStack k x
      let s := { s with ras := { s.ras with
        chFuse := s.ras.chFuse.put k ((List.range 30).map (fun l => BitVec.ofNat 5 (x.physOf l)), x.failed) } }
      .next (finishLong c.dseq stOk [] (event 0x11 3 k [1, w32 c.target, w32 c.lch] c.dseq s))

/-- Set a logical channel OFFLINE (R175): only where no usable reserve remains (STATE else), and no repair or copy occupies it (BUSY
else; log 62). -/
def setOffline (k lch : Nat) (s : State) : Reply :=
  if 24 ≤ k || 30 ≤ lch then refuse stRange s
  else
    let x := s.stack k
    if x.offline.contains lch then done s
    else if x.chBusy (x.physOf lch) then refuse stBusy s
    else if x.reserve?.isSome then refuse stState s
    else done (s.setStack k { x with offline := x.offline ++ [lch] })

/-- HBM_OFFLINE (R175, R396). -/
def execHbmOffline (w : Win) (stack lch : BitVec 32) (s : State) : Out := s.live <|
  command w 0x83 [stack.toNat, lch.toNat] (fun _ s => setOffline stack.toNat lch.toNat s) s

/-! ### Device memory in HBM -/

/-- Bytes a region maps. -/
def Region.bytes (r : Region) : Nat := r.size.toNat * 4096

/-- The stack and stack byte of offset o of a region (R146). -/
def Region.at (r : Region) (o : Nat) : Nat × Nat :=
  let c := o / 4096
  match r.mode.toNat with
  | 0 => (c % 24, (r.soff.toNat + c / 24) * 4096 + o % 4096)
  | 1 => (6 * r.side.toNat + c % 6, (r.soff.toNat + c / 6) * 4096 + o % 4096)
  | _ => (r.stack.toNat, (r.soff.toNat + c) * 4096 + o % 4096)

/-- The region that maps device address a (R146). -/
def State.region? (s : State) (a : Nat) : Option Region :=
  (s.regions.tbl.find? (fun e => e.2.valid && e.2.base.toNat * 4096 ≤ a && a < e.2.base.toNat * 4096 + e.2.bytes)).map (·.2)

/-- The stack and stack byte of a device address in HBM; none: UNMAPPED (R147, R175). -/
def State.hbmAt (s : State) (a : Nat) : Option (Nat × Nat) :=
  match s.region? a with
  | none => none
  | some r =>
    let q := r.at (a - r.base.toNat * 4096)
    if (s.stack q.1).offline.contains (lchOf q.2) then none else some q

/-- A run of n bytes at a, cut at multiples of u: (address, bytes) of each piece. -/
def pieces (u a n : Nat) : List (Nat × Nat) :=
  if n = 0 then [] else
  (List.range ((a + n - 1) / u - a / u + 1)).map (fun i =>
    let lo := max a ((a / u + i) * u)
    (lo, min (a + n) ((a / u + i + 1) * u) - lo))

/-- Some unit of a run cannot be accessed yet: HBM is not up, or a repair holds its bank (R170, R177, R178). -/
def State.hbmWaits (s : State) (a n : Nat) : Bool :=
  (pieces 32 a n).any (fun q =>
    match s.hbmAt q.1 with
    | none => false
    | some (k, sb) => !s.unitOpen k sb)

/-- Read n bytes of HBM at device address a: the bytes and the offsets of those in poisoned units; none: UNMAPPED. -/
def State.hbmRead (s : State) (a n : Nat) : Option (List Byte × List Nat) :=
  (pieces 32 a n).foldl (fun (acc : Option (List Byte × List Nat)) q =>
    match acc, s.hbmAt q.1 with
    | some (bs, bad), some (k, sb) =>
      let x := s.stack k
      let key := x.key sb
      some (bs ++ x.mem.bytes key q.2, bad ++ (if x.isBad key then (List.range q.2).map (· + (q.1 - a)) else []))
    | _, _ => none) (some ([], []))

/-- Bytes of stack k from a stack byte on, as the debug port reads them (R175, R463): none where a channel of them is OFFLINE. -/
def Stack.rawBytes (x : Stack) (sb n : Nat) : Option (List Byte) :=
  let ps := pieces 32 sb n
  if ps.any (fun q => x.offline.contains (lchOf q.1)) then none
  else some (ps.flatMap (fun q => x.mem.bytes (x.key q.1) q.2))

/-- Write bytes of stack k from a stack byte on (R164, R175): unit by unit, one covered in part by read-modify-write; nothing where a
channel of them is OFFLINE. -/
def rawWrite (k sb : Nat) (bs : List Byte) (s : State) : State :=
  let ps := pieces 32 sb bs.length
  if ps.any (fun q => (s.stack k).offline.contains (lchOf q.1)) then s
  else ps.foldl (fun s q =>
    let x := s.stack k
    let part := (bs.drop (q.1 - sb)).take q.2
    if q.2 = 32 then s.setStack k ((x.wake (x.serve (lchOf q.1) (caOf q.1))).putUnit (x.key q.1) part)
    else partialWrite k q.1 part .clean s) s

/-- An access of the debug port to stack k has to wait (R170, R177, R178). -/
def State.rawWaits (s : State) (k sb n : Nat) : Bool :=
  (pieces 32 sb n).any (fun q => !(s.stack k).offline.contains (lchOf q.1) && !s.unitOpen k q.1)

/-- An access wakes the HBM channels it touches (R177). -/
def State.hbmTouch (s : State) (a n : Nat) : State :=
  (pieces 256 a n).foldl (fun s q =>
    match s.hbmAt q.1 with
    | none => s
    | some (k, sb) => if (s.stack k).asleep.isEmpty then s else s.onStack k (·.wake ((s.stack k).serve (lchOf sb) (caOf sb)))) s

/-- Write bytes of HBM at device address a (R164); none: UNMAPPED, and nothing is written. -/
def State.hbmWrite (s : State) (a : Nat) (bs : List Byte) : Option State :=
  let ps := pieces 32 a bs.length
  if ps.any (fun q => (s.hbmAt q.1).isNone) then none
  else some (ps.foldl (fun s q =>
    match s.hbmAt q.1 with
    | none => s
    | some (k, sb) =>
      let x := s.stack k
      let part := (bs.drop (q.1 - a)).take q.2
      if q.2 = 32 then s.setStack k ((x.wake (x.serve (lchOf sb) (caOf sb))).putUnit (x.key sb) part)
      else partialWrite k sb part .clean s) s)

/-- Mark the units of a run poisoned, where they are written whole (R138). -/
def State.hbmPoison (s : State) (addrs : List Nat) : State :=
  addrs.foldl (fun s a =>
    match s.hbmAt a with
    | none => s
    | some (k, sb) => s.onStack k (fun x => x.mark (x.key sb))) s

/-- A demand read meets the poisoned units of a run that no demand read has met (R163). -/
def State.hbmMet (s : State) (a n : Nat) : State :=
  (pieces 32 a n).foldl (fun s q =>
    match s.hbmAt q.1 with
    | none => s
    | some (k, sb) =>
      if (s.stack k).latent.isEmpty then s
      else metLatent k ((s.stack k).serve (lchOf sb) (caOf sb)) (caOf sb / 32 * 32) (sb / 32 * 32) none s) s

/-- Device memory in HBM as every unit but the Plot DMA reads its tables: bytes, or none where UNMAPPED or poisoned. -/
def State.hbmClean (s : State) (a n : Nat) : Option (List Byte) :=
  match s.hbmRead a n with
  | some (bs, []) => some bs
  | _ => none

end Sys2Proof.Machine
end

