-- ==== Sys2Proof/Machine/Furrow.lean ====
section
/-! DEFINITION. The Flume, the Furrows and the Basins (R21 to R52), column sums (R26, R27, R60 to R63), the weight expander
(R69 to R71) and the writes of the Plot registers that wait for an event of their own. -/

namespace Sys2Proof.Machine

/-! ### Column sums -/

/-- A product with its cause (R60, R63): NAN_IN ranks before INVALID_MUL. -/
def cellProduct (a w : Fp) : Fp × Nat :=
  if a.isNan || w.isNan then (.nan, 2) else a.mul w

/-- Sums of neighbours, with the cause found at each (R26). -/
def pairAdd : List Fp → List (Fp × Nat)
  | a :: b :: r => a.add b :: pairAdd r
  | [a] => [(a, 0)]
  | [] => []

/-- The exact in-cell sum of the products of a cell (R26, R60), and the causes of its additions. -/
def cellSum : List Fp → Fp × List Nat
  | [a] => (a, [])
  | [a, b] => let r := a.add b; (r.1, [r.2])
  | [a, b, c, d] =>
    let x := a.add b
    let y := c.add d
    let r := x.1.add y.1
    (r.1, [x.2, y.2, r.2])
  | _ => (.fin false 0 0, [])

/-- A NaN found in a column: core cycle of the row pipeline (R34), TERM, stage and cause. -/
structure ColEv where
  /-- cycle 0 to 6 -/
  cyc : Nat
  /-- TERM (R87) -/
  term : Nat
  /-- STAGE (R87) -/
  stage : Nat
  /-- CAUSE (R87) -/
  cause : Nat
  deriving DecidableEq, Repr

/-- Cut a list into runs of n. -/
def chunks {α : Type} (n : Nat) (l : List α) : List (List α) :=
  (List.range ((l.length + n - 1) / n)).map (fun i => (l.drop (i * n)).take n)

/-- Cell c of a column, from its products (R25, R60, R63, R65): the FP32 value, the NaNs produced and the clamps. -/
def oneCell (ovf : OvfMode) (per : Nat) (ps : List (Fp × Nat)) (c : Nat) : BitVec 32 × List ColEv × Nat :=
  let s := cellSum (ps.map (·.1))
  let r := toFR ovf (s.1, 0)
  let evs := (s.2.filter (· != 0)).map (fun k => ({ cyc := 0, term := c * per, stage := 0, cause := k } : ColEv))
    ++ (ps.zipIdx.filter (fun q => q.1.2 != 0)).map
      (fun q => ({ cyc := 0, term := c * per + q.2, stage := 0, cause := q.1.2 } : ColEv))
  (r.v, evs, r.sat)

/-- The cell stage of a column (R26, R60, R63, R65): the FP32 cells, the NaNs produced and the clamps. -/
def cellStage (ovf : OvfMode) (per : Nat) (prods : List (Fp × Nat)) : List (BitVec 32) × List ColEv × Nat :=
  let cells := (chunks per prods).zipIdx.map (fun q => oneCell ovf per q.1 q.2)
  (cells.map (·.1), cells.flatMap (·.2.1), (cells.map (·.2.2)).sum)

/-- One level of the column tree (R26). -/
def treeLevel (ovf : OvfMode) (lvl : Nat) (c : Nat) : List (BitVec 32) → List (BitVec 32) × List ColEv × Nat
  | a :: b :: r =>
    let x := fadd ovf a b
    let t := treeLevel ovf lvl (c + 1) r
    (x.v :: t.1, (if x.cause = 0 then [] else [{ cyc := lvl, term := 32 * lvl + c, stage := 1, cause := x.cause }]) ++ t.2.1,
     x.sat + t.2.2)
  | l => (l, [], 0)

/-- Multiply each level-3 sum by its block scales, exactly, and round (R27, R60). -/
def scaleLevel (ovf : OvfMode) (sums : List (BitVec 32)) (ea ew : List Byte) : List (BitVec 32) × Nat :=
  let r := sums.zipIdx.map (fun (s, c) =>
    match toFp s with
    | .fin n m e => toFR ovf (.fin n m (e + (ea.getD c 0).toNat + (ew.getD c 0).toNat - 254), 0)
    | _ => { v := s })
  (r.map (·.v), (r.map (·.sat)).sum)

/-- The tree from a level up to 6 (R26): `n` levels remain. -/
def treeUp (ovf : OvfMode) (scales : Option (List Byte × List Byte)) : Nat → Nat → List (BitVec 32) →
    List (BitVec 32) × List ColEv × Nat
  | 0, _, l => (l, [], 0)
  | n + 1, lvl, l =>
    let t := treeLevel ovf lvl 0 l
    let sc := match scales, lvl == 3 with
      | some (ea, ew), true => scaleLevel ovf t.1 ea ew
      | _, _ => (t.1, 0)
    let u := treeUp ovf scales n (lvl + 1) sc.1
    (u.1, t.2.1 ++ u.2.1, t.2.2 + sc.2 + u.2.2)

/-- A column sum (R26, R27, R62): row elements, tile column, and for MXFP4 the scale bytes of the row and of the column. -/
def columnSum (ovf : OvfMode) (fmt : Nat) (row col : List (BitVec 16)) (ea ew : List Byte) :
    BitVec 32 × List ColEv × Nat :=
  if fmt = 5 ∨ fmt = 6 then
    let n := fmtBits fmt
    (BitVec.ofInt 32 ((List.zipWith (fun a w => signed n a.toNat * signed n w.toNat) row col).foldl (· + ·) 0), [], 0)
  else
    let dec (l : List (BitVec 16)) (sc : List Byte) :=
      l.zipIdx.map (fun (c, k) => decodeScaled fmt c (sc.getD (k / 32) 0))
    let prods := List.zipWith cellProduct (dec row ea) (dec col ew)
    let cells := cellStage ovf (tileK fmt / 64) prods
    let t := treeUp ovf (if fmt = 4 then some (ea, ew) else none) 6 1 cells.1
    (t.1.headD 0, cells.2.1 ++ t.2.1, cells.2.2 + t.2.2)

/-- Column j of a tile: the weights of its K-rows. -/
def Tile.column (t : Tile) (j : Nat) : List (BitVec 16) := (chunks 64 t.weights).map (fun r => r.getD j 0)

/-- The scale bytes of column j of an MXFP4 tile (R59). -/
def Tile.colScales (t : Tile) (j : Nat) : List Byte :=
  if t.scales.isEmpty then [] else (List.range 8).map (fun c => t.scales.getD (64 * c + j) 0)

/-! ### The Flume -/

/-- The stream of an issue number. -/
def Plot.stream? (x : Plot) (seq : Nat) : Option Stream := x.streams.find? (fun st => st.seq == seq)

/-- Change the stream of an issue number. -/
def Plot.onStream (x : Plot) (seq : Nat) (f : Stream → Stream) : Plot :=
  { x with streams := x.streams.map (fun st => if st.seq = seq then f st else st) }

/-- Change the outstanding parts of an issued entry (R97). -/
def Plot.onWork (x : Plot) (seq : Nat) (f : Work → Work) : Plot :=
  x.onPacer (fun q => { q with work := q.work.map (fun w => if w.seq = seq then f w else w) })

/-- A stream has written its last Basin row (R97). -/
def Stream.finished (st : Stream) : Bool :=
  st.next = st.rows &&
  (maskList st.mask.toNat).all (fun f => (List.range 8).all (fun g => st.written.get (f * 8 + g) 0 = st.rows))

/-- Take a finished stream out of the Flume's queue and note that part of its entry (R97). -/
def Plot.endStream (x : Plot) (seq : Nat) : Plot :=
  match x.stream? seq with
  | some st =>
    if st.finished then
      ({ x with streams := x.streams.filter (fun t => t.seq != seq) }).onWork seq (fun w => { w with stream := false })
    else x
  | none => x

/-- The row at place i of all eight FIFOs of a Furrow: its segments, when each FIFO holds it (R43). -/
def Furrow.rowAt (fu : Furrow) (i : Nat) : Option (List Seg) :=
  let l := (List.range 8).filterMap (fun k => (fu.fifo.get k [])[i]?)
  if l.length = 8 then some l else none

/-- The row at the head of a Furrow's FIFOs (R30). -/
def Furrow.headRow (fu : Furrow) : Option (Nat × Nat) :=
  ((List.range 8).findSome? (fun k => (fu.fifo.get k []).head?)).map (fun sg => (sg.seq, sg.row))

/-- The active tile is the one the stream uses in Furrow f (R31, R43). -/
def tileReady (st : Stream) (f : Nat) (fu : Furrow) : Bool :=
  match fu.active with
  | none => false
  | some t =>
    match st.useLoad.find? (fun u => u.1 == f) with
    | some (_, some n) => t.seq = n
    | _ => true

/-- Entries in the drain FIFO of column group g (R43). -/
def Furrow.drained (fu : Furrow) (g : Nat) : Nat := (fu.drain.filter (fun d => d.1 == g)).length

/-- A group of Furrow f waits for a load that has not completed (R31, R52). -/
def loadWaits (x : Plot) (f : Nat) (fu : Furrow) : Bool :=
  (List.range 8).any (fun g =>
    match fu.rowAt (fu.taken.get g 0) with
    | none => false
    | some segs =>
      match x.stream? (segs.headD {}).seq with
      | none => false
      | some st =>
        !tileReady st f fu &&
        (match st.useLoad.find? (fun u => u.1 == f) with
         | some (_, some n) => (match fu.shadow with | some t => t.seq != n | none => true)
         | _ => false))

/-- Column group g of Furrow f has rows of a stream left to take (R52). -/
def Plot.rowsLeft (x : Plot) (f g : Nat) : Bool :=
  x.streams.any (fun st => bitOf st.mask.toNat f &&
    st.written.get (f * 8 + g) 0 + ((x.furrow f).drain.filter (fun d => d.1 == g && d.2.1 == st.seq)).length < st.rows)

/-- A correction delays the Flume's read of a row by a cycle (R44, R137): FEED_STALL counts it for each Furrow of the stream with a
column group that has no row to take; a Furrow that waits for a load counts LOAD_WAIT instead (R52). -/
def Plot.feedStalls (x : Plot) (mask : Nat) : Plot :=
  { x with furrows := x.furrows.zipIdx.map (fun (fu, f) =>
      if bitOf mask f && !loadWaits x f fu &&
          (List.range 8).any (fun g => (fu.rowAt (fu.taken.get g 0)).isNone && x.rowsLeft f g)
      then { fu with feedStall := fu.feedStall + 1 } else fu) }

/-- A correction in column group g's part of a Basin row holds the group for a cycle (R39, R52). -/
def Plot.drainStall (x : Plot) (f g : Nat) : Plot :=
  if x.rowsLeft f g && !loadWaits x f (x.furrow f) then x.onFurrow f (fun fu => { fu with drainStall := fu.drainStall + 1 }) else x

/-- The errors that a read of a Basin finds (R39), with the cycle that each correction costs its column group (R44). -/
def basinHits (p f : Nat) (hits : List EccHit) (s : State) : State :=
  hits.foldl (fun s h =>
    let s := basinHit p f h s
    if h.double then s else s.onPlot p (·.drainStall f (h.addr % 32 / 4))) s

/-- Byte address of the scale bytes of the row at data address a (R100): the row may lie below DBASE. -/
def scaleAt (sbase dbase a : Nat) : Int := (sbase : Int) + ((a : Int) - (dbase : Int)) / 16

/-- Byte address of the scale bytes of a stream's row at data address a (R100); the Pacer has checked that it is one (R119). -/
def Stream.scaleAddr (st : Stream) (a : Nat) : Nat := (scaleAt st.scSbase st.scDbase a).toNat

/-- Read a row of the stream into a staging slot (R42, R58, R59, R138). -/
def readRow (p : Nat) (st : Stream) (ecc : List EccHit) (s : State) : State :=
  let a := st.rowAddr st.next
  let sa := st.scaleAddr a
  let s := rsvHits p a 128 ecc s
  let ecs := if st.fmt = 4 then ecc.filter (fun h => h.addr / 128 != a / 128) else []
  let s := rsvHits p sa 8 ecs s
  let fixed (b n : Nat) (hs : List EccHit) : Bool := hs.any (fun h => !h.double && b / 8 ≤ h.addr / 8 && h.addr / 8 ≤ (b + n - 1) / 8)
  let x := s.plot p
  let x := if fixed a 128 ecc || fixed sa 8 ecs then x.feedStalls st.mask.toNat else x
  let elems := codesOf st.fmt.toNat a (x.resv.bytes a 128) (x.badWords a 128)
  let scales := if st.fmt = 4 then maskBytes 0xFF sa (x.resv.bytes sa 8) (x.badWords sa 8) else []
  let todo := (maskList st.mask.toNat).flatMap (fun f => (List.range 8).map (fun g => (f, g)))
  let x := x.onStream st.seq (fun t => { t with next := t.next + 1 })
  let x := if todo.isEmpty then x else
    { x with staging := x.staging ++ [{ seq := st.seq, row := st.next, elems, scales, todo }] }
  s.setPlot p (x.endStream st.seq)

/-- FLUME_ROW_READ: the next row of the oldest stream that has one, while a staging slot is free (R42). -/
def execFlumeRowRead (p : Nat) (ecc : List EccHit) (s : State) : Out := s.plotLive p <|
  let x := s.plot p
  match x.streams.find? (fun st => st.next < st.rows) with
  | some st => when (x.staging.length < 8) (readRow p st ecc s) s
  | none => .next s

/-- The segment of a staged row for cell group g (R42): the elements of eight cell positions and their scale byte. -/
def StagedRow.seg (r : StagedRow) (g : Nat) : Seg :=
  let n := r.elems.length / 8
  { seq := r.seq, row := r.row, elems := (r.elems.drop (g * n)).take n, scale := r.scales.getD g 0 }

/-- Write the segment of a staged row into FIFO g of Furrow f; the row leaves staging with its last segment (R42). -/
def Plot.writeSeg (x : Plot) (r : StagedRow) (f g : Nat) : Plot :=
  let x := x.onFurrow f (fun fu => { fu with fifo := fu.fifo.upd g [] (· ++ [r.seg g]) })
  let keep (t : StagedRow) : Option StagedRow :=
    if t.seq = r.seq ∧ t.row = r.row then
      (let todo := t.todo.filter (· != (f, g)); if todo.isEmpty then none else some { t with todo })
    else some t
  { x with staging := x.staging.filterMap keep }

/-- FLUME_SEGMENT_WRITE: the oldest staged row with that segment to write, once the FIFO has a free entry (R42). -/
def execFlumeSegmentWrite (p f g : Nat) (s : State) : Out := s.plotLive p <|
  let x := s.plot p
  match x.staging.find? (fun r => r.todo.contains (f, g)) with
  | some r => when (((x.furrow f).fifo.get g []).length < 8) (s.setPlot p (x.writeSeg r f g)) s
  | none => .next s

/-! ### Furrows -/

/-- Note that column group g took a row; a row that all eight have taken leaves the FIFOs (R43). -/
def Furrow.noteTaken (fu : Furrow) (g : Nat) : Furrow :=
  let tk := fu.taken.upd g 0 (· + 1)
  if (List.range 8).all (fun k => tk.get k 0 != 0) then
    { fu with taken := (tk.map (fun e => (e.1, e.2 - 1))).filter (fun e => e.2 != 0),
              fifo := fu.fifo.map (fun e => (e.1, e.2.drop 1)) }
  else { fu with taken := tk }

/-- Column group g of Furrow f takes a row: its eight column sums go to the drain FIFO, the NaNs it produced are captured
or counted in the order of their cycles (R26, R34, R78, R79), and a residue fault is reported (R477). -/
def takeRow (p f g : Nat) (st : Stream) (t : Tile) (segs : List Seg) (residue : Option Residue) (s : State) : State :=
  let x := s.plot p
  let row := segs.flatMap (·.elems)
  let ea := segs.map (·.scale)
  let i := (segs.headD {}).row
  let res := (List.range 8).map (fun c =>
    columnSum x.pacer.ovf st.fmt.toNat row (t.column (8 * g + c)) ea (t.colScales (8 * g + c)))
  let sums := (res.map (·.1)).zipIdx.map (fun (v, c) =>
    match residue with | some r => if r.column = c then r.value else v | none => v)
  let evs := (List.range 7).flatMap (fun cyc => res.zipIdx.flatMap (fun (r, c) =>
    (r.2.1.filter (fun e => e.cyc = cyc)).map (fun e =>
      ({ cause := e.cause, stage := e.stage, furrow := f, pos := 8 * g + c, term := e.term, row := i,
         step := st.entry, loop0 := st.loop0 } : NumEv))))
  let x := x.onFurrow f (fun fu =>
    { fu.noteTaken g with drain := fu.drain ++ [(g, st.seq, i, sums)], lastSeq := some st.seq,
                          lastTake := some s.clock.coreCyc })
  let x := x.clamps (res.map (·.2.2)).sum
  let s := numericEvents p evs (s.setPlot p x)
  match residue with
  | some r => plotFault p (if r.tree then 2 else 1) f (t.map.phys (8 * g + r.column)) s
  | none => s

/-- COLUMN_GROUP_TAKE_ROW: the group's next row, when it is in all eight FIFOs, the active tile is its entry's and the
group's drain FIFO has a free entry (R43). -/
def execColumnGroupTakeRow (p f g : Nat) (residue : Option Residue) (s : State) : Out := s.plotLive p <|
  let x := s.plot p
  let fu := x.furrow f
  match fu.rowAt (fu.taken.get g 0) with
  | none => .next s
  | some segs =>
    match x.stream? (segs.headD {}).seq, fu.active with
    | some st, some t => when (tileReady st f fu && fu.drained g < 8) (takeRow p f g st t segs residue s) s
    | _, _ => .next s

/-! ### Basins -/

/-- Write a Basin word with its tag (R36, R80): SET applies the tag rule afresh, ADD keeps a tag that is set. -/
def Furrow.putWord (fu : Furrow) (r c : Nat) (v : BitVec 32) (nan add : Bool) : Furrow :=
  let k := fu.mapRow r * 64 + c
  { fu with words := fu.words.put k v,
            tags := if nan then (if fu.tags.contains k then fu.tags else k :: fu.tags)
                    else if add then fu.tags else fu.tags.filter (· != k) }

/-- A pair-mode ADD (R74): the new hi and lo words, the cause, the clamps. -/
def pairAcc (ovf : OvfMode) (h l c : BitVec 32) : BitVec 32 × BitVec 32 × Nat × Nat :=
  let infs := [h, l, c].filter (fun x => match toFp x with | .inf _ => true | _ => false)
  if isNan32 h || isNan32 l || isNan32 c then (qnan, qnan, 0, 0)
  else match infs with
  | i :: r => if r.all (· == i) then (i, i, 0, 0) else (qnan, qnan, 3, 0)
  | [] =>
    let ovl (v : BitVec 32) : BitVec 32 × BitVec 32 × Nat × Nat :=
      if ovf == .sat then (v - 1, 0, 0, 1) else (v, v, 0, 0)
    let isInf (v : BitVec 32) : Bool := match toFp v with | .inf _ => true | _ => false
    let s := (fadd .ieee h c).v
    if isInf s then ovl s
    else
      let bp := (fsub .ieee s h).v
      let e := (fadd .ieee (fsub .ieee h (fsub .ieee s bp).v).v (fsub .ieee c bp).v).v
      let t := (fadd .ieee l e).v
      let h' := (fadd .ieee s t).v
      if isInf h' then ovl h' else (h', (fsub .ieee t (fsub .ieee h' s).v).v, 0, 0)

/-- A pair-mode SET (R74): h = c, l = +0; a NaN or an infinity fills both words. -/
def pairSet (c : BitVec 32) : BitVec 32 × BitVec 32 :=
  match toFp c with
  | .nan => (qnan, qnan)
  | .inf _ => (c, c)
  | .fin .. => (c, 0)

/-- INT32 addition with saturation (R62), and its clamp. -/
def satAdd32 (a b : BitVec 32) : BitVec 32 × Nat :=
  let v := a.toInt + b.toInt
  if v < -(2 ^ 31) then (0x80000000, 1) else if 2 ^ 31 - 1 < v then (0x7FFFFFFF, 1) else (BitVec.ofInt 32 v, 0)

/-- Write one column sum into its Basin row (R36, R62, R74): the Furrow, the cause, the clamps. An ADD into a poisoned word
leaves it poisoned (DEDUCED, log 12). -/
def Furrow.accumulate (fu : Furrow) (ovf : OvfMode) (fmt r c : Nat) (add : Bool) (v : BitVec 32) :
    Furrow × Nat × Nat :=
  if fmt = 9 then
    if add then
      let q := pairAcc ovf (fu.word (2 * r) c) (fu.word (2 * r + 1) c) v
      ((fu.putWord (2 * r) c q.1 (isNan32 q.1) true).putWord (2 * r + 1) c q.2.1 (isNan32 q.2.1) true, q.2.2.1, q.2.2.2)
    else
      let q := pairSet v
      ((fu.putWord (2 * r) c q.1 (isNan32 q.1) false).putWord (2 * r + 1) c q.2 (isNan32 q.2) false, 0, 0)
  else if fmt = 5 ∨ fmt = 6 then
    if add then let q := satAdd32 (fu.word r c) v; (fu.putWord r c q.1 false true, 0, q.2)
    else (fu.putWord r c v false false, 0, 0)
  else if add then
    let q := fadd ovf (fu.word r c) v
    (fu.putWord r c q.v (isNan32 q.v) true, q.cause, q.sat)
  else (fu.putWord r c v (isNan32 v) false, 0, 0)

/-- A vector operation queued before issue number `seq` reads Basin row r, before spare mapping, of Furrow f (R38). -/
def Plot.vecReads (x : Plot) (seq f r : Nat) : Bool :=
  x.vecQ.any (fun v =>
    let d := parseVx v.desc
    v.seq < seq && d.readsBasin && bitOf d.fmask f &&
    (List.range d.count).any (fun k => (physRows d.pair ((d.brow + k) % (if d.pair then 512 else 1024))).contains r))

/-- Write the column sums of a group into its Basin row (R36, R37): errors found by an ADD's read first (R39), then the
words, the NaNs of the additions (R78) and the end of the stream (R97). -/
def writeBasin (p f g : Nat) (st : Stream) (i : Nat) (sums : List (BitVec 32)) (ecc : List EccHit) (s : State) : State :=
  let r := st.basinRow i
  let rows := physRows (st.fmt = 9) r
  let mine (h : EccHit) : Bool := rows.contains (h.addr / 32) && h.addr % 32 / 4 == g
  let s := if st.add then basinHits p f (ecc.filter mine) s else s
  let x := s.plot p
  let fu := x.furrow f
  let fu := if st.add then fu else
    let ks := rows.flatMap (fun q => (List.range 4).map (fun w => (fu.mapRow q * 64) / 2 + 4 * g + w))
    { fu with poison := fu.poison.filter (fun k => !ks.contains k) }
  let out := sums.zipIdx.foldl (fun (acc : Furrow × List NumEv × Nat) (v, c) =>
    let q := acc.1.accumulate x.pacer.ovf st.fmt.toNat r (8 * g + c) st.add v
    let e : NumEv := { cause := q.2.1, stage := 2, furrow := f, pos := 8 * g + c, term := 0, row := i,
                       step := st.entry, loop0 := st.loop0 }
    (q.1, if q.2.1 = 0 then acc.2.1 else acc.2.1 ++ [e], acc.2.2 + q.2.2)) (fu, [], 0)
  let left := match takeFirst (fun d => d.1 == g) fu.drain with
    | some (_, l) => l
    | none => fu.drain
  let x := x.onFurrow f (fun _ => { out.1 with drain := left })
  let x := (x.onStream st.seq (fun t => { t with written := t.written.upd (f * 8 + g) 0 (· + 1) })).clamps out.2.2
  numericEvents p out.2.1 (s.setPlot p (x.endStream st.seq))

/-- BASIN_ROW_WRITE: the oldest drain entry of the group, once no earlier vector-unit read of its row waits (R36, R38). -/
def execBasinRowWrite (p f g : Nat) (ecc : List EccHit) (s : State) : Out := s.plotLive p <|
  let x := s.plot p
  match (x.furrow f).drain.find? (fun d => d.1 == g) with
  | none => .next s
  | some (_, seq, i, sums) =>
    match x.stream? seq with
    | none => .next s
    | some st =>
      when (!(physRows (st.fmt = 9) (st.basinRow i)).any (fun r => x.vecReads seq f r))
        (writeBasin p f g st i sums ecc s) s

/-! ### Weight loading -/

/-- The weights of an expander tile (R70, R71): codes, metadata, and the target format's codes with the clamps counted.
A NaN weight is a NaN code; its products record NAN_IN. -/
def expandTile (ovf : OvfMode) (w : WexpCfg) (bs : List Byte) : List (BitVec 16) × Nat :=
  let k := tileK w.targetFmt
  let cw := if w.codeW then 2 else 4
  let per := 8 / cw
  let codeAt (i : Nat) : Nat := field (bs.getD (i / per) 0).toNat (i % per * cw) cw
  let tb := fmtBits w.targetFmt / 8
  let r := (List.range k).flatMap (fun row => (List.range 64).map (fun j =>
    let q := codeAt (row * 64 + j)
    let m := w.codeBytes + (row / w.g * 64 + j) * w.metaBytes
    if w.mode then
      let scale := bf16.decode (leNat ((bs.drop m).take 2))
      let zero := bf16.decode (leNat ((bs.drop (m + 2)).take 2))
      let t := (toFR ovf ((Fp.ofInt q).add zero.neg))
      let u := (toFR ovf ((toFp t.v).mul scale))
      let c := convert ovf w.targetFmt u.v
      (BitVec.ofNat 16 c.v, t.sat + u.sat + c.sat)
    else (BitVec.ofNat 16 (leNat ((bs.drop (m + q * tb)).take tb)), 0)))
  (r.map (·.1), (r.map (·.2)).sum)

/-- Read the tile of a load (R58, R59, R70, R138): the tile and the clamps of the expander. The poison rule applies to
codes and metadata read through the expander by making the weights they serve NaN. -/
def readTile (x : Plot) (c : LoadCmd) (map : ColMap) : Tile × Nat :=
  let bs := x.resv.bytes c.addr (tileBytes x c.furrow c.fmt.toNat)
  let bad := x.badWords c.addr bs.length
  if c.furrow = 0 && x.wexp.en then
    let w := x.wexp
    let e := expandTile x.pacer.ovf w bs
    let isBad (off n : Nat) : Bool := bad.any (fun k => (c.addr + off) / 8 ≤ k && k ≤ (c.addr + off + n - 1) / 8)
    let ws := if bad.isEmpty then e.1 else e.1.zipIdx.map (fun (v, i) =>
      if isBad (i * (if w.codeW then 2 else 4) / 8) 1
          || isBad (w.codeBytes + (i / 64 / w.g * 64 + i % 64) * w.metaBytes) w.metaBytes
      then poisonCode w.targetFmt else v)
    ({ fmt := BitVec.ofNat 4 w.targetFmt, seq := c.seq, weights := ws, map }, e.2)
  else
    ({ fmt := c.fmt, seq := c.seq, weights := codesOf c.fmt.toNat c.addr (bs.take 8192) bad,
       scales := if c.fmt = 4 then maskBytes 0xFF (c.addr + 8192) (bs.drop 8192) bad else [], map }, 0)

/-- Start a shadow load (R28): the map and the expander settings are sampled now (R33, R69), and a pending repair of the
column map has then taken effect (R478, COLUMN_SPARED). -/
def startLoad (p : Nat) (c : LoadCmd) (ecc : List EccHit) (s : State) : State :=
  let n := tileBytes (s.plot p) c.furrow c.fmt.toNat
  let s := rsvHits p c.addr n ecc s
  let x := s.plot p
  let fu := x.furrow c.furrow
  let r := readTile x c fu.map
  let x := x.onFurrow c.furrow (fun fu => { fu with loading := some c, loadTile := some r.1, mapPending := false })
  let x := { (x.clamps r.2) with loadQ := x.loadQ.drop 1, wexpPending := if c.furrow = 0 then false else x.wexpPending }
  let s := s.setPlot p x
  if fu.mapPending && fu.map.spareEn then
    event 0x85 3 p [w32 c.furrow, w32 fu.map.badCol.toNat] noDseq s
  else s

/-- SHADOW_LOAD_START: the next load, once no other load runs and its shadow register holds no unused tile (R28, R32). -/
def execShadowLoadStart (p : Nat) (ecc : List EccHit) (s : State) : Out := s.plotLive p <|
  let x := s.plot p
  match x.loadQ with
  | c :: _ => when ((x.furrows.all (fun fu => fu.loading.isNone)) && (x.furrow c.furrow).shadow.isNone)
      (startLoad p c ecc s) s
  | [] => .next s

/-- A load ends: its tile is in the shadow register (R30), and its part of the entry is done (R97). -/
def Plot.endLoad (x : Plot) (c : LoadCmd) : Plot :=
  let x := x.onFurrow c.furrow (fun fu => { fu with loading := none, shadow := fu.loadTile, loadTile := none })
  let x := x.onWork c.seq (fun w => { w with loads := w.loads - 1 })
  if x.loadQ.any (fun d => d.seq == c.seq) then x else { x with loadCmds := x.loadCmds.filter (· != c.seq) }

/-- SHADOW_LOAD_COMPLETE: the load in progress (R28). -/
def execShadowLoadComplete (p : Nat) (s : State) : Out := s.plotLive p <|
  let x := s.plot p
  match x.furrows.findSome? (fun fu => fu.loading) with
  | some c => .next (s.setPlot p (x.endLoad c))
  | none => .next s

/-- The conditions of an exchange (R30, R31): every group has taken the earlier entry's last row, and the next row belongs
to a later entry whose stream takes the completed load in the shadow. -/
def canExchange (x : Plot) (f : Nat) (fu : Furrow) (t : Tile) : Bool :=
  match fu.headRow with
  | none => false
  | some (seq, _) =>
    fu.taken.isEmpty && fu.lastSeq != some seq && t.seq < seq &&
    (match x.stream? seq with
     | some st => st.useLoad.contains (f, some t.seq)
     | none => false)

/-- SHADOW_EXCHANGE (R30). -/
def execShadowExchange (p f : Nat) (s : State) : Out := s.plotLive p <|
  let x := s.plot p
  let fu := x.furrow f
  match fu.shadow with
  | some t => when (canExchange x f fu t)
      (s.setPlot p (x.onFurrow f (fun fu => { fu with active := some t, shadow := none }))) s
  | none => .next s

/-! ### Registers of the Plot whose writes wait -/

/-- Writes to the space of a RETIRED Plot are ignored (R483). -/
def State.plotWritable (s : State) (p : Nat) : Bool :=
  p < 272 && s.plotState p != .retired && s.power.st != .retain

/-- Write a column map (R10, R33, R49): PENDING until the next shadow load. -/
def writeColMap (p f : Nat) (v : BitVec 32) (s : State) : State :=
  s.onPlot p (fun x => x.onFurrow f (fun fu =>
    { fu with mapPending := true,
              map := { badCol := if v.toNat % 128 ≤ 64 then BitVec.ofNat 7 (v.toNat % 128) else fu.map.badCol,
                       spareEn := bitOf v.toNat 7 } }))

/-- PLT_FCOLMAP_WRITE (R33, R49, R483). -/
def execPltFcolmapWrite (p f : Nat) (v : BitVec 32) (s : State) : Out := s.busWrite <|
  when (s.plotWritable p) (writeColMap p f v s) s

/-- Write a Basin spare mapping (R40, R50). -/
def writeBspare (p f e : Nat) (v : BitVec 32) (s : State) : State :=
  applyIfStopped p [] (s.onPlot p (fun x => x.onFurrow f (fun fu =>
    { fu with sparesNext := fu.sparesNext.put e (BitVec.ofNat 10 (v.toNat % 1024), bitOf v.toNat 15) })))

/-- PLT_BSPARE_WRITE (R40, R50, R483). -/
def execPltBspareWrite (p f e : Nat) (v : BitVec 32) (s : State) : Out := s.busWrite <|
  when (s.plotWritable p) (writeBspare p f e v s) s

/-- Write PLT_WEXP (R10, R69, R86). -/
def Plot.writeWexp (x : Plot) (v : Nat) : Plot :=
  { x with wexpPending := true,
           wexp := { en := bitOf v 0, mode := bitOf v 1, codeW := bitOf v 2,
                     group := if field v 3 2 = 3 then x.wexp.group else BitVec.ofNat 2 (field v 3 2),
                     target := if field v 5 2 = 3 then x.wexp.target else BitVec.ofNat 2 (field v 5 2) } }

/-- PLT_WEXP_WRITE (R69, R483). -/
def execPltWexpWrite (p : Nat) (v : BitVec 32) (s : State) : Out := s.busWrite <|
  when (s.plotWritable p) (s.onPlot p (·.writeWexp v.toNat)) s

/-- Clear both numeric counters (R84). -/
def Plot.cntClr (x : Plot) : Plot := { x with cntSat := 0, cntMore := 0 }

/-- CNT_CLR (R84, R483). -/
def execCntClr (p : Nat) (s : State) : Out := s.busWrite <| when (s.plotWritable p) (s.onPlot p Plot.cntClr) s

/-- Clear the eleven Pacer counters (R130). -/
def Plot.pcntClr (x : Plot) : Plot := x.onPacer (fun q => { q with pcnt := q.pcnt.map (fun _ => 0) })

/-- PCNTCTL_CLR (R130, R483). -/
def execPcntctlClr (p : Nat) (s : State) : Out := s.busWrite <| when (s.plotWritable p) (s.onPlot p Plot.pcntClr) s

/-- PLT_PFLAGSET_WRITE (R106, R128, R483). -/
def execPltPflagsetWrite (p : Nat) (v : BitVec 32) (s : State) : Out := s.busWrite <|
  when (s.plotWritable p) (raiseLocal p (v.toNat % 64) s) s

/-- Write the Reservoir spare entry that PLT_RSVREPSEL selects (R139, R157). -/
def writeRsvRep (p : Nat) (v : BitVec 32) (ecc : List EccHit) (s : State) : State :=
  applyIfStopped p ecc (s.onPlot p (fun x =>
    { x with repNext := x.repNext.put x.repSel.toNat (BitVec.ofNat 9 (v.toNat % 512), bitOf v.toNat 9) }))

/-- PLT_RSVREPENT_WRITE (R139, R483). -/
def execPltRsvrepentWrite (p : Nat) (v : BitVec 32) (ecc : List EccHit) (s : State) : Out := s.busWrite <|
  when (s.plotWritable p) (writeRsvRep p v ecc s) s

end Sys2Proof.Machine
end

