-- ==== Sys2Proof/Machine/Packets.lean ====
section
/-! DEFINITION. CRC-32C, the bytes of a packet header (R276, R277), and the packets this device builds. -/

namespace Sys2Proof

/-- One bit of CRC-32C, reflected. -/
def crcBit (c : Nat) : Nat := if c % 2 = 1 then Nat.xor (c / 2) 0x82F63B78 else c / 2

/-- n bits of CRC-32C. -/
def crcBits : Nat → Nat → Nat
  | 0, c => c
  | n + 1, c => crcBits n (crcBit c)

/-- CRC-32C of a byte stream, started with c (R277, R422). The match makes Lean's kernel compute each byte's value before it goes
on to the next; `crcGo_cons` says it without. -/
def crcGo (c : Nat) : List Byte → Nat
  | [] => c
  | b :: bs =>
    match crcBits 8 (Nat.xor c b.toNat) with
    | 0 => crcGo 0 bs
    | n + 1 => crcGo (n + 1) bs

/-- One byte more. -/
theorem crcGo_cons (c : Nat) (b : Byte) (bs : List Byte) :
    crcGo c (b :: bs) = crcGo (crcBits 8 (Nat.xor c b.toNat)) bs := by
  show (match crcBits 8 (Nat.xor c b.toNat) with | 0 => crcGo 0 bs | n + 1 => crcGo (n + 1) bs) = _
  generalize crcBits 8 (Nat.xor c b.toNat) = v
  cases v <;> rfl

/-- CRC-32C with an initial value and a final XOR of all ones (R422). -/
def crc32c (bs : List Byte) : BitVec 32 := BitVec.ofNat 32 (Nat.xor (crcGo 0xFFFFFFFF bs) 0xFFFFFFFF)

/-- The 32 header bytes of a packet (R276). -/
def Packet.header (k : Packet) : List Byte :=
  leBytes 32 (k.cls.toNat + putField 3 (b2n k.spill) + putField 4 (b2n k.down) + putField 5 k.defl.toNat
    + putField 9 (b2n k.baton) + putField 10 k.escWait.toNat + putField 18 k.dst.toNat + putField 32 k.src.toNat
    + putField 48 k.payload.length + putField 60 k.op.toNat + putField 64 k.addr.toNat + putField 112 k.tag.toNat
    + putField 128 k.bcount.toNat + putField 152 k.epoch.toNat + putField 160 k.arg.toNat)

/-- The trailer CRC a packet should carry (R277): SPILL, DOWN, DEFL and ESC_WAIT taken as 0. -/
def Packet.goodCrc (k : Packet) : BitVec 32 :=
  crc32c (Packet.header { k with spill := false, down := false, defl := 0, escWait := 0 } ++ k.payload)

/-- The bytes of a packet on a link: header, payload and trailer (R276, R277). -/
def Packet.bytes (k : Packet) : List Byte := k.header ++ k.payload ++ leBytes 8 k.crc.toNat

/-- Bytes of a packet on a link (R276). -/
def Packet.size (k : Packet) : Nat := 40 + k.payload.length

/-- The classes an operation may travel in (R278). -/
def opClasses (op : Nat) : List Nat :=
  match op with
  | 0 => [2, 4] | 1 => [2, 4] | 2 => [2, 4] | 3 => [0] | 4 => [1] | 5 => [1] | 6 => [1] | 7 => [3] | 8 => [3]
  | 9 => [5] | 10 => [5] | 11 => [5] | 12 => [5] | 13 => [5] | _ => []

/-- A packet is well formed (R276, R278): its OP belongs to its class, its length is no reserved value and DEFL is at most 12. -/
def Packet.legal (k : Packet) : Bool := (opClasses k.op.toNat).contains k.cls.toNat && k.payload.length ≤ 2048 && k.defl.toNat ≤ 12

/-- A READ or a write-type packet, which is answered (R294, R306). COLL_DATA is answered where the Relay asks (R294): the
model's Relay always asks. -/
def Packet.answered (k : Packet) : Bool := k.op = 0 || k.op = 1 || k.op = 2 || k.op = 3 || k.op = 7

/-! ### Flits -/

/-- The header of a flit and its payload filled up with zeros: bytes 0 to 635 (R249). -/
def Flit.body (f : Flit) : List Byte :=
  leBytes 8 (f.type.toNat + putField 2 f.seq.toNat + putField 14 f.ackSeq.toNat + putField 26 (b2n f.nak)
    + putField 27 f.firstPkt.toNat + putField 37 (b2n f.replay)) ++ f.payload ++ List.replicate (628 - f.payload.length) 0

/-- The CRC a flit should carry (R249). -/
def Flit.goodCrc (f : Flit) : BitVec 32 := crc32c f.body

/-- The CRC of a flit holds. -/
def Flit.crcOk (f : Flit) : Bool := f.crc = f.goodCrc

/-- Symbols of the flit's codeword that are wrong (R247). -/
def Flit.badSymbols (f : Flit) : List Nat := (List.range 544).filter f.symErrs.contains

/-- The codeword decodes (R247): RS(544,514) corrects up to 15 symbols. -/
def Flit.decodes (f : Flit) : Bool := f.badSymbols.length ≤ 15

/-- Kind of a CONTROL flit: 1 a Bib, 2 an admission notice, 3 the acknowledgement of a Bib, 4 lanes and width (log 16). -/
def Flit.ctlKind (f : Flit) : BitVec 8 := f.payload.headD 0

/-- Body of a CONTROL flit (log 16). -/
def Flit.ctlBody (f : Flit) : BitVec 256 := BitVec.ofNat 256 (leNat ((f.payload.drop 1).take 32))

end Sys2Proof

namespace Sys2Proof.Machine

/-- The key of a unit's injection queue of a class (R279). Units: 0 the router and what answers packets, 1 the Relay, 2 the
Marshals, 16 + p physical Plot p. -/
def injKey (cls unit : Nat) : Nat := cls + 8 * unit

/-- Put a packet into a unit's injection queue of its class (R279). -/
def enqueueAt (unit : Nat) (k : Packet) (s : State) : State :=
  { s with router := { s.router with
      injQ := s.router.injQ.upd (injKey k.cls.toNat unit) [] (· ++ [{ k with src := s.router.id }]) } }

/-- The router, or what answers packets, sends one (R279). -/
def enqueue (k : Packet) (s : State) : State := enqueueAt 0 k s

/-- The unit that waits for the answer to a request (R279, R294). -/
def Req.unit (r : Req) : Nat := if r.relay then 1 else 16 + r.owner

/-- Build a packet that asks for an answer: it takes the next TAG, and the request is noted (R276, R294). -/
def request (k : Packet) (r : Req) (s : State) : State :=
  let t := s.router.nextTag
  enqueueAt r.unit { k with tag := t }
    { s with router := { s.router with nextTag := t + 1, reqs := s.router.reqs ++ [{ r with tag := t }] } }

/-- Build a packet of a transfer whose packets share one TAG (R276, R294; log 13). -/
def requestTag (k : Packet) (r : Req) (s : State) : State :=
  enqueueAt r.unit { k with tag := r.tag } { s with router := { s.router with reqs := s.router.reqs ++ [r] } }

/-- Answer a packet with an ACK (R278, R294). -/
def sendAck (k : Packet) (s : State) : State := enqueue { cls := 1, op := 5, dst := k.src, tag := k.tag } s

/-- Answer a packet with a NACK and its code (R278, R294). -/
def sendNack (k : Packet) (code : Nat) (s : State) : State :=
  enqueue { cls := 1, op := 6, dst := k.src, tag := k.tag, arg := w32 code } s

/-- Add one credit to outbox n of a Plot (R114). -/
def Pacer.credit (q : Pacer) (n : Nat) : Pacer :=
  { q with outboxes := listUpd q.outboxes n (fun b =>
      if b.credits = 15 then { b with ovf := true } else { b with credits := b.credits + 1 }) }

/-- Deliver a slot credit to outbox n of logical Plot l (R114); an unmapped Plot has none (R481). -/
def giveCredit (l n : Nat) (s : State) : State :=
  match s.phys? l with
  | some p => s.onPlot p (fun x => x.onPacer (·.credit n))
  | none => s

/-- The Pacer of physical Plot p sends a slot credit (R113): to an outbox of this device, or by a CTRL packet whose ARG carries the logical Plot in [7:0]
and the outbox in [9:8] (DESIGN CHOICE, log 13). -/
def sendCredit (p : Nat) (dev : BitVec 14) (l n : Nat) (s : State) : State :=
  if dev = s.router.id then giveCredit l n s
  else enqueueAt (16 + p) { cls := 5, op := 9, dst := dev, arg := w32 (l + 256 * n) } s

end Sys2Proof.Machine
end

