-- ==== Sys2Proof/Machine/Pacer.lean ====
section
/-! DEFINITION. The Pacer: the run controls (R90 to R92), the checks of an entry (R119), waits (R109), issue (R93 to R101),
the CONTROL operations (R104), completion (R97), deferred effects (R112, R113), inboxes (R110, R154), and the passage of
time for the Pacer's and the Furrows' counters (R52, R124). -/

namespace Sys2Proof.Machine

/-! ### Run controls -/

/-- A start from entry e (R91): loop counters, index registers and FAULT cleared, an open batch closed without moving HEAD
(R112), OVF_MODE sampled (R64). -/
def Plot.start (x : Plot) (e : BitVec 12) : Plot :=
  x.onPacer (fun q => { q with
    st := .running, pc := e, loops := [0, 0, 0, 0], ix := [0, 0, 0, 0], fault := 0, checked := false, haltPc := none,
    batchIb := none, batchB := 0,
    ovf := if x.ovfMode then .sat else .ieee })

/-- The states that accept a start (R91). -/
def Pacer.canStart (q : Pacer) : Bool :=
  q.st == .stopped || q.st == .paused || q.st == .numericHalt || q.st == .faultHalt

/-- Start physical Plot p, from PLT_PSTART.ENTRY where no entry is given (R91). -/
def startPlot (p : Nat) (e : Option (BitVec 12)) (s : State) : State :=
  s.onPlot p (fun x => x.start (e.getD x.pacer.startEntry))

/-- A pause (R91): as a stop, but the Pacer enters PAUSED. -/
def pausePlot (p : Nat) (s : State) : State :=
  s.onPlot p (fun x => x.onPacer (fun q => { q with st := .draining, drainTo := .toPaused }))

/-- A resume (R91): issue goes on at the next entry; OVF_MODE is not sampled. -/
def resumePlot (p : Nat) (s : State) : State :=
  s.onPlot p (fun x => x.onPacer (fun q => { q with st := .running, checked := false }))

/-! ### Waits -/

/-- An earlier BATCHEND has yet to take effect (R112). -/
def Pacer.batchEnding (q : Pacer) : Bool := q.deferred.any (fun d => d.2 == none)

/-- The fill-gate condition of an inbox at a Stride Time (R111). -/
def Pacer.fillReady (q : Pacer) (b : Inbox) (now : BitVec 64) : Bool :=
  q.fillMin.toNat ≤ b.present ||
  (1 ≤ b.present && (match b.arrivals with
    | a :: _ => q.fillTo.toNat ≤ now.toNat - a.1.toNat
    | [] => false))

/-- A wait is met (R109, R111 to R114). -/
def Pacer.waitMet (q : Pacer) (w : WorkE) (now : BitVec 64) : Bool :=
  match w.waitKind with
  | 0 => true
  | 1 => q.flags.get (w.waitArg % 64) 0 != 0
  | 2 => (q.ptime.getD (w.waitArg % 4) 0).toNat ≤ now.toNat
  | 3 => q.batchIb.isNone && q.fillReady (q.inbox (w.waitArg % 4)) now
  | 4 => 1 ≤ (q.inbox (w.waitArg % 4)).present
  | 5 => (q.outboxes.getD (w.waitArg % 4) {}).credits != 0
  | _ => false

/-- The counter charged while a wait is unmet (R108, R109, R130). -/
def Pacer.waitCounter (q : Pacer) (w : WorkE) : Nat :=
  match w.waitKind with
  | 1 => match (q.classes.get (w.waitArg % 64) 0).toNat with
    | 0 => 3 | 1 => 4 | 2 => 5 | 3 => 6 | _ => 9
  | 2 => 10
  | 3 => 8
  | 4 => 5
  | _ => 7

/-- The entry has a stream (R99, R100). -/
def WorkE.streams (w : WorkE) : Bool := w.flSrc || w.flRows != 0

/-- Each unit the entry uses has a free slot in its queue of four (R93), which a command leaves when it completes (DESIGN CHOICE,
log 24). -/
def queuesFree (x : Plot) (w : WorkE) : Bool :=
  (!w.streams || x.streams.length < 4) && (w.ldMask = 0 || x.loadCmds.length < 4)
  && (w.vx = 0 || x.vecQ.length < 4) && (w.dma = 0 || x.dmaQ.length < 4)

/-! ### Checks -/

/-- The 32 bytes of a vector-op table slot (R115). -/
def Plot.vxSlot (x : Plot) (n : Nat) : List Byte := x.vtab.bytes (32 * n) 32
/-- The 32 bytes of a DMA descriptor table slot (R150). -/
def Plot.dmaSlot (x : Plot) (n : Nat) : List Byte := x.dtab.bytes (32 * n) 32

/-- The bits of WAIT_ARG that a wait uses (R109). -/
def waitArgBits (k : Nat) : Nat :=
  match k with | 0 => 0 | 1 => 7 | 2 => 2 | 3 => 2 | 4 => 5 | 5 => 2 | _ => 0

/-- RSV_ENC of a WORK entry and its descriptors (R98, R99, R109, R119). -/
def workReserved (x : Plot) (w : WorkE) : Bool :=
  w.rsv || 9 < w.fmt || 9 < w.ldFmt || 5 < w.waitKind || w.waitArg / 2 ^ waitArgBits w.waitKind != 0
  || 4 < w.flIx || 4 < w.ldIx
  || (w.vx != 0 && (let d := parseVx (x.vxSlot w.vx); d.op != 0 && d.reserved))
  || (w.dma != 0 && (let d := parseDma (x.dmaSlot w.dma); d.valid && d.reserved))

/-- EMPTY_SLOT (R119). -/
def workEmptySlot (x : Plot) (w : WorkE) : Bool :=
  (w.vx != 0 && (parseVx (x.vxSlot w.vx)).op = 0) || (w.dma != 0 && !(parseDma (x.dmaSlot w.dma)).valid)

/-- The recorded format of the tile that a Furrow will stream (R68): of the oldest load named and not taken, or of the
active tile; none where it has held no tile. -/
def Furrow.tileFmt (fu : Furrow) : Option (BitVec 4) :=
  match fu.recFmts with
  | (_, f) :: _ => some f
  | [] => fu.curFmt

/-- FORMAT (R68, R102, R119). -/
def workFormat (x : Plot) (w : WorkE) : Bool :=
  (w.streams && (w.fmt = 7 || w.fmt = 8)) || (w.ldMask != 0 && (w.ldFmt = 7 || w.ldFmt = 8))
  || (w.streams && (maskList w.fuMask).any (fun f => (x.furrow f).tileFmt != some (BitVec.ofNat 4 w.fmt)))

/-- The inbox whose batch an FL_SRC 1 stream reads: the entry's own FILL wait's, or the open batch's (R112, R119). -/
def batchInbox (q : Pacer) (w : WorkE) : Option Nat := if w.waitKind = 3 then some (w.waitArg % 4) else q.batchIb

/-- A stream row, and its scale bytes when the format has them, lie inside the Reservoir and are aligned (R100, R119). -/
def streamRowOk (x : Plot) (w : WorkE) (a : Nat) : Bool :=
  a % 128 = 0 && a + 128 ≤ rsvBytes &&
  (w.fmt != 4 ||
    (let m := x.pacer.scmap.getD w.scSel {}
     let b := scaleAt m.sbase.toNat m.dbase.toNat a
     decide (0 ≤ b) && decide (b + 8 ≤ (rsvBytes : Int))))

/-- The stream part of RANGE (R100, R119). -/
def streamRangeOk (x : Plot) (w : WorkE) (ix : Nat) : Bool :=
  if w.flSrc then
    match batchInbox x.pacer w with
    | none => true
    | some n =>
      let b := x.pacer.inbox n
      (List.range b.cap.toNat).all (fun r => streamRowOk x w (b.rowAddr r + w.flAddr * 128 + ix))
  else (List.range w.flRows).all (fun i => streamRowOk x w (w.flAddr * 128 + i * w.flStride * 128 + ix))

/-- The load part of RANGE (R101, R119). -/
def loadRangeOk (x : Plot) (w : WorkE) (ix : Nat) : Bool :=
  let a := w.ldAddr * 512 + ix
  w.ldMask = 0 || (a % 512 = 0 &&
    (maskList w.ldMask).zipIdx.all (fun (f, k) => a + k * tileStep w.ldFmt + tileBytes x f w.ldFmt ≤ rsvBytes))

/-- RANGE (R119, R153) under given index values. `skip`: the index register, 1 to 4, whose addresses are not looked at;
0 looks at all. -/
def workRange (x : Plot) (w : WorkE) (ix : List (BitVec 24)) (skip : Nat) : Bool :=
  let look (n : Nat) : Bool := skip = 0 || n != skip
  (w.streams && look w.flIx && !streamRangeOk x w (ixVal ix w.flIx))
  || (look w.ldIx && !loadRangeOk x w (ixVal ix w.ldIx))
  || (w.vx != 0 && (let d := parseVx (x.vxSlot w.vx)
        (look d.ixA && !(d.inAreas (ixVal ix d.ixA)).all (areaOk d.count))
        || (look d.ixD && !(d.outAreas (ixVal ix d.ixD)).all (areaOk d.count))))
  || (w.dma != 0 && (let d := parseDma (x.dmaSlot w.dma)
        (look d.srcIx && !d.srcOk (ixVal ix d.srcIx)) || (look d.dstIx && !d.dstOk (ixVal ix d.dstIx))))

/-- INBOX_MODE (R119). -/
def workInboxMode (q : Pacer) (w : WorkE) : Bool :=
  let b := q.inbox (w.waitArg % 4)
  (w.waitKind = 3 && (b.cap = 0 || b.slotMode)) || (w.waitKind = 4 && (b.cap = 0 || !b.slotMode || b.slotCount = 0))

/-- The index register an entry's own SLOT_IN wait writes, 1 to 4; 0 for none (R96, R109). -/
def WorkE.writesIx (w : WorkE) : Nat := if w.waitKind = 4 ∧ bitOf w.waitArg 4 then field w.waitArg 2 2 + 1 else 0

/-- The code of the first check a WORK entry fails (R119); 0 for none. -/
def workCheck (x : Plot) (w : WorkE) (i : Nat) : Nat :=
  if workReserved x w then 1
  else if workEmptySlot x w then 2
  else if w.fmt = 9 && 512 ≤ w.base then 3
  else if workFormat x w then 4
  else if workRange x w x.pacer.ix w.writesIx then 5
  else if 4095 ≤ i then 7
  else if w.flSrc && (w.flRows != 0 || (x.pacer.batchIb.isNone && w.waitKind != 3)) then 8
  else if w.waitKind = 3 && x.pacer.batchIb.isSome && !x.pacer.batchEnding then 9
  else if workInboxMode x.pacer w then 10
  else 0

/-- The entry that follows a CONTROL entry at i (R104); HALT keeps its own index. -/
def ctlNext (q : Pacer) (c : CtlE) (i : Nat) : Nat :=
  match c.op with
  | 2 => if 1 < (q.loops.getD c.sel 0).toNat then c.target else i + 1
  | 3 => if (q.flags.get c.flag 0 != 0) == c.sense then i + 1 + c.count else i + 1
  | 4 => c.target
  | 11 => i
  | _ => i + 1

/-- The code of the first check a CONTROL entry fails (R103, R104, R119); 0 for none. -/
def ctlCheck (q : Pacer) (c : CtlE) (i : Nat) : Nat :=
  if c.rsv != 0 || 12 < c.op || (c.op = 3 && c.count = 0)
      || ((c.op = 5 || c.op = 6 || c.op = 12) && c.imm / 2 ^ 24 != 0) then 1
  else if (c.op = 2 || c.op = 4) && i < c.target then 6
  else if 4095 < ctlNext q c i then 7
  else 0

/-- Refuse the entry at i (R120): nothing of it takes effect, and the Pacer drains; what FAULT_HALT reports waits until the entries
issued before have run to completion (`endDrain`). -/
def refuseEntry (p code i : Nat) (s : State) : State :=
  s.onPlot p (fun x => x.onPacer (fun q =>
    { q with st := .draining, drainTo := .toFaultHalt, faultNext := BitVec.ofNat 5 code, pc := BitVec.ofNat 12 i,
             checked := false }))

/-! ### Issue -/

/-- Count a core cycle that issues an entry (R124): RUN and ISSUE. -/
def Pacer.countIssue (q : Pacer) : Pacer :=
  { q with pcnt := listUpd (listUpd q.pcnt 0 (· + 1)) 1 (· + 1) }

/-- What the wait of an entry does on issue (R109, R112 to R114). -/
def Pacer.takeWait (q : Pacer) (w : WorkE) : Pacer :=
  let n := w.waitArg % 4
  let b := q.inbox n
  match w.waitKind with
  | 1 => if bitOf w.waitArg 6 then
      { q with flags := q.flags.put (w.waitArg % 64) (q.flags.get (w.waitArg % 64) 0 - 1) } else q
  | 3 =>
    let bb := min b.present q.fillMax.toNat
    { q with batchIb := some n, batchB := bb }
  | 4 =>
    let a := b.rowAddr b.head
    let q := q.onInbox n (fun b =>
      { b with head := (b.head + b.unitRows) % b.cap.toNat, present := b.present - 1, openSlots := b.openSlots + 1 })
    if bitOf w.waitArg 4 then { q with ix := q.ix.set (field w.waitArg 2 2) (BitVec.ofNat 24 a) } else q
  | 5 => { q with outboxes := listUpd q.outboxes n (fun o => { o with credits := o.credits - 1 }) }
  | _ => q

/-- The stream an entry issues (R100), under the index values and the open batch at issue. -/
def issuedStream (x : Plot) (w : WorkE) (seq i : Nat) : Stream :=
  let q := x.pacer
  let ix := ixVal q.ix w.flIx
  let m := q.scmap.getD w.scSel {}
  let b := q.inbox (q.batchIb.getD 0)
  { seq, entry := i, loop0 := q.loops.getD 0 0, rows := if w.flSrc then q.batchB else w.flRows,
    fmt := BitVec.ofNat 4 w.fmt, mask := BitVec.ofNat 4 w.fuMask, base := BitVec.ofNat 10 w.base, add := w.bAdd,
    addr0 := w.flAddr * 128 + ix, stride := w.flStride * 128,
    ring := if w.flSrc then some (b.base.toNat, b.head, b.cap.toNat, b.pitch.toNat) else none,
    scDbase := m.dbase.toNat, scSbase := m.sbase.toNat,
    useLoad := (maskList w.fuMask).map (fun f => (f, ((x.furrow f).recFmts.head?).map (·.1))) }

/-- Each selected Furrow's stream takes the oldest load named for it (R31, R68). -/
def Furrow.takeLoad (fu : Furrow) : Furrow :=
  match fu.recFmts with
  | (_, f) :: r => { fu with recFmts := r, curFmt := some f }
  | [] => fu

/-- The loads an entry names (R101): one per Furrow of LD_MASK, ascending, at consecutive locations. -/
def issuedLoads (x : Plot) (w : WorkE) (seq : Nat) : List LoadCmd :=
  (maskList w.ldMask).zipIdx.map (fun e =>
    ({ seq, furrow := e.1, addr := w.ldAddr * 512 + ixVal x.pacer.ix w.ldIx + e.2 * tileStep w.ldFmt,
       fmt := BitVec.ofNat 4 (if e.1 = 0 && x.wexp.en then x.wexp.targetFmt else w.ldFmt) } : LoadCmd))

/-- Issue a WORK entry at index i (R93, R96, R99 to R101): its wait takes effect, then its parts go to their units. With FL_SRC 1 it
streams the rows of the batch as it is then, none where BATCHEND has closed it since the check (DESIGN CHOICE, log 24). -/
def issueWork (x : Plot) (w : WorkE) (i : Nat) : Plot :=
  let x := x.onPacer (fun q => q.takeWait w)
  let q := x.pacer
  let seq := q.seq
  let st := issuedStream x w seq i
  let hasSt := w.streams && st.rows != 0
  let ls := issuedLoads x w seq
  let loop0 := q.loops.getD 0 0
  let x := if hasSt then
      { (maskList w.fuMask).foldl (fun x f => x.onFurrow f Furrow.takeLoad) x with streams := x.streams ++ [st] } else x
  let x := ls.foldl (fun x c => x.onFurrow c.furrow (fun fu => { fu with recFmts := fu.recFmts ++ [(seq, c.fmt)] })) x
  let vd := x.vxSlot w.vx
  let dd := x.dmaSlot w.dma
  let x := { x with
    loadQ := x.loadQ ++ ls
    loadCmds := if ls.isEmpty then x.loadCmds else x.loadCmds ++ [seq]
    vecQ := if w.vx = 0 then x.vecQ else
      x.vecQ ++ [({ seq, entry := i, loop0, desc := vd, ixA := ixVal q.ix (parseVx vd).ixA,
                    ixD := ixVal q.ix (parseVx vd).ixD } : VecCmd)]
    dmaQ := if w.dma = 0 then x.dmaQ else
      x.dmaQ ++ [({ seq, slot := w.dma, desc := dd, ixS := ixVal q.ix (parseDma dd).srcIx,
                    ixD := ixVal q.ix (parseDma dd).dstIx } : DmaCmd)] }
  x.onPacer (fun q => { q.countIssue with
    seq := seq + 1, pc := q.pc + 1, checked := false
    work := q.work ++ [({ seq, entry := i, stream := hasSt, loads := ls.length, vec := w.vx != 0, dma := w.dma != 0,
                          raise := BitVec.ofNat 8 w.raise } : Work)] })

/-- The RANGE check of the addresses that use the index register which the entry's own SLOT_IN wait writes, made when that wait is
met, whether or not its queues have room (R96, R119). -/
def slotRangeBad (x : Plot) (w : WorkE) : Bool := w.writesIx != 0 && workRange x w (x.pacer.takeWait w).ix 0

/-- One attempt at a WORK entry at index i (R93, R119): checked once, then issued if its wait is met and its queues have
room. The RANGE check of addresses that use the index its own SLOT_IN writes is made when that wait is met. -/
def tryWork (p i : Nat) (w : WorkE) (s : State) : State :=
  let x := s.plot p
  let code := if x.pacer.checked then 0 else workCheck x w i
  if code != 0 then refuseEntry p code i s
  else if !x.pacer.waitMet w s.now then s.setPlot p (x.onPacer (fun q => { q with checked := true }))
  else if slotRangeBad x w then refuseEntry p 5 i s
  else if queuesFree x w then s.setPlot p (issueWork x w i)
  else s.setPlot p (x.onPacer (fun q => { q with checked := true }))

/-- An entry that no row of the table names: a reserved KIND or CONTROL OP (R98, R104). -/
def oddEntry (v : Nat) : Bool := eKind v = 2 || eKind v = 3 || (eKind v = 1 && 12 < (parseCtl v).op)

/-- WORK_ENTRY_ISSUE (R93): the entry at PC, when it is a WORK entry; an entry with a reserved KIND or OP is refused. -/
def execWorkEntryIssue (p : Nat) (s : State) : Out := s.plotLive p <|
  let x := s.plot p
  let i := x.pacer.pc.toNat
  let v := stepEntry x i
  if x.pacer.st != .running then .next s
  else if eKind v = 0 then .next (tryWork p i (parseWork v) s)
  else when (oddEntry v) (refuseEntry p 1 i s) s

/-! ### Time -/

/-- The core clock of the ordering code in MHz (R1). -/
def State.binMhz (s : State) : Nat := if s.power.orderCode then 1100 else 1250

/-- The clock of power island i in MHz: its grant, under the hardware ceiling, halved by the droop response (R434, R436). -/
def State.islandMhz (s : State) (i : Nat) : Nat :=
  let d := s.power.islands.getD i {}
  let f := if d.hwThrottle then min d.grant (s.binMhz * 6 / 10) else d.grant
  if d.droop then f / 2 else f

/-- Core cycles of a clock of f MHz between two Stride Times. -/
def cyclesIn (f t0 t1 : Nat) : Nat := t1 * f / 1000 - t0 * f / 1000

/-- The counter that advances in each core cycle in which a RUNNING Pacer does not issue (R124): a wait counter, or FULL;
none where the entry could issue and its command has not come. -/
def Plot.idleCounter (x : Plot) (now : BitVec 64) : Option Nat :=
  let v := stepEntry x x.pacer.pc.toNat
  if x.pacer.st != .running || eKind v != 0 then none
  else
    let w := parseWork v
    if !x.pacer.checked && workCheck x w x.pacer.pc.toNat != 0 then none
    else if !x.pacer.waitMet w now then some (x.pacer.waitCounter w)
    else if slotRangeBad x w then none
    else if !queuesFree x w then some 2 else none

/-- A group of Furrow f is stopped by a full drain FIFO whose Basin write waits on an interlock (R38, R52). -/
def drainWaits (x : Plot) (f : Nat) (fu : Furrow) : Bool :=
  (List.range 8).any (fun g =>
    (fu.rowAt (fu.taken.get g 0)).isSome && 8 ≤ fu.drained g &&
    (match fu.drain.find? (fun d => d.1 == g) with
     | none => false
     | some (_, seq, i, _) =>
       match x.stream? seq with
       | none => false
       | some st => (physRows (st.fmt = 9) (st.basinRow i)).any (fun r => x.vecReads seq f r)))

/-- n core cycles pass in a Plot in which nothing happens: the Pacer's counters (R124) and the Furrows' stalls (R52). The one cycle
that a correction costs is counted where it is made (`Plot.feedStalls`, `Plot.drainStall`, log 9). -/
def Plot.passCycles (x : Plot) (n : Nat) (now : BitVec 64) : Plot :=
  if n = 0 then x else
  let y := match x.idleCounter now with
    | some k => x.onPacer (fun q => { q with pcnt := listUpd (listUpd q.pcnt 0 (wrapAdd · n)) k (wrapAdd · n) })
    | none => x
  { y with furrows := x.furrows.zipIdx.map (fun (fu, f) =>
      if loadWaits x f fu then { fu with loadWait := wrapAdd fu.loadWait n }
      else if drainWaits x f fu then { fu with drainStall := wrapAdd fu.drainStall n } else fu) }

/-- n core cycles pass at the injection queues (R286, R310, R313): while a head waits for an output they count as INJ_WAIT. -/
def Router.waited (r : Router) (n : Nat) : Router :=
  if r.injWaits.isEmpty then r else { r with cnt := listUpd r.cnt 9 (wrapAdd · n), winInjWait := r.winInjWait + n }

/-- Stride Time moves from its value to whole ns t1 and fraction fr, with nothing else happening (log 8). -/
def State.passTo (s : State) (t1 : Nat) (fr : BitVec 32) : State :=
  let t0 := s.clock.ns.toNat
  { s with
    clock := { s.clock with ns := BitVec.ofNat 64 t1, frac := fr, coreCyc := s.clock.coreCyc + cyclesIn s.binMhz t0 t1 }
    router := s.router.waited (cyclesIn s.binMhz t0 t1)
    boot := { s.boot with upNs := s.boot.upNs + BitVec.ofNat 64 (t1 - t0) }
    plots := s.plots.mapVals (fun p x => x.passCycles (cyclesIn (s.islandMhz (p / 17)) t0 t1) s.clock.ns) }

/-- The expiry of a timer due at t: Stride Time moves forward to t when that lies ahead (log 8). -/
def State.advanceTo (s : State) (t : Nat) : State := if s.clock.ns.toNat < t ∧ t < 2 ^ 64 then s.passTo t 0 else s

/-- TIME_WAIT_EXPIRY (R109): Stride Time reaches the target of the TIME wait at PC, and its entry issues. -/
def execTimeWaitExpiry (p : Nat) (s : State) : Out := s.plotLive p <|
  let x := s.plot p
  let i := x.pacer.pc.toNat
  let v := stepEntry x i
  let w := parseWork v
  when (x.pacer.st == .running && eKind v = 0 && w.waitKind = 2)
    (tryWork p i w (s.advanceTo (x.pacer.ptime.getD (w.waitArg % 4) 0).toNat)) s

/-- FILL_TIMEOUT (R111): FILL_TIMEOUT passes since the head row's arrival, and the FILL wait at PC is satisfied. -/
def execFillTimeout (p : Nat) (s : State) : Out := s.plotLive p <|
  let x := s.plot p
  let i := x.pacer.pc.toNat
  let v := stepEntry x i
  let w := parseWork v
  if x.pacer.st == .running && eKind v = 0 && w.waitKind = 3 then
    match (x.pacer.inbox (w.waitArg % 4)).arrivals with
    | a :: _ => .next (tryWork p i w (s.advanceTo (a.1.toNat + x.pacer.fillTo.toNat)))
    | [] => .next s
  else .next s

/-! ### CONTROL operations -/

/-- Issue the CONTROL entry at PC when it is operation op (R93, R104): checked, then executed when issued. -/
def issueControl (p op : Nat) (act : CtlE → Nat → Pacer → Pacer) (s : State) : Out :=
  let x := s.plot p
  let i := x.pacer.pc.toNat
  let v := stepEntry x i
  let c := parseCtl v
  if x.pacer.st != .running || eKind v != 1 || c.op != op then .next s
  else
    let code := ctlCheck x.pacer c i
    if code != 0 then .next (refuseEntry p code i s)
    else .next (s.setPlot p (x.onPacer (fun q =>
      let q' := act c i q
      { q'.countIssue with pc := BitVec.ofNat 12 (ctlNext q c i), seq := q.seq + 1, checked := false })))

/-- NOP (R104). -/
def execNop (p : Nat) (s : State) : Out := s.plotLive p <| issueControl p 0 (fun _ _ q => q) s

/-- LOOPSET (R104). -/
def execLoopset (p : Nat) (s : State) : Out := s.plotLive p <|
  issueControl p 1 (fun c _ q => { q with loops := q.loops.set c.sel (w32 c.imm) }) s

/-- LOOP (R104): a counter of 0 stays 0. -/
def execLoop (p : Nat) (s : State) : Out := s.plotLive p <|
  issueControl p 2 (fun c _ q =>
    let l := q.loops.getD c.sel 0
    if l = 0 then q else { q with loops := q.loops.set c.sel (l - 1) }) s

/-- SKIP (R104). -/
def execSkip (p : Nat) (s : State) : Out := s.plotLive p <| issueControl p 3 (fun _ _ q => q) s

/-- RETURN (R104). -/
def execReturn (p : Nat) (s : State) : Out := s.plotLive p <| issueControl p 4 (fun _ _ q => q) s

/-- SETIX (R104). -/
def execSetix (p : Nat) (s : State) : Out := s.plotLive p <|
  issueControl p 5 (fun c _ q => { q with ix := q.ix.set c.sel (BitVec.ofNat 24 c.imm) }) s

/-- ADDIX (R104): modulo 2^24, so the sign extension of IMM[23:0] adds nothing further. -/
def execAddix (p : Nat) (s : State) : Out := s.plotLive p <|
  issueControl p 6 (fun c _ q => { q with ix := q.ix.set c.sel (q.ix.getD c.sel 0 + BitVec.ofNat 24 c.imm) }) s

/-- XORIX (R104). -/
def execXorix (p : Nat) (s : State) : Out := s.plotLive p <|
  issueControl p 12 (fun c _ q => { q with ix := q.ix.set c.sel (q.ix.getD c.sel 0 ^^^ BitVec.ofNat 24 c.imm) }) s

/-- TIMEADD (R104). -/
def execTimeadd (p : Nat) (s : State) : Out := s.plotLive p <|
  issueControl p 7 (fun c _ q => { q with ptime := q.ptime.set c.sel (q.ptime.getD c.sel 0 + BitVec.ofNat 64 c.imm) }) s

/-- CLEAR (R104). -/
def execClear (p : Nat) (s : State) : Out := s.plotLive p <|
  issueControl p 8 (fun c _ q => { q with flags := q.flags.put c.flag 0 }) s

/-- BATCHEND (R112): noted; it takes effect once every entry issued before it is complete. -/
def execBatchend (p : Nat) (s : State) : Out := s.plotLive p <|
  issueControl p 9 (fun _ _ q => { q with deferred := q.deferred ++ [(q.seq, none)] }) s

/-- SLOTFREE (R113): noted; it takes effect once every entry issued before it is complete. -/
def execSlotfree (p : Nat) (s : State) : Out := s.plotLive p <|
  issueControl p 10 (fun c _ q => { q with deferred := q.deferred ++ [(q.seq, some c.inbox)] }) s

/-- HALT (R104): ends the run as a stop does; its index is kept for RUN_END. -/
def execHalt (p : Nat) (s : State) : Out := s.plotLive p <|
  issueControl p 11 (fun _ i q => { q with st := .draining, drainTo := .toHaltStop, haltPc := some (BitVec.ofNat 12 i) }) s

/-! ### Completion -/

/-- Every entry issued before n is complete. -/
def Pacer.doneBefore (q : Pacer) (n : Nat) : Bool := q.work.all (fun w => n ≤ w.seq)

/-- A deferred effect whose earlier entries are complete (R112, R113). -/
def Pacer.due (q : Pacer) (pick : Option Nat → Bool) : Option ((Nat × Option Nat) × List (Nat × Option Nat)) :=
  takeFirst (fun d => pick d.2 && q.doneBefore d.1) q.deferred

/-- Take n rows off the arrival queue (R111). -/
def dropArrivals : Nat → List (BitVec 64 × Nat) → List (BitVec 64 × Nat)
  | _, [] => []
  | n, (t, k) :: r => if n < k then (t, k - n) :: r else dropArrivals (n - k) r

/-- BATCHEND takes effect (R112): HEAD advances by B, PRESENT falls by B, the batch closes. -/
def Pacer.endBatch (q : Pacer) : Pacer :=
  match q.batchIb with
  | none => q
  | some n =>
    { q.onInbox n (fun b => { b with head := (b.head + q.batchB) % b.cap.toNat, present := b.present - q.batchB,
                                     arrivals := dropArrivals q.batchB b.arrivals })
      with batchIb := none, batchB := 0 }

/-- BATCHEND_EFFECT (R112). -/
def execBatchendEffect (p : Nat) (s : State) : Out := s.plotLive p <|
  match (s.plot p).pacer.due (fun d => d.isNone) with
  | none => .next s
  | some (_, r) => .next (s.onPlot p (fun x => x.onPacer (fun q => { q.endBatch with deferred := r })))

/-- SLOTFREE takes effect on an inbox (R113): its oldest open slot is freed and one credit goes to the sender's outbox. -/
def freeSlot (p n : Nat) (s : State) : State :=
  let b := (s.plot p).pacer.inbox n
  if b.openSlots = 0 then s
  else sendCredit p b.srcDevice b.srcPlot.toNat b.srcOutbox.toNat
    (s.onPlot p (fun x => x.onPacer (·.onInbox n (fun b => { b with openSlots := b.openSlots - 1 }))))

/-- SLOTFREE_EFFECT (R113). -/
def execSlotfreeEffect (p : Nat) (s : State) : Out := s.plotLive p <|
  match (s.plot p).pacer.due (fun d => d.isSome) with
  | none => .next s
  | some (d, r) =>
    .next (freeSlot p (d.2.getD 0) (s.onPlot p (fun x => x.onPacer (fun q => { q with deferred := r }))))

/-- Every part of an issued entry has finished (R97). -/
def Work.finished (w : Work) : Bool := !w.stream && w.loads = 0 && !w.vec && !w.dma

/-- ENTRY_COMPLETE (R97): the entry is complete and its RAISE is made. -/
def execEntryComplete (p seq : Nat) (s : State) : Out := s.plotLive p <|
  match takeFirst (fun w => w.seq == seq && w.finished) (s.plot p).pacer.work with
  | none => .next s
  | some (w, r) => .next (makeRaise p w.raise (s.onPlot p (fun x => x.onPacer (fun q => { q with work := r }))))

/-- The state a drain ends in (R90). -/
def DrainTo.state : DrainTo → PacerSt
  | .toStopped => .stopped
  | .toPaused => .paused
  | .toNumericHalt => .numericHalt
  | .toFaultHalt => .faultHalt
  | .toHaltStop => .stopped

/-- The drain of a Pacer ends (R90, R104): its new state, the waiting spare mappings where that is STOPPED (R40, R139), RUN_END after
a HALT, and after a refusal FAULT with its RUN_FAULT record and STEP_FATAL (R120), also where a stop has overtaken the FAULT_HALT
(DESIGN CHOICE, log 14). -/
def endDrain (p : Nat) (ecc : List EccHit) (s : State) : State :=
  let q := (s.plot p).pacer
  let s := s.onPlot p (fun x => x.onPacer (fun q =>
    { q with st := q.drainTo.state, haltPc := none, faultNext := 0, fault := if q.faultNext = 0 then q.fault else q.faultNext }))
  let s := applyIfStopped p ecc s
  let s := match q.haltPc with
    | some i => note 2 p [s.lplotW p, w32 i.toNat] noDseq s
    | none => s
  if q.faultNext = 0 then s else event 3 4 p [s.lplotW p, w32 q.faultNext.toNat, w32 q.pc.toNat] noDseq s

/-- DRAIN_COMPLETE (R90): every issued entry is complete. -/
def execDrainComplete (p : Nat) (ecc : List EccHit) (s : State) : Out := s.plotLive p <|
  let q := (s.plot p).pacer
  when (q.st == .draining && q.work.isEmpty && q.deferred.isEmpty) (endDrain p ecc s) s

/-! ### Inbox appends -/

/-- Units reserved by appends in flight (R110). -/
def Inbox.reserved (b : Inbox) : Nat := (b.resv.map (·.units)).sum

/-- The append matches the inbox (R154): in its mode, and of its geometry. -/
def Inbox.matches (b : Inbox) (slot : Bool) (rows rowB : Nat) : Bool :=
  b.cap != 0 && b.slotMode == slot &&
  (if slot then b.slotCount != 0 && rows * rowB = b.unitRows * b.pitch.toNat * 128 else rowB = b.pitch.toNat * 128)

/-- The first bytes of an append arrive at inbox n of physical Plot p (R110, R154): it reserves tail space, or answers false
where it does not match; an overrun is recorded. -/
def appendReserve (p n : Nat) (slot : Bool) (rows rowB tag : Nat) (s : State) : Bool × State :=
  let b := (s.plot p).pacer.inbox n
  let need := if slot then 1 else rows
  if !b.matches slot rows rowB then (false, s)
  else if b.units < b.present + b.openSlots + b.reserved + need then
    let s := s.onPlot p (fun x => x.onPacer (fun q =>
      { q.onInbox n (fun b => { b with overrun := true }) with inboxOvr := true }))
    (false, note 4 p [s.lplotW p, w32 n, w32 b.present] noDseq s)
  else
    let start := (b.head + (b.present + b.reserved) * b.unitRows) % b.cap.toNat
    (true, s.onPlot p (fun x => x.onPacer (·.onInbox n (fun b =>
      { b with resv := b.resv ++ [{ tag, units := need, start, slot, rowBytes := rowB }] }))))

/-- Bytes of a reservation. -/
def Inbox.resvBytes (b : Inbox) (r : Resv) : Nat := r.units * b.unitRows * b.pitch.toNat * 128

/-- The Reservoir address of byte o of a reservation (R154): rows wrap at CAP, and a slot's rows are packed. -/
def Inbox.resvAddr (b : Inbox) (r : Resv) (o : Nat) : Nat :=
  let rb := b.pitch.toNat * 128
  b.rowAddr ((r.start + o / rb) % b.cap.toNat) + o % rb

/-- Write bytes to a Reservoir (R135, R138): a poisoned word overwritten whole is poisoned no more. -/
def Plot.writeRsv (x : Plot) (a : Nat) (bs : List Byte) : Plot :=
  { x with resv := x.resv.write a bs,
           resvPoison := if x.resvPoison.isEmpty then [] else
             x.resvPoison.filter (fun w => !(a ≤ 8 * w && 8 * w + 8 ≤ a + bs.length)) }

/-- Write a run of an append's bytes, from byte o of its reservation: row by row, since the ring wraps. -/
def writeResv (x : Plot) (b : Inbox) (r : Resv) (rb : Nat) : Nat → Nat → List Byte → Plot
  | 0, _, _ => x
  | fuel + 1, o, bs =>
    if bs.isEmpty then x else
    let k := rb - o % rb
    writeResv (x.writeRsv (b.resvAddr r o) (bs.take k)) b r rb fuel (o + k) (bs.drop k)

/-- Bytes of an append land at byte o of its reservation (R154). -/
def appendLand (p n tag o : Nat) (bs : List Byte) (s : State) : State :=
  let x := s.plot p
  let b := x.pacer.inbox n
  match b.resv.find? (fun r => r.tag == tag) with
  | none => s
  | some r =>
    let x := writeResv x b r (b.pitch.toNat * 128) (bs.length + 1) o bs
    s.setPlot p (x.onPacer (·.onInbox n (fun b =>
      { b with resv := b.resv.map (fun t => if t.tag = tag then { t with landed := t.landed ++ [(o, bs.length)] } else t) })))

/-- The bytes of a reservation that no part of the append covered. -/
def Inbox.gaps (b : Inbox) (r : Resv) : List Nat :=
  let n := b.resvBytes r
  if n ≤ (r.landed.map (·.2)).sum then []
  else (List.range n).filter (fun o => !r.landed.any (fun l => l.1 ≤ o && o < l.1 + l.2))

/-- Fill the bytes that did not land with undefined values (R154, log 2). -/
def fillGaps (p n tag : Nat) (s : State) : State :=
  let b := (s.plot p).pacer.inbox n
  match b.resv.find? (fun r => r.tag == tag) with
  | none => s
  | some r =>
    let gs := b.gaps r
    let d := s.drawBytes gs.length
    d.2.onPlot p (fun x => (List.zip gs d.1).foldl (fun x e => x.writeRsv (b.resvAddr r e.1) [e.2]) x)

/-- Completed reservations at the front of the order enter PRESENT at Stride Time t (R111, R154). -/
def Inbox.enter (t : BitVec 64) (b : Inbox) : List Resv → Inbox
  | [] => { b with resv := [] }
  | r :: rs =>
    if r.done then
      let arr := if b.slotMode then b.arrivals
        else if b.arrivals.length < 64 then b.arrivals ++ [(t, r.units)]
        else listUpd b.arrivals (b.arrivals.length - 1) (fun a => (a.1, a.2 + r.units))
      Inbox.enter t { b with present := b.present + r.units, arrivals := arr } rs
    else { b with resv := r :: rs }

/-- An append ends (R154): it and every completed one after it enter PRESENT once every earlier one has completed. -/
def appendEnd (p n tag : Nat) (s : State) : State :=
  let s := fillGaps p n tag s
  s.onPlot p (fun x => x.onPacer (·.onInbox n (fun b =>
    let rs := b.resv.map (fun r => if r.tag = tag then { r with done := true } else r)
    b.enter s.now rs)))

end Sys2Proof.Machine
end

