-- ==== Sys2Proof/Machine/Sluice.lean ====
section
/-! DEFINITION. The Sluices (R180 to R204, R211): the tables and their sampling, the inlet, the conditioning and the update
rules, the evaluation of schedules, and the pipe map. -/

namespace Sys2Proof.Machine

/-- The Sluice of stack k. -/
def State.sluice (s : State) (k : Nat) : Sluice := (s.stack k).sluice
/-- Change the Sluice of stack k. -/
def State.onSluice (s : State) (k : Nat) (f : Sluice → Sluice) : State := s.onStack k (fun x => { x with sluice := f x.sluice })

/-- A STEP_FATAL event that posts no record of its own (R473, R474). -/
def stepFatal (s : State) : State := stepFatalEffect (countClass 4 s)

/-! ### Tables -/

/-- A Segment Map entry (R184). -/
structure SegE where
  /-- GROUP -/
  group : Nat
  /-- RULE -/
  rule : Nat
  /-- VALID -/
  valid : Bool
  /-- STATIC -/
  static : Bool
  /-- FMASK_EN -/
  fmaskEn : Bool
  /-- COPY_FMT -/
  copyFmt : Nat
  /-- COUNT -/
  count : Nat
  /-- FSLOT -/
  fslot : Nat
  /-- W_BASE -/
  w : Nat
  /-- M_BASE -/
  m : Nat
  /-- V_BASE -/
  v : Nat
  /-- CC_BASE -/
  cc : Nat
  /-- FMASK_ADDR -/
  fmask : Nat
  /-- MAT_OFF -/
  matOff : Nat
  /-- a reserved field that is not 0 -/
  rsv : Bool
  deriving DecidableEq, Repr

/-- The fields of a Segment Map entry (R184). -/
def parseSeg (b : List Byte) : SegE :=
  let n := leNat b
  let w (i : Nat) := field n (64 * i) 64
  { group := field (w 0) 0 10, rule := field (w 0) 10 3, valid := bitOf (w 0) 13, static := bitOf (w 0) 14,
    fmaskEn := bitOf (w 0) 15, copyFmt := field (w 0) 16 2, count := field (w 0) 18 15, fslot := field (w 0) 33 10,
    w := field (w 1) 0 48, m := field (w 2) 0 48, v := field (w 3) 0 48, cc := field (w 4) 0 48,
    fmask := field (w 5) 0 48, matOff := field (w 6) 0 40,
    rsv := field (w 0) 43 21 != 0 || [1, 2, 3, 4, 5].any (fun i => field (w i) 48 16 != 0) || field (w 6) 40 24 != 0
      || w 7 != 0 }

/-- A group table entry (R187). -/
structure GrpE where
  /-- SCHED_ADDR -/
  sched : Nat
  /-- NPOINTS -/
  npoints : Nat
  /-- INTERP -/
  interp : Bool
  /-- BIAS_CORR -/
  bias : Bool
  /-- NESTEROV -/
  nesterov : Bool
  /-- NONFIN -/
  skip : Bool
  /-- CLIP_DOM -/
  clipDom : Nat
  /-- LEDGER_EN -/
  ledgerEn : Bool
  /-- T0 -/
  t0 : Nat
  /-- EPS -/
  eps : BitVec 32
  /-- CLIP_ELEM -/
  clipElem : BitVec 32
  /-- CLIP_NORM -/
  clipNorm : BitVec 32
  /-- COPY_SCALE -/
  copyScale : BitVec 32
  /-- EPS1 -/
  eps1 : BitVec 32
  /-- CLIP_D -/
  clipD : BitVec 32
  /-- a reserved field that is not 0 -/
  rsv : Bool
  deriving DecidableEq, Repr

/-- The fields of a group table entry (R187). -/
def parseGrp (b : List Byte) : GrpE :=
  let n := leNat b
  let w (i : Nat) := field n (8 * i) 32
  { sched := field n 0 48, npoints := field (w 8) 0 17, interp := bitOf (w 8) 17, bias := bitOf (w 8) 18,
    nesterov := bitOf (w 8) 19, skip := bitOf (w 8) 20, clipDom := field (w 8) 21 4, ledgerEn := bitOf (w 8) 25,
    t0 := field (w 12) 0 31, eps := w32 (w 0x10), clipElem := w32 (w 0x14), clipNorm := w32 (w 0x18),
    copyScale := w32 (w 0x1C), eps1 := w32 (w 0x20), clipD := w32 (w 0x24),
    rsv := field n 48 16 != 0 || field (w 8) 26 6 != 0 || bitOf (w 12) 31 || field n (8 * 0x28) 192 != 0 }

/-- A factor descriptor (R200). -/
structure FactD where
  /-- ROWS -/
  rows : Nat
  /-- COLS -/
  cols : Nat
  /-- FR_BASE -/
  fr : Nat
  /-- FC_BASE -/
  fc : Nat
  /-- ACC_BASE -/
  acc : Nat
  /-- RA_BASE -/
  ra : Nat
  /-- a reserved field that is not 0 -/
  rsv : Bool
  deriving DecidableEq, Repr

/-- The fields of a factor descriptor (R200). -/
def parseFact (b : List Byte) : FactD :=
  let n := leNat b
  let w (i : Nat) := field n (8 * i) 64
  { rows := field n 0 32, cols := field n 32 32, fr := field (w 8) 0 48, fc := field (w 0x10) 0 48,
    acc := field (w 0x18) 0 48, ra := field (w 0x20) 0 48,
    rsv := [8, 0x10, 0x18, 0x20].any (fun i => field (w i) 48 16 != 0) || field n (8 * 0x28) 192 != 0 }

/-- FP32 words of one half of a matrix's accumulators (R200). -/
def FactD.accLen (d : FactD) : Nat := d.rows + d.cols + 2

/-- A run lies wholly in a region LOCAL to stack k with SLUICE set (R148, R185). -/
def State.slcRegion (s : State) (k a n : Nat) : Bool :=
  s.regions.tbl.any (fun e =>
    let r := e.2
    r.valid && r.mode = 2 && r.stack.toNat = k && r.sluice && r.base.toNat * 4096 ≤ a
      && a + n ≤ r.base.toNat * 4096 + r.bytes)

/-- The n bytes at a as the Sluice of stack k reads a table (R180, R185, R189): none where they do not lie wholly in a region LOCAL to
its stack with SLUICE set, or hold a poisoned unit. -/
def State.slcRead (s : State) (k a n : Nat) : Option (List Byte) := if s.slcRegion k a n then s.hbmClean a n else none

/-- The Sluice of stack k has read n bytes at a (R163, R177): channels it touched are awake, and poisoned units have been met. -/
def State.slcMet (s : State) (k a n : Nat) : State := if s.slcRegion k a n then (s.hbmMet a n).hbmTouch a n else s

/-- Bytes of a compute-copy element (R183, R184). -/
def SegE.ccBytes (e : SegE) : Nat := if e.copyFmt = 0 then 2 else 1

/-- The address of element j of half h of an array (R183). -/
def arrAddr (base eb h j : Nat) : Nat := base + (h * 16384 + j) * eb

/-- The FP32 state arrays of a rule beside W: (ARRAY code, base) (R183). FACTOR has M where a base is given. -/
def SegE.states (e : SegE) : List (Nat × Nat) :=
  match e.rule with
  | 1 => [(1, e.m), (2, e.v)]
  | 3 => if e.m = 0 then [] else [(1, e.m)]
  | _ => [(1, e.m)]

/-- The factor tables of a matrix lie where they must (R185, R200); COLS is a multiple of 64 and not 0 (log 63). -/
def State.factOk (s : State) (k : Nat) (d : FactD) : Bool :=
  !d.rsv && d.cols != 0 && d.cols % 64 = 0
  && s.slcRegion k d.fr (8 * (d.rows + 1)) && s.slcRegion k d.fc (8 * d.cols)
  && s.slcRegion k d.acc (8 * d.accLen) && s.slcRegion k d.ra (4 * d.accLen)

/-- A valid entry of the Segment Map passes the checks of R185 that concern itself and its factor descriptor; FSLOT names one of the
FACT_COUNT descriptors (log 63). -/
def State.segOk (s : State) (k : Nat) (c : SluiceCfg) (e : SegE) : Bool :=
  !e.rsv && e.rule < 4 && e.copyFmt < 3 && 1 ≤ e.count && e.count ≤ 16384
  && [e.w, e.m, e.v, e.cc].all (· % 4096 = 0) && e.fmask % 32 = 0
  && ((e.w, 4) :: (e.cc, e.ccBytes) :: e.states.map (fun a => (a.2, 4))).all
      (fun a => s.slcRegion k a.1 ((16384 + e.count) * a.2))
  && (!e.fmaskEn || s.slcRegion k e.fmask 32)
  && (e.rule != 3 || (e.count % 64 = 0 && e.matOff % 64 = 0 && e.fslot < c.factCount.toNat
      && (match s.slcRead k (c.factBase.toNat + 64 * e.fslot) 64 with
          | some b => s.factOk k (parseFact b)
          | none => false)))

/-- A group's entry can be used (R185, R187). NPOINTS outside 1 to 65,536 is a reserved encoding. -/
def GrpE.ok (g : GrpE) : Bool :=
  !g.rsv && !(8 ≤ g.clipDom && g.clipDom ≤ 14) && 1 ≤ g.npoints && g.npoints ≤ 65536

/-- The rejection of a segment, or of a gather of one, is noted (R185, R212). -/
def segErr (k seg : Nat) (s : State) : State :=
  latchCause 6 (s.onSluice k (fun x =>
    { x with stale0 := if x.segErr then x.stale0 else BitVec.ofNat 18 seg, segErr := true }))

/-- The Sluice of stack k samples its tables at the bases in force (R180, R185, R190); a poisoned unit of them is a demand read's
(R163). -/
def sampleStack (k : Nat) (s : State) : State :=
  let c := (s.sluice k).cfg
  let ents := (List.range c.smapCount.toNat).map (fun i => (i, s.slcRead k (c.smapBase.toNat + 64 * i) 64))
  let segs := ents.map (fun e => (e.1, e.2.map parseSeg))
  let gs := (segs.filterMap (fun e => match e.2 with | some g => if g.valid then some g.group else none | none => none)).eraseDups
  let grps := gs.map (fun g => (g, s.slcRead k (c.grpBase.toNat + 64 * g) 64))
  let facts := (List.range c.factCount.toNat).map (fun i => (i, s.slcRead k (c.factBase.toNat + 64 * i) 64))
  let mem (l : List (Nat × Option (List Byte))) : Mem :=
    l.foldl (fun m e => match e.2 with | some b => m.write (64 * e.1) b | none => m) []
  let grpOk (g : Nat) : Bool := grps.any (fun e => e.1 == g && (match e.2 with | some b => (parseGrp b).ok | none => false))
  let bad := (segs.filter (fun e => match e.2 with
    | none => true
    | some g => g.valid && !(s.segOk k c g && grpOk g.group))).map (·.1)
  let lost (base : Nat) (l : List (Nat × Option (List Byte))) (s : State) : State :=
    l.foldl (fun s e => s.slcMet k (base + 64 * e.1) 64) s
  let s := s.onSluice k (fun x => { x with cur := c, smap := mem ents, grpTab := mem grps, factTab := mem facts, rejected := bad })
  let s := lost c.factBase.toNat facts (lost c.grpBase.toNat grps (lost c.smapBase.toNat ents s))
  bad.foldl (fun s i => segErr k i s) s

/-- Every Sluice samples its tables, and starts the evaluation of its schedules (R189, R190). -/
def sampleAll (s : State) : State :=
  (List.range 24).foldl (fun s k => (sampleStack k s).onSluice k (fun x => { x with evalBusy := true })) s

/-- A change of a Sluice's registers while the controller is IDLE takes effect at once (R190). -/
def sampleIdle (k : Nat) (s : State) : State := if s.commit.st == .idle then sampleStack k s else s

/-- n bytes of a table of the Sluice of stack k while a plan runs (R190): those sampled; where the table has been written since, whether the Sluice
sees the write is undefined (log 2). -/
def tableRead (k : Nat) (old : List Byte) (a n : Nat) (s : State) : List Byte × State :=
  match s.slcRead k a n with
  | none => (old, s.slcMet k a n)
  | some live =>
    if live = old then (old, s)
    else
      let d := s.draw
      (if d.1.getLsbD 0 then live else old, d.2)

/-- Segment i's entry as the Sluice of stack k reads it (R190). -/
def readSeg (k i : Nat) (s : State) : SegE × State :=
  let x := s.sluice k
  let r := tableRead k (x.smap.bytes (64 * i) 64) (x.cur.smapBase.toNat + 64 * i) 64 s
  (parseSeg r.1, r.2)

/-- Group g's entry as the Sluice of stack k reads it (R190). -/
def readGrp (k g : Nat) (s : State) : GrpE × State :=
  let x := s.sluice k
  let r := tableRead k (x.grpTab.bytes (64 * g) 64) (x.cur.grpBase.toNat + 64 * g) 64 s
  (parseGrp r.1, r.2)

/-- Factor descriptor f as the Sluice of stack k reads it (R190). -/
def readFact (k f : Nat) (s : State) : FactD × State :=
  let x := s.sluice k
  let r := tableRead k (x.factTab.bytes (64 * f) 64) (x.cur.factBase.toNat + 64 * f) 64 s
  (parseFact r.1, r.2)

/-- Segment i's entry as sampled. -/
def Sluice.seg (x : Sluice) (i : Nat) : SegE := parseSeg (x.smap.bytes (64 * i) 64)

/-- The segments of the map that are valid, as sampled: those that can be read. -/
def Sluice.segs (x : Sluice) : List (Nat × SegE) :=
  ((List.range x.cur.smapCount.toNat).map (fun i => (i, x.seg i))).filter (fun e => e.2.valid)

/-- A segment takes gradient elements (R192): it is valid, not STATIC and not rejected. -/
def State.segTakes (s : State) (k i : Nat) (e : SegE) : Bool :=
  i < (s.sluice k).cur.smapCount.toNat && e.valid && !e.static && !(s.sluice k).rejected.contains i

/-! ### Tags -/

/-- The tag-store entry of segment i (R211). -/
def State.segTag (s : State) (k i : Nat) : SegTag := (s.sluice k).tags.get i {}

/-- Change it. -/
def State.onSegTag (s : State) (k i : Nat) (f : SegTag → SegTag) : State :=
  s.onSluice k (fun x => { x with tags := x.tags.upd i {} f })

/-- STEP of the tag that segment i serves (R211). -/
def State.served (s : State) (k i : Nat) : BitVec 31 :=
  let t := s.segTag k i
  match t.pin with
  | some v => v
  | none => if s.commit.mode && t.pend then s.commit.step + 1 else s.commit.step

/-- SLC_TAGRD0 and SLC_TAGRD1 of segment i (R218). -/
def State.tagWords (s : State) (k i : Nat) : Nat × Nat :=
  let t := s.segTag k i
  let st := (s.served k i).toNat
  (st + putField 31 (st % 2) + putField 32 (b2n t.pend) + putField 33 t.hold.toNat + putField 41 t.recv, t.holdStep.toNat)

/-! ### The inlet -/

/-- The controller keeps blocks waiting, and elements belong to the next step (R193). -/
def State.decided (s : State) : Bool := s.commit.st == .verdict || s.commit.st == .pending

/-- Elements of the open step are checked and counted in RECV (R192): answers those kept. -/
def countElems (k seg first : Nat) (e : SegE) (elems : List (BitVec 32 × Bool)) (s : State) :
    List (BitVec 32 × Bool) × State :=
  let t := s.segTag k seg
  let room := if s.segTakes k seg e then min (e.count - t.recv) (e.count - first) else 0
  let keep := elems.take room
  let s := s.onSegTag k seg (fun t => { t with recv := t.recv + keep.length })
  if keep.length < elems.length then
    (keep, latchCause 1 (s.onSluice k (fun x => { x with inletErr := true })))
  else (keep, s)

/-- The block is whole (R191): it reaches the end of its 64 elements, or COUNT. -/
def InletBlock.whole (b : InletBlock) (count : Nat) : Bool :=
  let e := b.first + b.elems.length
  e % 64 = 0 || e = count

/-- Put one element into the inlet: into the last block of its segment where it goes on from it, or into a new one. -/
def pushElem (seg i : Nat) (v : BitVec 32 × Bool) (next : Bool) (held : Option (BitVec 64)) (q : List InletBlock) :
    List InletBlock :=
  if i % 64 != 0 && q.any (fun b => b.seg == seg && b.next == next && b.first + b.elems.length == i) then
    q.map (fun b => if b.seg == seg && b.next == next && b.first + b.elems.length == i then { b with elems := b.elems ++ [v] } else b)
  else q ++ [{ seg, first := i, elems := [v], next, heldFrom := held }]

/-- Put elements into the inlet (R191, R193). -/
def pushElems (k seg first : Nat) (elems : List (BitVec 32 × Bool)) (next : Bool) (s : State) : State :=
  let held := if (s.segTag k seg).hold = 0 then none else some s.now
  s.onSluice k (fun x => { x with
    inlet := elems.zipIdx.foldl (fun q e => pushElem seg (first + e.2) e.1 next held q) x.inlet })

/-- Gradient elements arrive at the inlet of stack k (R191, R192, R193). -/
def elementArrive (k seg first : Nat) (elems : List (BitVec 32 × Bool)) (s : State) : State :=
  if s.decided || (s.commit.mode && (s.segTag k seg).pend) then pushElems k seg first elems true s
  else
    let e := readSeg k seg s
    let r := countElems k seg first e.1 elems e.2
    pushElems k seg first r.1 false r.2

/-- SLUICE_ELEMENT_ARRIVE (R191, R192, R193). -/
def execSluiceElementArrive (k seg first : Nat) (elems : List (BitVec 32 × Bool)) (s : State) : Out := s.live <|
  .next (elementArrive k seg first elems s)

/-- Blocks of the next step that wait when a step is decided (R192, R193): they become the open step's, and are counted
under the tables just sampled. -/
def replayInlet (k : Nat) (s : State) : State :=
  let q := (s.sluice k).inlet.filter (·.next)
  q.foldl (fun s b =>
    let e := (s.sluice k).seg b.seg
    let r := countElems k b.seg b.first e b.elems s
    if r.1.isEmpty then r.2
    else r.2.onSluice k (fun x => { x with inlet := x.inlet ++ [{ b with elems := r.1, next := false }] }))
    (s.onSluice k (fun x => { x with inlet := [] }))

/-- SLUICE_HOLD_TIMEOUT (R193): a block held for a hold count longer than SLC_HOLDWAIT is discarded. -/
def execSluiceHoldTimeout (k i : Nat) (s : State) : Out := s.live <|
  match takeAt (s.sluice k).inlet i with
  | none => .next s
  | some (b, rest) =>
    match b.heldFrom with
    | none => .next s
    | some t =>
      if (s.segTag k b.seg).hold = 0 then .next s else
      let s := s.advanceTo (t.toNat + (s.sluice k).cfg.holdWait.toNat + 1)
      .next (latchCause 4 (s.onSluice k (fun x => { x with inlet := rest, holdErr := true })))

/-! ### Schedules -/

/-- FP32 operations of the Sluice (R61, R196). -/
def sAdd (a b : BitVec 32) : BitVec 32 := (fadd .ieee a b).v
/-- subtraction -/
def sSub (a b : BitVec 32) : BitVec 32 := (fsub .ieee a b).v
/-- multiplication -/
def sMul (a b : BitVec 32) : BitVec 32 := (fmul .ieee a b).v
/-- division -/
def sDiv (a b : BitVec 32) : BitVec 32 := (fdiv .ieee a b).v
/-- square root -/
def sSqrt (a : BitVec 32) : BitVec 32 := (fsqrt .ieee a).v
/-- an integer as FP32 -/
def sInt (i : Int) : BitVec 32 := (toFR .ieee (Fp.ofInt i, 0)).v
/-- FP32 1.0 -/
def one32 : BitVec 32 := 0x3F800000
/-- a > b, for values that are not NaN -/
def sGt (a b : BitVec 32) : Bool := !isNan32 a && !isNan32 b && 0 < (toFp a).cmp (toFp b)
/-- the smaller of two values -/
def sMin (a b : BitVec 32) : BitVec 32 := if sGt a b then b else a
/-- the value with its sign changed -/
def sNeg (a : BitVec 32) : BitVec 32 := a ^^^ 0x80000000
/-- neither an infinity nor a NaN -/
def finite32 (a : BitVec 32) : Bool := field a.toNat 23 8 != 255

/-- A schedule point (R188): STEP and its five fields. -/
def schedPoint (b : List Byte) : Nat × List (BitVec 32) :=
  (field (leNat b) 0 31, (List.range 5).map (fun i => w32 (field (leNat b) (32 * (i + 1)) 32)))

/-- The schedule's fields for step n (R188). -/
def schedAt (interp : Bool) (pts : List (Nat × List (BitVec 32))) (n : Nat) : List (BitVec 32) :=
  let a := (pts.zipIdx.foldl (fun b e => if e.1.1 ≤ n then e.2 else b) 0)
  let p := pts.getD a (0, [])
  match pts[a + 1]? with
  | some q =>
    if interp && p.1 ≤ n then
      let f := sDiv (sInt ((n : Int) - p.1)) (sInt ((q.1 : Int) - p.1))
      (p.2.zip q.2).map (fun e => sAdd e.1 (sMul (sSub e.2 e.1) f))
    else p.2
  | none => p.2

/-- 1 / (1 − exp2(t × log2 β)) (R189). -/
def biasRecip (t : Nat) (beta : BitVec 32) : BitVec 32 :=
  sDiv one32 (sSub one32 (fexp2 .ieee (sMul (sInt t) (flog2 .ieee beta).v)).v)

/-- Evaluate the schedule of group g of stack k for the step being computed (R188, R189). A schedule that cannot be read
leaves its values undefined (log 2). -/
def evalGroup (k g : Nat) (s : State) : State :=
  let r := readGrp k g s
  let e := r.1
  let s := r.2
  let n := s.commit.step.toNat + 1
  let bytes := s.slcRead k e.sched (32 * e.npoints)
  let pts := ((bytes.map (chunks 32)).getD []).map schedPoint
  let rising := (pts.zip (pts.drop 1)).all (fun p => p.1.1 < p.2.1)
  let undef := (List.range 5).map (fun i => lo32 (Config.freeWord (s.free + i)))
  let x := if bytes.isSome then schedAt e.interp pts n else undef
  let s := s.slcMet k e.sched (32 * e.npoints)
  let s := if bytes.isSome then s else { s with free := s.free + 5 }
  let f (i : Nat) := x.getD i 0
  let t := n + 1 - e.t0
  let betaBad (b : BitVec 32) : Bool := !isNan32 b && !sGt one32 b
  let bad := bytes.isNone || !rising || (e.bias && (betaBad (f 2) || betaBad (f 3)))
  let v : GrpVals :=
    { active := e.t0 ≤ n, lr := f 0, decay := f 1, beta1 := f 2, beta2 := f 3, lsr := f 4, om1 := sSub one32 (f 2),
      om2 := sSub one32 (f 3), rb1 := if e.bias then biasRecip t (f 2) else one32,
      rb2 := if e.bias then biasRecip t (f 3) else one32 }
  let s := s.onSluice k (fun x => { x with vals := x.vals.put g v })
  if bad then latchCause 7 s else s

/-- Clear a run of device memory (R202). -/
def State.hbmZero (s : State) (a n : Nat) : State :=
  (pieces 4096 a n).foldl (fun s q => (s.hbmWrite q.1 (List.replicate q.2 0)).getD s) s

/-- The groups whose schedules are evaluated (R189): those that valid segments use, rejected ones among them; a group with no points
has none to evaluate. -/
def Sluice.evalGroups (x : Sluice) : List Nat :=
  ((x.segs.map (·.2.group)).eraseDups).filter (fun g => (parseGrp (x.grpTab.bytes (64 * g) 64)).npoints != 0)

/-- The factor descriptors of the Sluice of stack k that can be read and whose accumulators it reaches (R180, R202). -/
def State.accs (s : State) (k : Nat) : List (Nat × FactD) :=
  let x := s.sluice k
  (List.range x.cur.factCount.toNat).filterMap (fun f =>
    let d := parseFact (x.factTab.bytes (64 * f) 64)
    if (s.slcRead k (x.cur.factBase.toNat + 64 * f) 64).isSome && s.slcRegion k d.acc (8 * d.accLen) then some (f, d) else none)

/-- Some unit that the evaluation of stack k reads or clears cannot be accessed yet (R170, R177). -/
def State.evalWaits (s : State) (k : Nat) : Bool :=
  let x := s.sluice k
  let p := (s.commit.step.toNat + 1) % 2
  !s.hbmUp k
  || x.evalGroups.any (fun g =>
      let e := parseGrp (x.grpTab.bytes (64 * g) 64)
      s.hbmWaits (x.cur.grpBase.toNat + 64 * g) 64 || s.hbmWaits e.sched (32 * e.npoints))
  || (s.accs k).any (fun f => s.hbmWaits (x.cur.factBase.toNat + 64 * f.1) 64
      || s.hbmWaits (f.2.acc + p * 4 * f.2.accLen) (4 * f.2.accLen))

/-- SLUICE_EVAL_COMPLETE (R189, R202): the schedules of the groups that valid segments use are evaluated for the next step,
and the accumulators of its parity are cleared in every factor descriptor that the Sluice reaches (R180, R200). -/
def execSluiceEvalComplete (k : Nat) (s : State) : Out := s.live <|
  let s' := (s.sluice k).evalGroups.foldl (fun s g => evalGroup k g s) s
  let p := (s.commit.step.toNat + 1) % 2
  let s' := (s.accs k).foldl (fun s f =>
    let d := readFact k f.1 s
    d.2.hbmZero (d.1.acc + p * 4 * d.1.accLen) (4 * d.1.accLen)) s'
  when ((s.sluice k).evalBusy && !s.evalWaits k) (s'.onSluice k (fun x => { x with evalBusy := false })) s

/-! ### The update of one block -/

/-- A square of g1, as it enters the norm accumulator in units of 2^-149 (R204); none: the square is a NaN. -/
def normSquare (g1 : BitVec 32) : Option Nat :=
  match toFp (sMul g1 g1) with
  | .nan => none
  | .inf _ => match toFp 0x7F7FFFFF with | .fin _ m e => some (m * 2 ^ (e + 149).toNat) | _ => none
  | .fin _ m e => some (m * 2 ^ (e + 149).toNat)

/-- sign(x) (R196). -/
def signOf (x : BitVec 32) : BitVec 32 :=
  if isNan32 x then qnan else if sGt x 0 then one32 else if sGt 0 x then sNeg one32 else 0

/-- The condition of a gradient element (R195): g from g1. -/
def clipGrad (g : GrpE) (nprev : BitVec 32) (g1 : BitVec 32) : BitVec 32 :=
  let g2 := if sGt g.clipElem 0 then sMin (fmax g1 (sNeg g.clipElem)) g.clipElem else g1
  let k := if g.clipDom != 15 && sGt g.clipNorm 0 && sGt nprev g.clipNorm then sDiv g.clipNorm nprev else one32
  sMul g2 k

/-- HEAVYBALL (R197): w1 and m1. -/
def ruleHeavyball (g : GrpE) (v : GrpVals) (x w m : BitVec 32) : List (BitVec 32) :=
  let m1 := sAdd (sMul v.beta1 m) x
  let d := if g.nesterov then sAdd x (sMul v.beta1 m1) else m1
  [sSub w (sMul v.lr (sAdd d (sMul v.decay w))), m1]

/-- ADAPT (R198): w1, m1 and v1. -/
def ruleAdapt (g : GrpE) (v : GrpVals) (x w m vv : BitVec 32) : List (BitVec 32) :=
  let m1 := sAdd (sMul v.beta1 m) (sMul v.om1 x)
  let v1 := sAdd (sMul v.beta2 vv) (sMul v.om2 (sMul x x))
  let mh := if g.bias then sMul m1 v.rb1 else m1
  let vh := if g.bias then sMul v1 v.rb2 else v1
  [sSub w (sMul v.lr (sAdd (sDiv mh (sAdd (sSqrt vh) g.eps)) (sMul v.decay w))), m1, v1]

/-- SIGN (R199): w1 and m1. -/
def ruleSign (v : GrpVals) (x w m : BitVec 32) : List (BitVec 32) :=
  let c := sAdd (sMul v.beta1 m) (sMul v.om1 x)
  [sSub w (sMul v.lr (sAdd (signOf c) (sMul v.decay w))), sAdd (sMul v.beta2 m) (sMul v.om2 x)]

/-- The values of the factor tables that one element uses (R201), and which come from poisoned units (R194). -/
structure Fact where
  /-- fr -/
  fr : BitVec 32
  /-- fc -/
  fc : BitVec 32
  /-- sr -/
  sr : BitVec 32
  /-- RA.usq -/
  usq : BitVec 32
  /-- ROWS × COLS -/
  size : Nat
  /-- a unit that fr comes from is poisoned -/
  badFr : Bool := false
  /-- one that fc comes from -/
  badFc : Bool := false
  /-- one that sr comes from -/
  badSr : Bool := false
  /-- that of RA.usq -/
  badUsq : Bool := false

/-- The element's update uses a poisoned value (R194). -/
def Fact.bad (f : Fact) : Bool := f.badFr || f.badFc || f.badSr || f.badUsq

/-- The factors of an element of another rule. -/
def Fact.none : Fact := { fr := 0, fc := 0, sr := 0, usq := 0, size := 0 }

/-- u of FACTOR (R201). -/
def factU (f : Fact) (x : BitVec 32) : BitVec 32 :=
  if sGt f.sr 0 || sGt 0 f.sr || isNan32 f.sr then sDiv x (sSqrt (sDiv (sMul f.fr f.fc) f.sr)) else 0

/-- FACTOR (R201): w1, and m1 where the rule has momentum. -/
def ruleFactor (g : GrpE) (v : GrpVals) (f : Fact) (mom : Bool) (x w m : BitVec 32) : List (BitVec 32) :=
  let u := factU f x
  let dv := fmax one32 (sDiv (sSqrt (sDiv f.usq (sInt f.size))) g.clipD)
  let q := sDiv u dv
  if sGt v.beta1 0 then
    let m1 := sAdd (sMul v.beta1 m) (sMul v.om1 q)
    let w1 := sSub w (sMul v.lr (sAdd m1 (sMul v.decay w)))
    if mom then [w1, m1] else [w1]
  else
    let w1 := sSub w (sMul v.lr (sAdd q (sMul v.decay w)))
    if mom then [w1, m] else [w1]

/-- The compute copy of a parameter (R203): its code, and whether it was clamped. -/
def copyOf (g : GrpE) (fmt : Nat) (w : BitVec 32) : Nat × Nat :=
  let p := fmul .sat w g.copyScale
  let r := convert .sat (if fmt = 0 then 0 else if fmt = 1 then 2 else 3) p.v
  (r.v, min 1 (p.sat + r.sat))

/-- Bytes of a run of committed data that lie in poisoned units, by offset. Each such unit posts one MEM_UE record of SOURCE
8, unless its demand read has, and makes the verdict bad (R194, R478); a unit no demand read had met sets HBM_STAT.UE (R163). -/
def committedBad (k a n seg arr : Nat) (s : State) : List Nat × State :=
  (pieces 32 a n).foldl (fun (acc : List Nat × State) q =>
    match acc.2.hbmAt q.1 with
    | none => acc
    | some (st, sb) =>
      let x := (acc.2.stack st).wake ((acc.2.stack st).serve (lchOf sb) (caOf sb))
      let acc := if (acc.2.stack st).asleep.isEmpty then acc else (acc.1, acc.2.setStack st x)
      let u := x.key sb / 32
      if !x.isBad (x.key sb) then acc
      else
        let s :=
          if x.ueSeen.contains u then acc.2.setStack st { x with ueSeen := x.ueSeen.erase u }
          else
            let x := if x.latent.contains u then
                { x.noteUe (x.serve (lchOf sb) (caOf sb)) (caOf sb / 32 * 32) with ue := true, latent := x.latent.erase u } else x
            memUe 8 k (sb / 32 * 32) seg arr (acc.2.setStack st x)
        (acc.1 ++ (List.range q.2).map (· + (q.1 - a)), latchCause 3 s)) ([], s)

/-- The n FP32 words at a; of a run that has become UNMAPPED (R175), undefined ones (log 2). -/
def State.hbmWords (s : State) (a n : Nat) : List (BitVec 32) × State :=
  match s.hbmRead a (4 * n) with
  | some (bs, _) => ((chunks 4 bs).map (fun b => BitVec.ofNat 32 (leNat b)), s)
  | none => ((List.range n).map (fun i => lo32 (Config.freeWord (s.free + i))), { s with free := s.free + n })

/-- Write elements of eb bytes at a, and mark the units of the named ones poisoned (R194). -/
def putElems (a eb : Nat) (vs : List Nat) (bad : List Nat) (s : State) : State :=
  let s := (s.hbmWrite a (vs.flatMap (leBytes eb))).getD s
  s.hbmPoison (bad.map (fun j => a + j * eb))

/-- The words of the factor tables that one element of a block reads (R201): FR[q] and RA of its row, FC[q] and RA of its column. -/
def FactD.rowCol (d : FactD) (q l : Nat) : List Nat :=
  [d.fr + 4 * (q * (d.rows + 1) + l / d.cols), d.ra + 4 * (l / d.cols), d.fc + 4 * (q * d.cols + l % d.cols),
   d.ra + 4 * (d.rows + l % d.cols)]

/-- The words that every element reads: FR[q][ROWS], RA.tot and RA.usq. -/
def FactD.sums (d : FactD) (q : Nat) : List Nat :=
  [d.fr + 4 * (q * (d.rows + 1) + d.rows), d.ra + 4 * (d.rows + d.cols), d.ra + 4 * (d.rows + d.cols + 1)]

/-- The FP32 words at some addresses; undefined ones where they have become UNMAPPED (R175, log 2). -/
def readAt : List Nat → State → List (BitVec 32) × State
  | [], s => ([], s)
  | a :: as, s =>
    let w := s.hbmWords a 1
    let r := readAt as w.2
    (w.1.headD 0 :: r.1, r.2)

/-- What a block's update reads of its factor tables (R194, R201): per element its values. A poisoned unit is met once. -/
def readFactors (k seg : Nat) (e : SegE) (v : GrpVals) (d : FactD) (q first n : Nat) (s : State) : List Fact × State :=
  let l (j : Nat) := e.matOff + first + j
  let as := d.sums q ++ (List.range n).flatMap (fun j => d.rowCol q (l j))
  let met := ((as.map (· / 32)).eraseDups).foldl (fun (acc : List Nat × State) u =>
    let r := committedBad k (32 * u) 32 seg 4 acc.2
    (if r.1.isEmpty then acc.1 else u :: acc.1, r.2)) ([], s)
  let bad (a : Nat) : Bool := met.1.contains (a / 32)
  let tot := readAt (d.sums q) met.2
  let mix (x y : BitVec 32) : BitVec 32 := sAdd (sMul v.beta2 x) (sMul v.om2 y)
  (List.range n).foldl (fun (acc : List Fact × State) j =>
    let at_ := d.rowCol q (l j)
    let w := readAt at_ acc.2
    let b (i : Nat) : Bool := bad (at_.getD i 0)
    let t (i : Nat) : Bool := bad ((d.sums q).getD i 0)
    let f : Fact := {
      fr := mix (w.1.getD 0 0) (w.1.getD 1 0), fc := mix (w.1.getD 2 0) (w.1.getD 3 0),
      sr := mix (tot.1.getD 0 0) (tot.1.getD 1 0), usq := tot.1.getD 2 0, size := d.rows * d.cols,
      badFr := b 0 || b 1, badFc := b 2 || b 3, badSr := t 0 || t 1, badUsq := t 2 }
    (acc.1 ++ [f], w.2)) ([], tot.2)

/-- The pairwise sum of 64 values in the order of R26 (R202). -/
def pairSum : Nat → List (BitVec 32) → BitVec 32
  | 0, l => l.headD 0
  | n + 1, l => pairSum n ((chunks 2 l).map (fun p => sAdd (p.headD 0) (p.getD 1 0)))

/-- Add to an FP32 word of device memory. -/
def addWord (a : Nat) (v : BitVec 32) (s : State) : State :=
  let w := s.hbmWords a 1
  putElems a 4 [(sAdd (w.1.headD 0) v).toNat] [] w.2

/-- Write one FP32 word at a, poisoned or not (R194). -/
def putWord (a : Nat) (v : BitVec 32) (bad : Bool) (s : State) : State := putElems a 4 [v.toNat] (if bad then [0] else []) s

/-- Add to a word of an accumulator; one that a poisoned element should have added to is written poisoned (R194, R202). -/
def addOrPoison (a : Nat) (v : BitVec 32) (bad : Bool) (s : State) : State := if bad then s.hbmPoison [a] else addWord a v s

/-- FACTOR's writes for a block (R194, R201, R202): the factors, and the block's contribution to ACC[p]. `gs`: the g of the elements
that add; `bad`: the elements that are poisoned; `fs`: their factors. -/
def writeFactors (g : GrpE) (e : SegE) (d : FactD) (p first : Nat) (fs : List Fact) (gs : List (Option (BitVec 32)))
    (bad : Nat → Bool) (s : State) : State :=
  let l (j : Nat) := e.matOff + first + j
  let s := fs.zipIdx.foldl (fun s f =>
    let s := putWord (d.fr + 4 * (p * (d.rows + 1) + l f.2 / d.cols)) f.1.fr f.1.badFr s
    let s := putWord (d.fc + 4 * (p * d.cols + l f.2 % d.cols)) f.1.fc f.1.badFc s
    putWord (d.fr + 4 * (p * (d.rows + 1) + d.rows)) f.1.sr f.1.badSr s) s
  let sq := gs.map (fun x => match x with | some v => sAdd (sMul v v) g.eps1 | none => 0)
  let us := (gs.zip fs).map (fun x => match x.1 with | some v => (let u := factU x.2 v; sMul u u) | none => 0)
  let pad (v : List (BitVec 32)) := v ++ List.replicate (64 - v.length) 0
  let acc := d.acc + p * 4 * d.accLen
  let any := (List.range gs.length).any bad
  let s := addOrPoison (acc + 4 * (l 0 / d.cols)) (pairSum 6 (pad sq)) any s
  let s := addOrPoison (acc + 4 * (d.rows + d.cols)) (pairSum 6 (pad sq)) any s
  let s := addOrPoison (acc + 4 * (d.rows + d.cols + 1)) (pairSum 6 (pad us)) any s
  ((sq.zip gs).zipIdx).foldl (fun s x =>
    if x.1.2.isSome || bad x.2 then addOrPoison (acc + 4 * (d.rows + l x.2 % d.cols)) x.1.1 (bad x.2) s else s) s

/-- What one element's update gives. -/
structure ElemOut where
  /-- W and the states, new -/
  st : List (BitVec 32)
  /-- SLC_NONFIN counts -/
  nonfin : Nat := 0
  /-- the verdict is bad for it (R194, R203) -/
  cause : Bool := false
  /-- its square for the norm, in units of 2^-149; none: a NaN -/
  norm : Option Nat := some 0
  /-- g, where the element enters the factors -/
  g : Option (BitVec 32) := none
  deriving Repr

/-- The update of one element that is not frozen (R194 to R203). `st`: W and the states committed; `force`: the result that
a faulty pipe gives W. -/
def updateElem (e : SegE) (g : GrpE) (v : GrpVals) (nprev : BitVec 32) (f : Fact) (gin : BitVec 32)
    (st : List (BitVec 32)) (force : Option (BitVec 32)) : ElemOut :=
  if !finite32 gin then { st, nonfin := 1, cause := !g.skip }
  else
    let g1 := sMul gin v.lsr
    let x := clipGrad g nprev g1
    let w := st.getD 0 0
    let m := st.getD 1 0
    let r := match e.rule with
      | 0 => ruleHeavyball g v x w m
      | 1 => ruleAdapt g v x w m (st.getD 2 0)
      | 2 => ruleSign v x w m
      | _ => ruleFactor g v f (st.length = 2) x w m
    let r := match force with
      | some q => q :: r.drop 1
      | none => r
    if r.all finite32 then { st := r, norm := normSquare g1, g := some x }
    else { st, nonfin := 1, cause := true, norm := normSquare g1, g := some x }

/-- The freeze mask covers a block (R186); a mask bit that cannot be read is undefined (log 2). -/
def State.frozen (s : State) (e : SegE) (first : Nat) : Bool × State :=
  let a := e.fmask + first / 64 / 8
  if !e.fmaskEn then (false, s)
  else match s.hbmRead a 1 with
    | some (b :: _, []) => (b.getLsbD (first / 64 % 8), s.hbmTouch a 1)
    | _ => let d := (s.hbmMet a 1).draw; (d.1.getLsbD 0, d.2)

/-- Update a block of stack k (R182 to R204). The gradient of a frozen block is discarded, whatever it holds (R186, log 63). -/
def updateBlock (k : Nat) (b : InletBlock) (fault : Option LaneFault) (s : State) : State :=
  let r := readSeg k b.seg s
  let e := r.1
  let r := readGrp k e.group r.2
  let g := r.1
  let s := r.2
  let h := s.commit.step.toNat % 2
  let p := (s.commit.step.toNat + 1) % 2
  let v := (s.sluice k).vals.get e.group {}
  let n := b.elems.length
  let arrs := (0, e.w) :: e.states
  -- the committed half
  let rd := arrs.foldl (fun (acc : List (List (BitVec 32)) × List Nat × State) a =>
    let at_ := arrAddr a.2 4 h b.first
    let c := committedBad k at_ (4 * n) b.seg a.1 acc.2.2
    let w := c.2.hbmWords at_ n
    (acc.1 ++ [w.1], acc.2.1 ++ c.1.map (· / 4), w.2)) ([], [], s)
  let fm := if v.active then rd.2.2.frozen e b.first else (true, rd.2.2)
  let fz := fm.1
  let s := fm.2
  let fd := readFact k e.fslot s
  let fac := if e.rule = 3 && !fz then readFactors k b.seg e v fd.1 h b.first n fd.2
    else (List.replicate n Fact.none, s)
  let s := fac.2
  let bad (j : Nat) : Bool :=
    rd.2.1.contains j || (!fz && (b.elems.getD j (0, false)).2) || (fac.1.getD j Fact.none).bad
  let old (j : Nat) : List (BitVec 32) := rd.1.map (fun l => l.getD j 0)
  let nprev := s.commit.clipNorm.get g.clipDom 0
  let outs : List ElemOut := (List.range n).map (fun j =>
    if fz || bad j then { st := old j }
    else updateElem e g v nprev (fac.1.getD j Fact.none)
      (b.elems.getD j (0, false)).1 (old j)
      (match fault with | some f => if f.pos = b.first + j then some f.value else none | none => none))
  let copies := outs.map (fun o => copyOf g e.copyFmt (o.st.headD 0))
  let badJ := (List.range n).filter bad
  -- the new half
  let s := arrs.zipIdx.foldl (fun s a =>
    putElems (arrAddr a.1.2 4 p b.first) 4 (outs.map (fun o => (o.st.getD a.2 0).toNat)) badJ s) s
  let s := putElems (arrAddr e.cc e.ccBytes p b.first) e.ccBytes (copies.map (·.1)) badJ s
  let s := if e.rule = 3 && !fz then
      writeFactors g e fd.1 p b.first fac.1 (outs.map (·.g)) bad s
    else s
  -- norms, counters, causes
  let nans := outs.filter (fun o => o.norm.isNone)
  let undef := (List.range nans.length).map (fun i => (Config.freeWord (s.free + i)).toNat)
  let s := { s with free := s.free + nans.length }
  let s := s.onSluice k (fun x => { x with
    acc := x.acc.upd e.group 0 (· + (outs.map (fun o => o.norm.getD 0)).sum + undef.sum),
    nonfin := satAdd x.nonfin (outs.map (·.nonfin)).sum, satCnt := satAdd x.satCnt (copies.map (·.2)).sum,
    updCnt := wrapAdd x.updCnt n })
  let s := if outs.any (·.cause) then latchCause 2 s else s
  let s := if !fz && b.elems.any (·.2) then stepFatal (latchCause 3 s) else s
  let s := match fault with
    | none => s
    | some f =>
      let ts := recent s.now ((s.sluice k).pipeFaults.get f.lane [])
      event 0x88 4 k [w32 f.lane, faultCount ts.length] noDseq
        (s.onSluice k (fun x => { x with pipeFaults := x.pipeFaults.put f.lane ts }))
  s.onSegTag k b.seg (fun t => { t with upd := t.upd + n, pend := t.upd + n = e.count })

/-- A block may pass (R193). -/
def State.mayPass (s : State) (k i : Nat) (b : InletBlock) : Bool :=
  !s.decided && !(s.sluice k).evalBusy && (s.segTag k b.seg).hold = 0 && !b.next
  && b.whole ((s.sluice k).seg b.seg).count && !((s.sluice k).inlet.take i).any (fun c => c.seg == b.seg)

/-- The runs of its factor tables that the update of a FACTOR block reads or writes (R201, R202). -/
def FactD.runs (d : FactD) (p l n : Nat) : List (Nat × Nat) :=
  let acc := d.acc + p * 4 * d.accLen
  ((d.sums 0 ++ d.sums 1 ++ [acc + 4 * (d.rows + d.cols), acc + 4 * (d.rows + d.cols + 1)])
    ++ (List.range n).flatMap (fun j =>
      d.rowCol 0 (l + j) ++ d.rowCol 1 (l + j) ++ [acc + 4 * ((l + j) / d.cols), acc + 4 * (d.rows + (l + j) % d.cols)])).map (·, 4)

/-- Some unit that the update of a block reads or writes cannot be accessed yet (R170, R177). -/
def State.updateWaits (s : State) (k : Nat) (b : InletBlock) : Bool :=
  let x := s.sluice k
  let e := x.seg b.seg
  let n := b.elems.length
  let arrs := ((4, e.w) :: (e.ccBytes, e.cc) :: e.states.map (fun a => (4, a.2))).flatMap (fun a =>
    [0, 1].map (fun h => (arrAddr a.2 a.1 h b.first, a.1 * n)))
  let mask := if e.fmaskEn then [(e.fmask + b.first / 64 / 8, 1)] else []
  let facts := if e.rule = 3 then
      (parseFact (x.factTab.bytes (64 * e.fslot) 64)).runs ((s.commit.step.toNat + 1) % 2) (e.matOff + b.first) n
    else []
  (arrs ++ mask ++ facts).any (fun r => s.hbmWaits r.1 r.2)

/-- SLUICE_BLOCK_UPDATE (R193, R196): the i-th block in the inlet, where it may pass. -/
def execSluiceBlockUpdate (k i : Nat) (pipeFault : Option LaneFault) (s : State) : Out := s.live <|
  match takeAt (s.sluice k).inlet i with
  | none => .next s
  | some (b, rest) =>
    when (s.mayPass k i b && !s.updateWaits k b) (updateBlock k b pipeFault (s.onSluice k (fun x => { x with inlet := rest }))) s

/-! ### The pipe map -/

/-- PIPEMAP_WRITE (R181, R218): the written value waits for the inlet to empty. -/
def execPipemapWrite (k : Nat) (v : BitVec 32) (s : State) : Out := s.busWrite <|
  .next (s.onSluice k (fun x => { x with pipeNext := some (v.truncate 2, v.getLsbD 2) }))

/-- PIPEMAP_APPLY (R181, R478). -/
def execPipemapApply (k : Nat) (s : State) : Out := s.live <|
  let x := s.sluice k
  match x.pipeNext with
  | none => .next s
  | some (f, en) =>
    if !x.inlet.isEmpty then .next s
    else
      let s := s.onSluice k (fun x => { x with pipeFailed := f, pipeSpare := en, pipeNext := none })
      .next (if en then event 0x87 (if x.pipeSpareBad then 2 else 3) k [w32 f.toNat, 1, w32 (b2n x.pipeSpareBad)] noDseq s
        else s)

end Sys2Proof.Machine
end

