-- ==== Sys2Proof/Machine/Time.lean ====
section
/-! DEFINITION. The timekeeper: its reference, PACE_SYNC, timing messages, servo and lock states (R220 to R230). -/

namespace Sys2Proof.Machine

/-- Change the timekeeper. -/
def State.onClock (s : State) (f : Clock → Clock) : State := { s with clock := f s.clock }

/-- LOCK code (R244). -/
def Lock.code : Lock → Nat
  | .freerun => 0
  | .acquire => 1
  | .locked => 2
  | .holdover => 3

/-- Stride Time in units of 2^-32 ns (R220). -/
def Clock.fine (c : Clock) : Nat := c.ns.toNat * 2 ^ 32 + c.frac.toNat

/-- Set Stride Time, in units of 2^-32 ns. -/
def Clock.setFine (c : Clock) (t : Nat) : Clock :=
  { c with ns := BitVec.ofNat 64 (t / 2 ^ 32), frac := BitVec.ofNat 32 (t % 2 ^ 32) }

/-- The frequency reference in use is PACE_REF (R221, R244). -/
def Clock.onPace (c : Clock) : Bool := c.refEn && c.refOk

/-- How far PACE_REF runs from the timekeeper's own clock in the period at a Stride Time, in units of 2^-40: a value of the
board's, within the 150 ppm that the two tolerances leave (R497; log 8). -/
def Clock.skew (c : Clock) : Int :=
  if c.onPace then ((Config.paceSkew c.fine).toNat % 329853489 : Nat) - 164926744 else 0

/-- Stride Time after one period of the timekeeper clock (R220, R221): 1 ns of the reference in use × (1 + RATE). -/
def Clock.next (c : Clock) : Nat :=
  c.fine + ((2 ^ 40 + c.skew) * (2 ^ 40 + signed 32 c.rate.toNat) / 2 ^ 48).toNat

/-- One timekeeper period passes with nothing happening (R220, log 8). -/
def idle (s : State) : State :=
  let t := s.clock.next
  if s.clocked && t < 2 ^ 96 then s.passTo (t / 2 ^ 32) (BitVec.ofNat 32 (t % 2 ^ 32)) else s

/-- PACE_REF_CHANGE (R221, R227): the count and RATE are kept; a LOCKED master that loses the reference holds over. -/
def execPaceRefChange (ok : Bool) (s : State) : Out := s.live <|
  .next (s.onClock (fun c =>
    { c with refOk := ok, lock := if !ok && c.refOk && c.role = 1 && c.lock == .locked then .holdover else c.lock }))

/-- The lock state after a usable answer or edge with an offset, in halves of 2^-32 ns (R227). -/
def Clock.relock (c : Clock) (off2 : Int) : Clock :=
  let near := off2.natAbs ≤ 20 * 2 ^ 32
  let good := if near then c.good + 1 else 0
  match c.lock with
  | .freerun => { c with lock := .acquire, good }
  | .acquire => if 16 ≤ good then { c with lock := .locked, good } else { c with good }
  | .locked => if 2000 * 2 ^ 32 < off2.natAbs then { c with lock := .acquire, good := 0 } else { c with good }
  | .holdover => if near then { c with lock := .locked, good } else { c with lock := .acquire, good }

/-- STR_RATE at −1,000 ppm (R228, R244). -/
def rateSlewBack : BitVec 32 := BitVec.ofInt 32 (-1099511627)

/-- A valid entry whose TIME a jump of Stride Time from a to b passes is marked LATE (R235). -/
def Ev.passed (a b : Nat) (v : Ev) : Ev :=
  if v.valid && a ≤ v.time.toNat && v.time.toNat < b then { v with late := true } else v

/-- Stride Time jumps forward to t, in units of 2^-32 ns (R224, R228): the Starter's entries that it passes are late (R235), and the
watchdogs do not count it (R438). -/
def jumpTo (t : Nat) (s : State) : State :=
  let n := BitVec.ofNat 64 (t / 2 ^ 32)
  let d := n - s.clock.ns
  { s.onClock (fun c => c.setFine t) with
    boot := { s.boot with marshals := s.boot.marshals.map (fun m => { m with wdog := m.wdog + d }) }
    starter := { s.starter with evs := s.starter.evs.mapVals (fun _ v => v.passed s.clock.ns.toNat n.toNat) } }

/-- The slew that takes out an offset of at most 1 µs (R228): against the offset, and at most 100 ppm in units of 2^-40 per ns. -/
def slewOf (off2 : Int) (x : Nat) : Int :=
  if off2 = 0 then 0 else if 0 < off2 then -(x % 109951162 + 1 : Nat) else (x % 109951162 + 1 : Nat)

/-- The servo acts on an offset, in halves of 2^-32 ns (R228): a device ahead by more than 1 µs slews at −1,000 ppm; a
follower behind by more steps forward; otherwise RATE is the rate correction itself, a free value of the servo's, with a slew of at most
100 ppm that takes the offset out (log 15). -/
def servo (off2 : Int) (canStep : Bool) (s : State) : State :=
  if 2000 * 2 ^ 32 < off2 then s.onClock (fun c => { c with rate := rateSlewBack })
  else if off2 < -(2000 * 2 ^ 32) && canStep then
    (jumpTo (s.clock.fine + off2.natAbs / 2) s).onClock (fun c => { c with stepped := true })
  else
    let d := s.draw
    let e := d.2.draw
    let k := signed 31 (lo32 d.1).toNat
    e.2.onClock (fun c => { c with corr := BitVec.ofInt 32 k, rate := BitVec.ofInt 32 (k + slewOf off2 e.1.toNat) })

/-- PACE_SYNC_EDGE (R224, R227, R228). -/
def execPaceSyncEdge (s : State) : Out := s.live <|
  let c := s.clock
  let s := s.onClock (fun c => { c with syncCap := c.ns, syncSeen := true, syncEdges := c.syncEdges + 1 })
  if c.role != 1 then .next s
  else if c.loadArm then
    if c.fine ≤ c.load.toNat * 2 ^ 32 then
      .next ((jumpTo (c.load.toNat * 2 ^ 32) s).onClock (fun c =>
        { c with loadArm := false, lock := if c.lock == .freerun then .acquire else c.lock }))
    else .next (s.onClock (fun c => { c with loadArm := false, loadRefused := true }))
  else if c.syncPeriod = 0 || c.lock == .freerun then .next s
  else
    let m : Int := c.syncPeriod.toNat * 1000000
    let e0 := ((c.ns.toNat : Int) - c.load.toNat) % m
    let e := if m < 2 * e0 then e0 - m else e0
    let off2 : Int := e * 2 ^ 33
    let s := s.onClock (fun c => { c.relock off2 with offset := BitVec.ofInt 32 (e * 256) })
    .next (servo off2 false s)

/-- LOAD_ARM (R224, R416): writing 1 arms the load. -/
def execLoadArm (s : State) : Out := s.busWrite <| .next (s.onClock (fun c => { c with loadArm := true }))

/-- SYNC_SEEN_LAPSE (R244): two PACE_SYNC periods pass with no edge. -/
def execSyncSeenLapse (s : State) : Out := s.live <|
  let c := s.clock
  when c.syncSeen
    ((s.advanceTo (c.syncCap.toNat + 2 * c.syncPeriod.toNat * 1000000)).onClock (fun c => { c with syncSeen := false })) s

/-! ### Timing messages -/

/-- A link-local packet for the device at the other end of link l, whose Bib names it (R257, R277, R278). -/
def State.localPacket (s : State) (l : Nat) (k : Packet) : Packet :=
  let j := { k with src := s.router.id, dst := BitVec.ofNat 14 (field (s.link l).bibRx.toNat 64 14) }
  { j with crc := j.goodCrc }

/-- Put a link-local packet into the queue of a link, where it has room (R278). -/
def sendLocal (l : Nat) (k : Packet) (s : State) : State :=
  s.onLink l (fun x => if x.localQ.length < 8 then { x with localQ := x.localQ ++ [s.localPacket l k] } else x)

/-- The link whose part physical link l plays while a swapped pair is exchanged (R325); the exchange goes both ways. -/
def State.linkRole (s : State) (l : Nat) : Nat := if (s.link l).remap then (s.link l).pair.toNat else l

/-- The links a follower asks on: its parent, and the alternate parent while it follows that (R225, R227, R325). -/
def State.askLinks (s : State) : List Nat :=
  let c := s.clock
  (([c.parent.toNat] ++ (if c.onAlt then [c.altParent.toNat] else [])).filter (· < 18)).map s.linkRole

/-- A TIMING request (R226), laid out as log 16 says. -/
def timingRequest : Packet := { cls := 5, op := 0xB, arg := 0 }

/-- A TIMING answer (R226): t1, when the answer before crossed the PMA, t4, when the request did, master, generation and lock
state, laid out as log 16 says. -/
def Clock.timingAnswer (c : Clock) (t1 : Nat) : Packet :=
  { cls := 5, op := 0xB,
    arg := w32 (c.masterDev.toNat + putField 14 c.masterGen.toNat + putField 22 c.lock.code + putField 24 1),
    payload := leBytes 12 t1 ++ leBytes 4 0 ++ leBytes 12 c.fine ++ leBytes 4 0 }

/-- TIMING_REQUEST_TIMER (R225, R226): every 50 µs a follower asks its parent, on a link that is UP. -/
def execTimingRequestTimer (s : State) : Out := s.live <|
  let c := s.clock
  let ls := s.askLinks.filter (fun l => (s.link l).st == .up)
  if c.role != 0 || ls.isEmpty then .next s
  else
    let s := match c.reqSent with
      | some t => s.advanceTo (t.toNat + 50000)
      | none => s
    let s := s.onClock (fun c => { c with reqSent := some c.ns })
    .next (ls.foldl (fun s l => sendLocal l timingRequest s) s)

/-- A parent answers a request in LOCKED and HOLDOVER (R226, R227). The first answer of a link has none before it: its t1 is
its t4. -/
def answerTiming (l : Nat) (s : State) : State :=
  if s.clock.lock == .locked || s.clock.lock == .holdover then
    sendLocal l (s.clock.timingAnswer ((s.link l).ansTx.getD s.clock.fine)) s
  else s

/-- A follower takes an exchange (R226, R227, R228, R253): t2 and t3 are its own timestamps. -/
def takeTiming (l : Nat) (t1 t2 t3 t4 : Int) (s : State) : State :=
  let c := s.clock
  let d2 := (t4 - t1) - (t3 - t2)
  let asym := signed 32 (c.asym.get (s.linkRole l) 0).toNat
  let off2 := 2 * (t2 - t1) - d2 - asym * 2 ^ 25
  let s := s.onClock (fun c =>
    { c.relock off2 with
      onAlt := if s.linkRole l = c.parent.toNat then false else c.onAlt,
      pathDly := BitVec.ofInt 32 (d2 / 2 ^ 25), offset := BitVec.ofInt 32 (off2 / 2 ^ 25) })
  (servo off2 true s).onClock (fun c => { c with lastAns := c.ns })

/-- An answer reaches a follower (R226, R253): one of another master or generation, or of a parent without a lock, is ignored; an
exchange needs the answer before it, and is discarded where it was replayed or the timestamp lane changed during it. -/
def takeAnswerOf (l : Nat) (t1 t4 : Nat) (master : BitVec 14) (gen : BitVec 8) (lock : BitVec 2) (replayed : Bool) (s : State) :
    State :=
  let c := s.clock
  let x := s.link l
  let s := s.onLink l (fun x => { x with ansRx := if replayed then none else some c.fine, laneChg := false })
  if c.role != 0 || !s.askLinks.contains l then s
  else if master != c.masterDev || gen != c.masterGen || lock.toNat < 2 then s.onClock (fun c => { c with foreign := true })
  else match x.ansRx, x.reqTx with
    | some t2, some t3 => if replayed || x.laneChg then s else takeTiming l t1 t2 t3 t4 s
    | _, _ => s

/-- TIMING (R225 to R228, R253): a request is answered, unless it was replayed; an answer ends an exchange. -/
def execTiming (l : Nat) (m : TimingMsg) (s : State) : Out := s.live <|
  if (s.link l).st != .up then .next s
  else
    let s := s.onLink l (fun x => { x with timingIn := some s.now })
    match m with
    | .request replayed => .next (if replayed then s else answerTiming l s)
    | .answer t1 t4 master gen lock replayed => .next (takeAnswerOf l t1 t4 master gen lock replayed s)

/-- PARENT_LOSS_TIMEOUT (R227): a LOCKED follower has had no usable answer for 1 ms. -/
def execParentLossTimeout (s : State) : Out := s.live <|
  let c := s.clock
  when (c.role = 0 && c.lock == .locked)
    ((s.advanceTo (c.lastAns.toNat + 1000000)).onClock (fun c =>
      if c.onAlt then { c with lock := .holdover }
      else { c with lock := .holdover, onAlt := true, parentLost := true })) s

end Sys2Proof.Machine
end

