-- ==== Sys2Proof/Machine/Link.lean ====
section
/-! DEFINITION. Smisha links (R245 to R266): lanes and their maps, training, the Bib, flits received, RETRAIN, and the loss of a
link. -/

namespace Sys2Proof.Machine

/-! ### Register words -/

/-- STATE code (R254). -/
def LinkSt.code : LinkSt → Nat
  | .disabled => 0
  | .training => 1
  | .bib => 2
  | .held => 3
  | .up => 4
  | .quarantine => 5
  | .retrain => 6
  | .failed => 7

/-- Lane state code (R273). -/
def LaneSt.code : LaneSt → Nat
  | .active => 0
  | .standby => 1
  | .failed => 2
  | .off => 3

/-- LNK_STAT (R272). -/
def Link.stat (x : Link) : BitVec 32 :=
  w32 (x.st.code + putField 4 (b2n x.bibValid) + putField 5 (b2n x.bibBad) + putField 6 (b2n x.bibChg)
    + putField 7 (b2n x.laneFail) + putField 8 (b2n x.spareIn) + putField 9 (b2n x.degraded)
    + putField 10 (b2n x.retrained) + putField 11 (b2n x.discard) + putField 12 (b2n (204 ≤ x.replayBuf.length)))

/-- LNK_TXLANE or LNK_RXLANE (R273). -/
def Lanes.word (n : Lanes) : BitVec 32 :=
  w32 ((n.logical.zipIdx.map (fun e => putField (3 * e.2) e.1)).sum + putField 12 n.spare
    + (n.st.zipIdx.map (fun e => putField (16 + 2 * e.2) e.1.code)).sum + putField 26 n.width)

/-- A record that carries the lanes of link l (R262, R400). -/
def laneRecord (type cls l : Nat) (s : State) : State :=
  event type cls l [(s.link l).tx.word, (s.link l).rx.word] noDseq s

/-! ### Leaving a state -/

/-- States between which the settle time runs on (R327). -/
def LinkSt.known : LinkSt → Bool
  | .held => true
  | .up => true
  | .quarantine => true
  | _ => false

/-- The link carries flits (R254). -/
def LinkSt.flits : LinkSt → Bool
  | .bib => true
  | .held => true
  | .up => true
  | .quarantine => true
  | _ => false

/-- Packets in transit when link l leaves UP for state t (R264, R282, R291): those not begun go back to the router, and those
begun and not acknowledged are discarded; credits and reservations end. -/
def dropTransit (l : Nat) (t : LinkSt) (s : State) : State :=
  let x := s.link l
  let n := (x.replayBuf.map (fun f => f.ends.length)).sum + (if x.sending.isSome then 1 else 0)
  let s := s.setLink l { x with
    general := [], bounce := [], sending := none, replayBuf := x.replayBuf.map (fun f => { f with ends := [] }),
    input := x.input ++ (x.bounce ++ x.general).map (fun k => (s.now, k)), spillCredit := false, spillMaxW := none,
    localQ := [], oldCanal := none, discard := x.discard || n != 0, cnt := listUpd x.cnt 8 (wrapAdd · n) }
  event 0x44 (if n = 0 then 2 else 4) l [w32 t.code, w32 n] x.cmd s

/-- Link l goes to state t (R264, R327): a link that was UP, or that was to return to UP, drops its transit unless it
retrains. -/
def setLinkSt (l : Nat) (t : LinkSt) (s : State) : State :=
  let x := s.link l
  let s := if (x.st == .up && t != .up && t != .retrain) || (x.st == .retrain && x.prev == .up && t != .up) then
      dropTransit l t s
    else s
  s.onLink l (fun x =>
    if x.st.known && !t.known then { x with st := t, settleFrom := s.now, settled := false }
    else { x with st := t })

/-- The sequence state, the timestamps and the stored Bib end where a link trains anew or goes down (R255, R265). -/
def Link.clearFlow (x : Link) : Link :=
  { x with txSeq := 0, rxSeq := 0, nakOut := false, replayBuf := [], replayAt := none, replayCnt := 0, lastNak := none,
           ctlQ := [], bibValid := false, bibAcked := false, laneMapNext := none, resync := false, peerNarrow := false,
           reqTx := none, ansTx := none, ansRx := none, txOut := none }

/-- Training begins (R255). -/
def startTraining (l : Nat) (s : State) : State :=
  (setLinkSt l .training s).onLink l (fun x => { x.clearFlow with step := .equalise, trainStart := s.now })

/-- The link becomes FAILED (R254, R255, R261). -/
def failLink (l : Nat) (s : State) : State := (setLinkSt l .failed s).onLink l Link.clearFlow

/-- The link enters DISABLED (R265); one that was enabled again meanwhile trains. -/
def disableLink (l : Nat) (s : State) : State :=
  let s := (setLinkSt l .disabled s).onLink l (fun x => { x.clearFlow with disableAt := none, cmd := noDseq })
  if (s.link l).enable then startTraining l s else s

/-- The link enters RETRAIN (R252, R263), its sequence numbers, its replay buffer and a lane switch that is announced kept: d is
the DSEQ of the command that asks for it. -/
def retrainLink (l : Nat) (d : BitVec 32) (s : State) : State :=
  let x := s.link l
  if !x.st.flits then s
  else (setLinkSt l .retrain s).onLink l (fun y => { y with prev := x.st, retrainAt := s.now, cmd := d })

/-- The replay buffer of a link that is to be disabled is empty (R265). -/
def endDisable (l : Nat) (s : State) : State :=
  let x := s.link l
  if x.disableAt.isSome && x.replayBuf.isEmpty && x.sending.isNone then disableLink l s else s

/-- ENABLE of link l is written (R265, R327): d is the DSEQ of the command that writes it. -/
def writeEnable (l : Nat) (on : Bool) (d : BitVec 32) (s : State) : State :=
  let x := s.link l
  let s := s.onLink l (fun x => { x with enable := on })
  if on then
    let s := s.onLink l (fun x => { x with settleFrom := s.now, settled := false })
    if x.st == .disabled then startTraining l s else s
  else if x.st == .disabled || x.disableAt.isSome then s
  else
    let s := s.onLink l (fun x => { x with cmd := d })
    if x.st.flits || x.st == .retrain then endDisable l (s.onLink l (fun x => { x with disableAt := some s.now }))
    else disableLink l s

/-- LNK_CFG is written with the seal open (R10, R272). -/
def writeLnkCfg (l : Nat) (v : BitVec 32) (s : State) : State :=
  let n := v.toNat
  let s := s.onLink l (fun x => { x with
    medium := if field n 1 2 = 3 then x.medium else BitVec.ofNat 2 (field n 1 2)
    autoSpare := bitOf n 3
    minWidth := if field n 4 3 = 0 || 4 < field n 4 3 then x.minWidth else BitVec.ofNat 3 (field n 4 3)
    replayLimit := if field n 7 4 = 0 then x.replayLimit else BitVec.ofNat 4 (field n 7 4)
    laneThresh := if field n 11 8 = 0 then x.laneThresh else BitVec.ofNat 8 (field n 11 8) })
  writeEnable l (bitOf n 0) noDseq s

/-- LNK_CFG_ENABLE_WRITE (R8, R255, R265, R272). -/
def execLnkCfgEnableWrite (l : Nat) (v : BitVec 32) (s : State) : Out := s.busWrite <|
  when (l < 18 && s.cfgSeal.st == .open) (writeLnkCfg l v s) s

/-- LINK_DISABLE_TIMEOUT (R265): what is still not acknowledged after 10 µs is discarded. -/
def execLinkDisableTimeout (l : Nat) (s : State) : Out := s.live <|
  match (s.link l).disableAt with
  | none => .next s
  | some t => .next (disableLink l (s.advanceTo (t.toNat + 10000)))

/-! ### The Bib -/

/-- HS_GEN: the generation of the Heat Sheet in force; 0: none (R257, R331). -/
def State.hsGen (s : State) : Nat := leNat (s.router.hs.take 4)

/-- The CRC of a Bib (R257). -/
def bibCrc (n : Nat) : Nat := (crc32c (leBytes 28 n)).toNat

/-- The Bib that link l sends (R257). -/
def State.ownBib (s : State) (l : Nat) : BitVec 256 :=
  let n := s.sec.serial.toNat + putField 64 s.router.id.toNat + putField 79 (b2n s.router.idSrc) + putField 80 l
    + putField 88 1 + putField 96 s.hsGen + putField 128 (s.link l).lanesOk.toNat
  BitVec.ofNat 256 (n + putField 224 (bibCrc n))

/-- A Bib is valid (R258). -/
def bibOk (b : BitVec 256) : Bool :=
  field b.toNat 224 32 = bibCrc (b.toNat % 2 ^ 224) && field b.toNat 88 8 = 1

/-- Link l queues a CONTROL flit (R249). -/
def sendCtl (l kind : Nat) (body : BitVec 256) (s : State) : State :=
  s.onLink l (fun x => { x with ctlQ := x.ctlQ ++ [(BitVec.ofNat 8 kind, body)] })

/-- Link l sends its Bib and its admission state (R255, R258, R326). -/
def sendBib (l : Nat) (s : State) : State :=
  let b := s.ownBib l
  let s := s.onLink l (fun x => { x with bibTx := b, bibAcked := false, bibSent := s.now })
  sendCtl l 2 (BitVec.ofNat 256 (b2n (s.link l).admits)) (sendCtl l 1 b s)

/-- A Bib is stored (R258): discovery has to decide the link on one that is new (R322, R326). -/
def storeBib (l : Nat) (b : BitVec 256) (s : State) : State :=
  let chg := (s.link l).bibRx != 0 && (s.link l).bibRx != b
  let s := s.onLink l (fun x => { x with
    bibRx := b, bibValid := true, bibChg := x.bibChg || chg, undecided := x.undecided || !x.bibValid || x.bibRx != b })
  if chg then note 0x40 l ((List.range 8).map (fun i => w32 (field b.toNat (32 * i) 32))) noDseq s else s

/-- A Bib is received (R255, R258): discovery decides the link afterwards (R322). -/
def takeBib (l : Nat) (b : BitVec 256) (s : State) : State :=
  let x := s.link l
  if !bibOk b then s.onLink l (fun x => { x with bibBad := true })
  else
    let chg := x.bibRx != b
    let s := sendCtl l 3 0 (storeBib l b s)
    if x.st == .bib || (chg && (x.st == .up || x.st == .quarantine)) then setLinkSt l .held s else s

/-- BIB (R255, R258). -/
def execBib (l : Nat) (b : BitVec 256) (s : State) : Out := s.live <| when (s.link l).st.flits (takeBib l b s) s

/-- BIB_RESEND_TIMER (R255): a Bib not acknowledged is sent again, 1 ms after it was sent last. -/
def execBibResendTimer (l : Nat) (s : State) : Out := s.live <|
  let x := s.link l
  when (x.st.flits && !x.bibAcked) (sendBib l (s.advanceTo (x.bibSent.toNat + 1000000))) s

/-! ### Canals -/

/-- SERIAL of the Bib stored on link l. -/
def State.peerSerial (s : State) (l : Nat) : Nat := field (s.link l).bibRx.toNat 0 64

/-- The enabled Canal whose registers name link l (R267, R325). -/
def State.canalReg (s : State) (l : Nat) : Option Nat :=
  (List.range 18).find? (fun c => (s.link c).canalEn && (s.link c).members.getLsbD (s.linkRole l))

/-- The Canal of link l: until its packet boundary the one it was in when its packet began (R270). -/
def State.canalOf (s : State) (l : Nat) : Option Nat := (s.link l).oldCanal.getD (s.canalReg l)

/-- Members of Canal c that are UP (R267). -/
def State.canalUp (s : State) (c : Nat) : List Nat :=
  (List.range 18).filter (fun l => (s.link l).st == .up && s.canalOf l == some c)

/-- Active members of Canal c, ascending (R267). -/
def State.canalActive (s : State) (c : Nat) : List Nat :=
  match s.canalUp c with
  | [] => []
  | m :: r => m :: r.filter (fun l => s.peerSerial l = s.peerSerial m)

/-- MISMATCH of each Canal with an UP member that reaches another device (R267). -/
def noteMismatch (s : State) : State :=
  (List.range 18).foldl (fun s c =>
    if (s.canalUp c).length != (s.canalActive c).length then s.onLink c (fun x => { x with canalMismatch := true }) else s) s

/-- LNK_CANALSTAT of Canal c (R274). -/
def State.canalStat (s : State) (c : Nat) : BitVec 32 :=
  let ms := s.canalActive c
  w32 ((ms.map (fun m => 2 ^ m)).sum + putField 18 ((ms.map (fun m => (s.link m).tx.width)).sum)
    + putField 25 (b2n (s.link c).canalOverlap) + putField 26 (b2n (s.link c).canalMismatch) + putField 27 (b2n ms.isEmpty))

/-- The packets queued on link l go back to the router (R264, R270). -/
def returnQueue (l : Nat) (s : State) : State :=
  s.onLink l (fun x => { x with
    general := [], bounce := [], input := x.input ++ (x.bounce ++ x.general).map (fun k => (s.now, k)) })

/-- A change of the Canal of link l, until now o, takes effect (R270): a link that leaves a Canal returns its queued packets. -/
def canalChange (l : Nat) (o : Option Nat) (s : State) : State :=
  let s := s.onLink l (fun x => { x with oldCanal := none })
  if s.canalReg l = o || o.isNone then s else returnQueue l s

/-- Link l is at a packet boundary: a change of its Canal takes effect (R270). -/
def packetBoundary (l : Nat) (s : State) : State :=
  match (s.link l).oldCanal with
  | none => s
  | some o => noteMismatch (canalChange l o s)

/-- LNK_CANAL of Canal c is written with the seal open (R267, R270): a link in mid-packet stays in its Canal until its boundary. -/
def writeCanal (c : Nat) (v : BitVec 32) (s : State) : State :=
  let ms : BitVec 18 := v.truncate 18
  let en := v.getLsbD 18
  if en && (List.range 18).any (fun d => d != c && (s.link d).canalEn && (s.link d).members &&& ms != 0) then
    s.onLink c (fun x => { x with canalOverlap := true })
  else
    noteMismatch ((List.range 18).foldl (fun t l =>
      let o := s.canalOf l
      if (s.link l).sending.isSome && t.canalReg l != o then t.onLink l (fun x => { x with oldCanal := some o })
      else canalChange l o t) (s.onLink c (fun x => { x with members := ms, canalEn := en })))

/-- CANAL_WRITE (R8, R267, R270). -/
def execCanalWrite (c : Nat) (v : BitVec 32) (s : State) : Out := s.busWrite <|
  when (c < 18 && s.cfgSeal.st == .open) (writeCanal c v s) s

/-! ### Admission -/

/-- Link l enters UP (R291, R326): it holds the credit for the far end's Spillway buffer. -/
def enterUp (l : Nat) (s : State) : State :=
  noteMismatch ((setLinkSt l .up s).onLink l (fun x => { x with spillCredit := true, turn := 0 }))

/-- The link's state follows the admission of both ends (R326), once this end has decided on the Bib it holds. -/
def settleAdmit (l : Nat) (s : State) : State :=
  let x := s.link l
  if x.st == .held && x.admits && x.peerAdmit && !x.undecided then enterUp l s
  else if x.st == .up && !(x.admits && x.peerAdmit) then setLinkSt l .held s
  else s

/-- The far end's admission state arrives (R326). -/
def takeAdmission (l : Nat) (admits : Bool) (s : State) : State :=
  settleAdmit l (s.onLink l (fun x => { x with peerAdmit := admits }))

/-- ADMISSION_NOTICE (R326). -/
def execAdmissionNotice (l : Nat) (admits : Bool) (s : State) : Out := s.live <|
  when (s.link l).st.flits (takeAdmission l admits s) s

/-! ### Lane maps -/

/-- The device is in RETAIN or on its way in, and links run at width 1 (R261, R266). -/
def State.narrow (s : State) : Bool := s.power.st == .retain || (s.power.busy && s.power.target == .retain)

/-- Link l runs at width 1 because this device or the far end is in RETAIN (R261, R266). -/
def State.narrowAt (s : State) (l : Nat) : Bool := s.narrow || (s.link l).peerNarrow

/-- Lane p of a direction takes a state. -/
def Lanes.setSt (n : Lanes) (p : Nat) (t : LaneSt) : Lanes := { n with st := listUpd n.st p (fun _ => t) }

/-- State of lane p. -/
def Lanes.at (n : Lanes) (p : Nat) : LaneSt := n.st.getD p .off

/-- The lanes of a direction under a map: logical lanes 0 and up, and the spare. -/
def Lanes.remap (n : Lanes) (act : List Nat) (spare : Nat) : Lanes :=
  { logical := act ++ List.replicate (4 - act.length) 7
    spare
    st := n.st.zipIdx.map (fun e =>
      if act.contains e.2 then .active else if e.2 = spare then .standby else if e.1 == .failed then .failed else .off)
    width := act.length }

/-- Active lanes of a direction, in logical order. -/
def Lanes.active (n : Lanes) : List Nat := n.logical.filter (· != 7)

/-- The map after lanes of a direction have failed (R260, R266). -/
def Lanes.without (n : Lanes) (bad : List Nat) (auto narrow : Bool) : Lanes :=
  let n := bad.foldl (fun n p => n.setSt p .failed) n
  let lost := n.active.filter bad.contains
  let spare := if bad.contains n.spare then 7 else n.spare
  match lost with
  | [] => { n with spare }
  | p :: more =>
    let act :=
      if narrow then ((List.range 5).filter (fun q => n.at q != .failed)).take 1
      else if auto && spare != 7 then
        let a := n.active.map (fun q => if q = p then spare else q)
        if more.isEmpty then a else (List.range 5).filter (fun q => a.contains q && !bad.contains q)
      else (List.range 5).filter (fun q => n.active.contains q && !bad.contains q)
    n.remap act (if !narrow && auto then 7 else spare)

/-- The lowest active physical lane of a direction, which carries the timestamps (R226, R253). -/
def Lanes.lowest (n : Lanes) : Nat := n.active.foldl min 7

/-- A transmit direction narrows to one lane (R266): its map is kept for the return. -/
def Link.narrowed (x : Link) : Link :=
  match x.fullTx with
  | some _ => x
  | none =>
    let n := x.laneMapNext.getD x.tx
    { x with fullTx := some n, laneMapNext := n.active.head?.map (fun a => x.tx.remap [a] 7) }

/-- The map that restores a width (R266): the one before the link narrowed, without the lanes that failed since and with those
requalified since. -/
def Link.restored (x : Link) (n : Lanes) : Lanes :=
  let bad := (List.range 5).filter (fun p => x.tx.at p == .failed && n.at p != .failed)
  let m := n.without bad x.autoSpare false
  let new := (List.range 5).filter (fun p => n.at p == .failed && x.tx.at p != .failed)
  let act := (m.active ++ new).take 4
  let left := (m.active ++ new).drop 4
  if new.isEmpty then m
  else (new.foldl (fun m p => m.setSt p .off) m).remap act (if m.spare = 7 then left.headD 7 else m.spare)

/-- A transmit direction takes its earlier width again (R266). -/
def Link.widened (x : Link) : Link :=
  match x.fullTx with
  | none => x
  | some n => { x with fullTx := none, laneMapNext := some (x.restored n) }

/-- A link that carries flits announces the map that its width asks for: one lane in RETAIN, else the earlier width (R261, R266). -/
def fitWidth (l : Nat) (s : State) : State :=
  s.onLink l (fun x => if s.narrowAt l then x.narrowed else x.widened)

/-- Link l tells the far end its lanes, its width and whether it is in RETAIN (R249, R266), laid out as log 16 says. -/
def sendWidth (l : Nat) (s : State) : State :=
  sendCtl l 4 (BitVec.ofNat 256 ((s.link l).tx.word.toNat + putField 32 (b2n s.narrow))) s

/-! ### Training -/

/-- A training step ends and the next begins (R255). -/
def trainStep (l : Nat) (a b : TrainStep) (s : State) : Out :=
  let x := s.link l
  when (x.st == .training && x.step == a) (s.onLink l (fun x => { x with step := b })) s

/-- LANE_EQUALISATION_DONE (R255). -/
def execLaneEqualisationDone (l : Nat) (s : State) : Out := s.live <| trainStep l .equalise .deskew s

/-- LANE_DESKEW_DONE (R255). -/
def execLaneDeskewDone (l : Nat) (s : State) : Out := s.live <| trainStep l .deskew .qualify s

/-- Lanes of a direction once qualified (R256): the passing ones are logical 0 to 3 in ascending order; a fifth is the spare. -/
def qualified (pass : List Nat) : Lanes :=
  let act := pass.take 4
  { logical := act ++ List.replicate (4 - act.length) 7
    spare := (pass.drop 4).headD 7
    st := (List.range 5).map (fun p => if act.contains p then .active else if pass.contains p then .standby else .failed)
    width := act.length }

/-- LANE_QUALIFY_WINDOW_END (R255, R256, R261): rxLock are the receive lanes that kept lock, rxErrs their symbol errors, txPass
the transmit lanes that passed at the far end. -/
def execLaneQualifyWindowEnd (l : Nat) (rxLock : BitVec 5) (rxErrs : List (BitVec 32)) (txPass : BitVec 5) (s : State) : Out := s.live <|
  let x := s.link l
  if x.st != .training || x.step != .qualify then .next s
  else
    let ok := (List.range 5).filter (fun p => rxLock.getLsbD p && (rxErrs.getD p 0).toNat ≤ x.laneThresh.toNat * 1024)
    let tx := qualified ((List.range 5).filter txPass.getLsbD)
    let rx := qualified ok
    let s := s.onLink l (fun x => { x with
      tx, rx, step := .agree, lanesOk := txPass, fullTx := none, laneChg := true, sym := (List.range 5).map (fun p => rxErrs.getD p 0),
      laneFail := x.laneFail || tx.st.contains .failed || rx.st.contains .failed })
    .next (if tx.width < x.minWidth.toNat || rx.width < x.minWidth.toNat then failLink l s else s)

/-- LANE_MAP_AGREED (R255, R266): sequence numbers start at 0, and the link enters BIB; in RETAIN it narrows. -/
def execLaneMapAgreed (l : Nat) (s : State) : Out := s.live <|
  let x := s.link l
  when (x.st == .training && x.step == .agree)
    (let s := sendBib l ((setLinkSt l .bib s).onLink l (fun x => { x.clearFlow with step := .done }))
     if s.narrow then sendWidth l (fitWidth l s) else s) s

/-- LINK_TRAINING_TIMEOUT (R255): 250 ms. -/
def execLinkTrainingTimeout (l : Nat) (s : State) : Out := s.live <|
  let x := s.link l
  when (x.st == .training || x.st == .bib || (x.st == .retrain && x.prev == .bib)) (failLink l (s.advanceTo (x.trainStart.toNat + 250000000))) s

/-! ### Lanes in service -/

/-- A direction below its least width makes the link FAILED (R261, R266). -/
def checkWidth (l : Nat) (w : Nat) (s : State) : State :=
  if w < (if s.narrowAt l then 1 else (s.link l).minWidth.toNat) then failLink l s else s

/-- Receive lane p becomes FAILED (R259, R262). The far end brings in a spare or narrows (R260). -/
def failRxLane (l p : Nat) (s : State) : State :=
  let x := s.link l
  let was := x.rx.at p
  if was != .active && was != .standby then s
  else
    let rx := x.rx.setSt p .failed
    let rx := if was == .standby then { rx with spare := 7 } else { rx with width := rx.width - 1 }
    let s := s.onLink l (fun x => { x with rx, laneFail := true })
    let s := if was == .standby then laneRecord 0x42 2 l s else s
    let left := (List.range 5).filter (fun q =>
      if s.narrowAt l then rx.at q != .failed else rx.at q == .active || rx.at q == .standby)
    checkWidth l left.length s

/-- LANE_SIGNAL_LOSS (R252, R259): `all` says that every active lane of the direction lost marker lock at once. -/
def execLaneSignalLoss (l lane : Nat) (all : Bool) (s : State) : Out := s.live <|
  if !(s.link l).st.flits then .next s
  else .next (if all then retrainLink l noDseq s else failRxLane l lane s)

/-- SYMBOL_WINDOW_END (R259, R274): `errs` are the errors of the lanes' markers and idle codewords, beside those of the codewords
received. -/
def execSymbolWindowEnd (l : Nat) (errs : List (BitVec 32)) (s : State) : Out := s.live <|
  let x := s.link l
  if !x.st.flits then .next s
  else
    let es := (List.range 5).map (fun p => satAdd (errs.getD p 0) (x.symRun.getD p 0).toNat)
    let s := s.onLink l (fun x => { x with sym := es, symRun := [0, 0, 0, 0, 0] })
    .next ((List.range 5).foldl (fun s p =>
      if x.laneThresh.toNat * 1024 < (es.getD p 0).toNat then failRxLane l p s else s) s)

/-- The map announced by the far end applies to the receive lanes (R260, R262). -/
def switchRx (l : Nat) (map : List Nat) (spare : Nat) (s : State) : State :=
  let old := (s.link l).rx
  let rx := old.remap (map.filter (fun p => p < 5 && old.at p != .failed)) spare
  let came := rx.active.any (fun p => old.at p == .standby)
  let less := rx.width < old.active.length && !s.narrowAt l
  let s := s.onLink l (fun x => { x with
    rx, spareIn := x.spareIn || came, degraded := x.degraded || less, laneChg := x.laneChg || rx.lowest != old.lowest })
  let s := if came then laneRecord 0x41 3 l s else s
  let s := if less then laneRecord 0x42 2 l s else s
  checkWidth l rx.width s

/-- The transmit map announced by this end takes effect at its marker (R260). -/
def switchTx (l : Nat) (s : State) : State :=
  match (s.link l).laneMapNext with
  | none => s
  | some n =>
    let old := (s.link l).tx
    let came := n.active.any (fun p => old.at p == .standby)
    let less := n.width < old.active.length && !s.narrowAt l
    checkWidth l n.width (s.onLink l (fun x => { x with
      tx := n, laneMapNext := none, spareIn := x.spareIn || came, degraded := x.degraded || less,
      laneChg := x.laneChg || n.lowest != old.lowest }))

/-- The far end reports its FAILED receive lanes (R260, R261): the first report of a lane is acted on; a lane no longer
reported has been requalified. -/
def takeReport (l : Nat) (failed : List Nat) (s : State) : State :=
  let x := s.link l
  let bad := (List.range 5).filter (fun p => failed.contains p && x.tx.at p != .failed)
  let good := (List.range 5).filter (fun p => !failed.contains p && x.tx.at p == .failed)
  if !bad.isEmpty then
    let n := x.tx.without bad x.autoSpare (s.narrowAt l)
    s.onLink l (fun x => { x with
      tx := bad.foldl (fun n p => n.setSt p .failed) { x.tx with
        spare := if bad.contains x.tx.spare then 7 else x.tx.spare
        width := x.tx.width - (bad.filter (fun p => x.tx.at p == .active)).length }
      laneMapNext := if n.logical == x.tx.logical then none else some n, laneFail := true })
  else match good with
    | [] => s
    | p :: _ =>
      let tx := x.tx.setSt p .standby
      if s.narrowAt l then s.onLink l (fun x => { x with tx := x.tx.setSt p .off })
      else if tx.active.length < 4 then
        s.onLink l (fun x => { x with tx, laneMapNext := some (tx.remap (tx.active ++ [p]) tx.spare) })
      else s.onLink l (fun x => { x with tx := { tx with spare := p } })

/-- MARKER_RECEIVE (R260): newMap is the far end's new map: the physical lanes of logical 0 and up, and the spare. -/
def execMarkerReceive (l : Nat) (failed : List Nat) (newMap : Option (List Nat × Nat)) (s : State) : Out := s.live <|
  if !(s.link l).st.flits then .next s
  else
    let s := switchTx l s
    let s := match newMap with
      | some (m, p) => switchRx l m p s
      | none => s
    .next (if (s.link l).st.flits then takeReport l failed s else s)

/-! ### RETRAIN -/

/-- A link returns from RETRAIN (R263, R264): to its state before it where the Bib is the stored one; recabled, to HELD with nothing
to replay. A link on which discovery has yet to decide goes to HELD too (R321, R326). -/
def endRetrain (l : Nat) (b : BitVec 256) (s : State) : State :=
  let x := s.link l
  if x.bibValid && x.bibRx = b then
    settleAdmit l (setLinkSt l (if x.undecided && x.prev.known then .held else x.prev) s)
  else (setLinkSt l .held (storeBib l b s)).onLink l (fun x => { x with replayBuf := [] })

/-- RETRAIN_COMPLETE (R258, R262, R263, R266, R267, R326): b is the Bib exchanged; the replay waits for the far end's first flit. -/
def execRetrainComplete (l : Nat) (b : BitVec 256) (s : State) : Out := s.live <|
  let x := s.link l
  if x.st != .retrain then .next s
  else if !bibOk b then .next (s.onLink l (fun x => { x with bibBad := true }))
  else
    let s := (endRetrain l b s).onLink l (fun x => { x with
      retrained := true, resync := true, replayAt := none, replayCnt := 0, lastNak := none,
      nakOut := false, bibTx := s.ownBib l, bibAcked := true, cmd := noDseq })
    let s := sendCtl l 2 (BitVec.ofNat 256 (b2n (s.link l).admits)) s
    let s := if s.narrow || x.fullTx.isSome then sendWidth l (fitWidth l s) else s
    .next (event 0x43 1 l [(s.link l).stat] x.cmd (noteMismatch s))

/-- RETRAIN_TIMEOUT (R263): 10 ms. -/
def execRetrainTimeout (l : Nat) (s : State) : Out := s.live <|
  let x := s.link l
  when (x.st == .retrain) (startTraining l (s.advanceTo (x.retrainAt.toNat + 10000000))) s

/-! ### Flits -/

/-- ACK_SEQ of a flit frees what it acknowledges (R251), which ends its count of replays (R252). -/
def Link.acked (x : Link) (q : BitVec 12) : Link :=
  let n := if q = x.txSeq then x.replayBuf.length else ((x.replayBuf.findIdx? (fun f => f.seq == q)).getD 0)
  { x with replayBuf := x.replayBuf.drop n,
           replayCnt := if n = 0 then x.replayCnt else 0, lastNak := if n = 0 then x.lastNak else none,
           replayAt := match x.replayAt with
             | some i => if x.replayBuf.length ≤ n then none else some (i - n)
             | none => none }

/-- A NAK starts a replay from ACK_SEQ (R251, R252). -/
def takeNak (l : Nat) (q : BitVec 12) (s : State) : State :=
  let x := s.link l
  let same := match x.lastNak with | some (p, _) => p == q | none => false
  let soon := match x.lastNak with | some (p, t) => p == q && s.now.toNat < t.toNat + 2000 | none => false
  if x.replayBuf.isEmpty || soon then s
  else
    let n := if same then x.replayCnt else 0
    if x.replayLimit.toNat ≤ n then retrainLink l noDseq s
    else s.setLink l { x with replayAt := some 0, replayCnt := n + 1, lastNak := some (q, s.now) }

/-- After a RETRAIN the far end's first flit reports the sequence number that it expects, and the replay starts there (R263). A link
recabled has nothing to replay, and goes on from that number (log 64). -/
def Link.resynced (x : Link) (q : BitVec 12) : Link :=
  if x.resync then
    { x with resync := false, replayAt := if x.replayBuf.isEmpty then none else some 0,
             txSeq := if x.replayBuf.isEmpty then q else x.txSeq }
  else x

/-- The far end's lanes and width arrive (R249, R261, R266): in its RETAIN this direction narrows too, and widens after it. -/
def takeWidth (l : Nat) (narrow : Bool) (s : State) : State := fitWidth l (s.onLink l (fun x => { x with peerNarrow := narrow }))

/-- The content of an accepted CONTROL flit (R249, R255, R266, R326). -/
def takeCtl (l : Nat) (kind : BitVec 8) (body : BitVec 256) (s : State) : State :=
  if kind = 1 then takeBib l body s
  else if kind = 2 then takeAdmission l (body.getLsbD 0) s
  else if kind = 3 then s.onLink l (fun x => { x with bibAcked := true })
  else if kind = 4 then takeWidth l (body.getLsbD 32) s
  else s

/-- The symbols of a codeword that the code corrects, by the lane that carried them (R247, R259): symbols go round the active lanes in
logical order. -/
def Link.countSymbols (x : Link) (f : Flit) : Link :=
  let act := x.rx.active
  { x with symRun := f.badSymbols.foldl (fun r i => listUpd r (act.getD (i % act.length) 7) (satAdd · 1)) x.symRun }

/-- FLIT_RECEIVE (R247, R249 to R252, R259, R263, R265, R275). -/
def execFlitReceive (l : Nat) (f : Flit) (s : State) : Out := s.live <|
  if !(s.link l).st.flits then .next s
  else
    let up (k : Nat) (c : Bool) (s : State) : State :=
      if c then s.onLink l (fun x => { x with cnt := listUpd x.cnt k (wrapAdd · 1) }) else s
    let s := up 2 (!f.decodes) (up 1 (f.decodes && !f.badSymbols.isEmpty) (up 0 true s))
    let s := if f.decodes then s.onLink l (·.countSymbols f) else s
    let s := up 5 (f.decodes && !f.crcOk) s
    let ok := f.decodes && f.crcOk
    let x := s.link l
    let take := ok && f.type != 2 && f.seq == x.rxSeq
    let bad := !ok || (f.type != 2 && f.seq != x.rxSeq)
    let s := up 6 (bad && !x.nakOut) (s.onLink l (fun x => { x with nakOut := if take then false else x.nakOut || bad }))
    let s := if take then up 4 true (s.onLink l (fun x => { x with rxSeq := x.rxSeq + 1 })) else s
    let s := if ok then
        let s := s.onLink l (fun x => (x.acked f.ackSeq).resynced f.ackSeq)
        if f.nak then takeNak l f.ackSeq s else s
      else s
    let s := if take && f.type = 1 then takeCtl l f.ctlKind f.ctlBody s else s
    .next (endDisable l s)

/-! ### Host commands -/

/-- LINK_ENABLE (R265, R396, R399, R424). -/
def execLinkEnable (w : Win) (mask value : BitVec 32) (s : State) : Out := s.live <|
  command w 0x60 [mask.toNat, value.toNat] (fun d s =>
    if 2 ^ 18 ≤ mask.toNat || 1 < value.toNat then refuse stRsvEnc s
    else if s.cfgSeal.st != .open then refuse stState s
    else done ((List.range 18).foldl (fun s l =>
      if mask.getLsbD l then writeEnable l (value.getLsbD 0) d s else s) s)) s

/-- LINK_RETRAIN (R255, R263, R396): a FAILED link trains anew. -/
def execLinkRetrain (w : Win) (mask : BitVec 32) (s : State) : Out := s.live <|
  command w 0x61 [mask.toNat] (fun d s =>
    if 2 ^ 18 ≤ mask.toNat then refuse stRsvEnc s
    else
      let ls := (List.range 18).filter (fun l => mask.getLsbD l)
      if ls.any (fun l => !(s.link l).st.flits && (s.link l).st != .failed) then refuse stState s
      else done (ls.foldl (fun s l => if (s.link l).st == .failed then startTraining l s else retrainLink l d s) s)) s

/-- LANE_REQUALIFY (R261, R396). -/
def execLaneRequalify (w : Win) (link lane : BitVec 32) (s : State) : Out := s.live <|
  command w 0x62 [link.toNat, lane.toNat] (fun d s =>
    let x := s.link link.toNat
    if 18 ≤ link.toNat || 5 ≤ lane.toNat then refuse stRange s
    else if !x.st.flits || x.rx.at lane.toNat != .failed then refuse stState s
    else if x.requal.isSome then refuse stBusy s
    else accept w 0x62 d (link.toNat * 8 + lane.toNat) (s.onLink link.toNat (fun x => { x with requal := some (lane.toNat, d) }))) s

/-- LANE_REQUALIFY_COMPLETE (R261): a lane that passes becomes STANDBY; the far end brings it in where the width is below 4. -/
def execLaneRequalifyComplete (l : Nat) (pass : Bool) (s : State) : Out := s.live <|
  match (s.link l).requal with
  | none => .next s
  | some (p, d) =>
    let s := s.onLink l (fun x => { x with
      requal := none
      rx := if pass && x.rx.at p == .failed then
          { x.rx.setSt p .standby with spare := if x.rx.spare = 7 then p else x.rx.spare }
        else x.rx })
    .next (finishLong d stOk [(s.link l).rx.word] s)

end Sys2Proof.Machine
end

