-- ==== Sys2Proof/Machine/Reservoir.lean ====
section
/-! DEFINITION. Device memory as any unit reads and writes it (R138, R145), the mesh (R141 to R143), the Plot DMA (R150 to
R156), and the region registers (R146, R147). -/

namespace Sys2Proof.Machine

/-! ### Device memory -/

/-- What a read of device memory gives: an error code (R156; 0 for none), the bytes, and the offsets of the poisoned ones. -/
structure Got where
  /-- 0, 1 UNMAPPED or 2 RANGE -/
  err : Nat := 0
  /-- the bytes -/
  bytes : List Byte := []
  /-- offsets of poisoned bytes -/
  bad : List Nat := []
  deriving DecidableEq, Repr

/-- The spread of a piece of device memory that one Reservoir or one window holds. -/
def spaces (a n : Nat) : List (Nat × Nat) := pieces rsvBytes a n

/-- The physical Plot of a Reservoir piece, where `self` makes the access (R145, R481). -/
def State.rsvPlot (s : State) (self : Option Nat) : Space → Option (Nat × Nat)
  | .rsv l o => (s.phys? l).map (·, o)
  | .own o => self.map (·, o)
  | _ => none

/-- Why a piece of device memory cannot be accessed (R156): 0 for no reason, 1 UNMAPPED, 2 RANGE. -/
def State.pieceErr (s : State) (self : Option Nat) (q : Nat × Nat) : Nat :=
  match spaceOf q.1 with
  | .hbm => if (pieces 256 q.1 q.2).any (fun u => (s.hbmAt u.1).isNone) then 1 else 0
  | p => if (s.rsvPlot self p).isSome then 0 else 2

/-- Why a run of device memory cannot be accessed: the code of its first piece that cannot. -/
def State.memErr (s : State) (self : Option Nat) (a n : Nat) : Nat :=
  (((spaces a n).map (s.pieceErr self)).find? (· != 0)).getD 0

/-- An access to a run of device memory has to wait: HBM in it cannot be accessed yet (R170, R177, R178). -/
def State.memWaits (s : State) (a n : Nat) : Bool :=
  (spaces a n).any (fun q => spaceOf q.1 == .hbm && s.hbmWaits q.1 q.2)

/-- Read n bytes at a of the Reservoir of physical Plot p; `ecc` names what SECDED finds (R137, R138). -/
def readRsv (p a n : Nat) (ecc : List EccHit) (s : State) : Got × State :=
  let s := rsvHits p a n ecc s
  let x := s.plot p
  let ws := x.badWords a n
  ({ bytes := x.resv.bytes a n,
     bad := if ws.isEmpty then [] else (List.range n).filter (fun i => ws.contains ((a + i) / 8)) }, s)

/-- Read one piece; `ecc` names what SECDED finds, with the physical Plot whose Reservoir it is in. -/
def readPiece (self : Option Nat) (q : Nat × Nat) (ecc : List (Nat × EccHit)) (s : State) : Got × State :=
  match spaceOf q.1 with
  | .hbm =>
    match s.hbmRead q.1 q.2 with
    | none => ({ err := 1 }, s)
    | some (bs, bad) => ({ bytes := bs, bad }, (if bad.isEmpty then s else s.hbmMet q.1 q.2).hbmTouch q.1 q.2)
  | p =>
    match s.rsvPlot self p with
    | none => ({ err := 2 }, s)
    | some (t, o) => readRsv t o q.2 (hitsOf t ecc) s

/-- Read n bytes of device memory at a, for physical Plot `self` or another unit (R145). -/
def devRead (self : Option Nat) (a n : Nat) (ecc : List (Nat × EccHit)) (s : State) : Got × State :=
  (spaces a n).foldl (fun (g : Got × State) q =>
    if g.1.err != 0 then g else
    let r := readPiece self q ecc g.2
    ({ err := r.1.err, bytes := g.1.bytes ++ r.1.bytes, bad := g.1.bad ++ r.1.bad.map (· + (q.1 - a)) }, r.2)) ({}, s)

/-- Words of a run that a write covers only in part (R135). -/
def edgeWords (a n : Nat) : List Nat :=
  (wordsOf a n).filter (fun w => !(a ≤ 8 * w && 8 * w + 8 ≤ a + n))

/-- Write bytes to the Reservoir of physical Plot p; `bad` are the offsets of poisoned bytes, whose words are written
poisoned (R135, R137, R138). -/
def writeRsvAt (p a : Nat) (bs : List Byte) (bad : List Nat) (ecc : List EccHit) (s : State) : State :=
  let s := (ecc.filter (fun h => (edgeWords a bs.length).contains (h.addr / 8))).foldl (fun s h => rsvHit p h s) s
  s.onPlot p (fun x =>
    let x := x.writeRsv a bs
    let ws := ((bad.map (fun i => (a + i) / 8)).eraseDups).filter (fun w => !x.resvPoison.contains w)
    { x with resvPoison := x.resvPoison ++ ws })

/-- Write one piece, which is known to have a place. -/
def writePiece (self : Option Nat) (a : Nat) (bs : List Byte) (bad : List Nat) (ecc : List (Nat × EccHit)) (s : State) : State :=
  match spaceOf a with
  | .hbm => ((s.hbmWrite a bs).getD s).hbmPoison (bad.map (· + a))
  | p =>
    match s.rsvPlot self p with
    | none => s
    | some (t, o) => writeRsvAt t o bs bad (hitsOf t ecc) s

/-- Write bytes of device memory at a (R145): the error code, 0 where it is written; nothing of a refused one is. -/
def devWrite (self : Option Nat) (a : Nat) (bs : List Byte) (bad : List Nat) (ecc : List (Nat × EccHit)) (s : State) :
    Nat × State :=
  let e := s.memErr self a bs.length
  if e != 0 then (e, s) else
  (0, (spaces a bs.length).foldl (fun s q =>
    let o := q.1 - a
    writePiece self q.1 ((bs.drop o).take q.2)
      ((bad.filter (fun i => o ≤ i && i < o + q.2)).map (· - o)) ecc s) s)

/-! ### Appends -/

/-- The tag of an append by a transfer of physical Plot p of this device. -/
def localTag (p seq : Nat) : Nat := 2 * (seq * 512 + p)

/-- The tag of an append by packets of device `src` under a TAG. -/
def remoteTag (src : BitVec 14) (tag : BitVec 16) : Nat := 2 * (src.toNat * 65536 + tag.toNat) + 1

/-- The read half of the partial-word writes of n bytes of an append, from byte o of reservation r of physical Plot p (R135,
R137): the errors in words that the bytes cover only in part. -/
def appendHits (p : Nat) (b : Inbox) (r : Resv) (o n : Nat) (ecc : List EccHit) (s : State) : State :=
  (ecc.filter (fun h =>
    let k := ((List.range n).filter (fun i => b.resvAddr r (o + i) / 8 == h.addr / 8)).length
    0 < k && k < 8)).foldl (fun s h => rsvHit p h s) s

/-- Bytes of an append arrive at inbox n of physical Plot p, at byte o of the append (R110, R135, R154, R507): the first ones
reserve; answers the error code, 0 or 4 APPEND. -/
def appendBytes (p n : Nat) (slot : Bool) (rows rowB tag o : Nat) (bs : List Byte) (bad : List Nat) (ecc : List EccHit)
    (s : State) : Nat × State :=
  if (s.plot p).lostAppends.contains tag then (4, s)
  else
    let known := ((s.plot p).pacer.inbox n).resv.any (fun r => r.tag == tag)
    let r := if known then (true, s) else if rows = 0 then (false, s) else appendReserve p n slot rows rowB tag s
    if !r.1 then (4, r.2.onPlot p (fun x => { x with lostAppends := tag :: x.lostAppends }))
    else
      let b := (r.2.plot p).pacer.inbox n
      match b.resv.find? (fun q => q.tag == tag) with
      | none => (0, r.2)
      | some q =>
        (0, (appendLand p n tag o bs (appendHits p b q o bs.length ecc r.2)).onPlot p (fun x => { x with resvPoison := x.resvPoison ++
          (((bad.map (fun i => b.resvAddr q (o + i) / 8)).eraseDups).filter (fun w => !x.resvPoison.contains w)) }))

/-- The sender closes an append (R154). -/
def appendClose (p n tag : Nat) (s : State) : State :=
  s.onPlot p (fun x =>
    { x.onPacer (·.onInbox n (fun b =>
        { b with resv := b.resv.map (fun r => if r.tag = tag then { r with closed := true } else r) }))
      with lostAppends := x.lostAppends.filter (· != tag) })

/-! ### Plot DMA -/

/-- Bytes of a transfer. -/
def DmaD.total (d : DmaD) : Nat := d.rows * d.rowBytes

/-- The source address of byte o of a transfer (R150, R151). -/
def DmaCmd.srcAt (c : DmaCmd) (d : DmaD) (o : Nat) : Nat := d.src + c.ixS + o / d.rowBytes * d.srcPitch * 16 + o % d.rowBytes

/-- The destination address of byte o of a transfer (R150, R151). -/
def DmaCmd.dstAt (c : DmaCmd) (d : DmaD) (o : Nat) : Nat := d.dst + c.ixD + o / d.rowBytes * d.dstPitch * 16 + o % d.rowBytes

/-- Every request of a transfer's source has been issued, or the transfer has stopped (R155, R156). -/
def DmaCmd.allIssued (c : DmaCmd) : Bool := c.started && (c.err.isSome || (parseDma c.desc).total ≤ c.next)

/-- The transfer of physical Plot p with an issue number. -/
def State.dma? (s : State) (p seq : Nat) : Option DmaCmd := (s.plot p).dmaQ.find? (fun c => c.seq == seq)

/-- Change a transfer. -/
def State.onDma (s : State) (p seq : Nat) (f : DmaCmd → DmaCmd) : State :=
  s.onPlot p (fun x => { x with dmaQ := x.dmaQ.map (fun c => if c.seq = seq then f c else c) })

/-- A transfer fails (R156, R157): it stops, PLT_DSTAT and the DMA_FAULT record say why. -/
def dmaFail (p seq code : Nat) (s : State) : State :=
  match s.dma? p seq with
  | none => s
  | some c =>
    if c.err.isSome then s
    else
      let s := s.onDma p seq (fun c => { c with err := some (BitVec.ofNat 3 code) })
      let s := s.onPlot p (fun x => if x.dErr then x else
        { x with dErr := true, dErrCode := BitVec.ofNat 3 code, dErrSlot := BitVec.ofNat 8 c.slot })
      event 5 4 p [s.lplotW p, w32 code, w32 c.slot] noDseq s

/-- Issue the reads of a transfer, in messages of at most 2 KiB that stay in one 4 KiB block, while at most 128 KiB of read
data is outstanding over the transfers of the Plot (R155). -/
def issueReads (p seq : Nat) : Nat → State → State
  | 0, s => s
  | fuel + 1, s =>
    match s.dma? p seq with
    | none => s
    | some c =>
      let d := parseDma c.desc
      let a := c.srcAt d c.next
      let n := min (min 2048 (d.rowBytes - c.next % d.rowBytes)) (4096 - a % 4096)
      let held := ((s.plot p).dmaQ.map (·.readBytes)).sum
      if c.allIssued || 131072 < held + n then s
      else
        let m : MeshMsg := { plot := p, seq, off := c.next, addr := BitVec.ofNat 48 a, len := n }
        issueReads p seq fuel
          ({ s with mesh := s.mesh ++ [m] }.onDma p seq (fun c =>
            { c with next := c.next + n, outReads := c.outReads + 1, readBytes := c.readBytes + n }))

/-- DMA_TRANSFER_START (R155): the next transfer in issue order, once every request of those before it has been issued. -/
def execDmaTransferStart (p : Nat) (s : State) : Out := s.plotLive p <|
  match (s.plot p).dmaQ.find? (fun c => !(c.allIssued && c.outReads = 0)) with
  | none => .next s
  | some c =>
    if c.started then .next s
    else .next (issueReads p c.seq 131072 (s.onDma p c.seq (fun c => { c with started := true })))

/-- ARG of the packets of a remote append (R278; the rest of it log 13). -/
def DmaD.appendArg (d : DmaD) (last : Bool) : Nat :=
  let geo :=
    if d.append = 1 then
      (if d.rowBytes % 128 = 0 && d.rowBytes / 128 < 1024 then d.rows + putField 12 (d.rowBytes / 128) else 0)
    else (if d.total % 128 = 0 && d.total / 128 < 2 ^ 22 then d.total / 128 else 0)
  d.inbox + putField 2 (d.raise % 64) + putField 8 (b2n last) + putField 9 geo + putField 31 (b2n (bitOf d.raise 7))

/-- A packet of a remote transfer: bytes at byte o of it, or the closing one (R151, R278, R297). -/
def DmaCmd.packet (c : DmaCmd) (d : DmaD) (o : Nat) (bs : List Byte) (last : Bool) : Packet :=
  let a := c.dstAt d o
  let rsvDst := match spaceOf (d.dst + c.ixD) with | .hbm => false | _ => true
  { cls := if d.cls then 2 else 4, dst := BitVec.ofNat 14 d.device, baton := last, payload := bs,
    op := BitVec.ofNat 4 d.append,
    addr := if d.append = 0 then BitVec.ofNat 48 a else BitVec.ofNat 48 ((d.dst + c.ixD) / rsvBytes * rsvBytes + o % rsvBytes),
    arg := w32 (if d.append = 0 then (if rsvDst then d.raise else 0) + putField 8 (b2n last) else d.appendArg last) }

/-- Send a packet of a remote transfer; its packets share one TAG (log 13). -/
def sendDma (p seq : Nat) (c : DmaCmd) (k : Packet) (s : State) : State :=
  let t := c.tag.getD s.router.nextTag
  let s := if c.tag.isSome then s else { s with router := { s.router with nextTag := t + 1 } }
  let s := s.onDma p seq (fun c => { c with tag := some t, outWrites := c.outWrites + 1 })
  requestTag k { tag := t, owner := p, item := seq, bytes := k.payload.length } s

/-- The bytes of a piece with those of poisoned destination words zero (R138). -/
def zeroBad (a : Nat) (bs : List Byte) (bad : List Nat) : List Byte :=
  maskBytes 0 a bs ((bad.map (fun i => (a + i) / 8)).eraseDups)

/-- The writes of a piece of data of a transfer, at byte o of it (R138, R152, R154). -/
def sendPiece (p seq o : Nat) (bs : List Byte) (bad : List Nat) (s : State) : State :=
  match s.dma? p seq with
  | none => s
  | some c =>
    let d := parseDma c.desc
    let a := c.dstAt d o
    if d.remote then sendDma p seq c (c.packet d o (zeroBad a bs bad) false) s
    else
      let ap := if d.append = 0 then none else some (d.append, d.inbox, d.rows, d.rowBytes)
      let qs := if d.append = 0 then pieces 4096 a bs.length else [(d.dst + c.ixD, bs.length)]
      let ms : List MeshMsg := qs.map (fun q =>
        let i := if d.append = 0 then q.1 - a else 0
        { plot := p, seq, off := o + i, write := true, addr := BitVec.ofNat 48 q.1, len := q.2,
          data := (bs.drop i).take q.2, poison := (bad.filter (fun j => i ≤ j && j < i + q.2)).map (· - i), append := ap })
      { s with mesh := s.mesh ++ ms }.onDma p seq (fun c => { c with outWrites := c.outWrites + ms.length })

/-- A remote transfer whose data is all sent, or which has failed, is closed by its last packet (R154, R278, R297). -/
def closeRemote (p seq : Nat) (s : State) : State :=
  match s.dma? p seq with
  | none => s
  | some c =>
    let d := parseDma c.desc
    if d.remote && c.allIssued && c.outReads = 0 && !c.closed then
      sendDma p seq c (c.packet d (d.total - 1) [] true) (s.onDma p seq (fun c => { c with closed := true }))
    else s

/-- The answer to a write of a transfer returns, over the mesh or the fabric (R155, R156, R157). -/
def dmaAck (p seq n code : Nat) (s : State) : State :=
  let s := s.onDma p seq (fun c =>
    { c with outWrites := c.outWrites - 1, bytes := if code = 0 && c.err.isNone then c.bytes + n else c.bytes })
  if code = 0 then s else closeRemote p seq (dmaFail p seq code s)

/-! ### The mesh -/

/-- A stop of the mesh (R140). -/
inductive MeshStop where
  /-- the stop of physical Plot p -/
  | plot (p : Nat)
  /-- an edge stop of stack k, the second of its two or the first -/
  | edge (k : Nat) (second : Bool)
  /-- the corner stop of I/O die d -/
  | corner (d : Nat)
  deriving DecidableEq, Repr

/-- The stop that a message's address names (R140): a Plot's, or the edge stop of a stack that serves the byte (log 18). An address
that names no place is answered at the corner of I/O die 0 (log 18). -/
def State.stopOf (s : State) (m : MeshMsg) : MeshStop :=
  match spaceOf m.addr.toNat with
  | .hbm => match s.hbmAt m.addr.toNat with
    | some (k, b) => .edge k (Config.edgeStop k b)
    | none => .corner 0
  | p => match s.rsvPlot (some m.plot) p with
    | some (t, _) => .plot t
    | none => .corner 0

/-- The k-th message on the mesh, where it is of the class and no earlier one goes from the same stop to the same stop
(R143). -/
def State.meshAt (s : State) (k : Nat) (rsp : Bool) : Option (MeshMsg × List MeshMsg) :=
  match takeAt s.mesh k with
  | none => none
  | some (m, rest) =>
    if m.rsp == rsp && !(s.mesh.take k).any (fun e => e.rsp == rsp && e.plot == m.plot && s.stopOf e == s.stopOf m)
    then some (m, rest) else none

/-- Serve a request of the mesh: its reply (R141, R154, R156). -/
def serveMesh (m : MeshMsg) (ecc : List (Nat × EccHit)) (s : State) : MeshMsg × State :=
  let reply (code : Nat) : MeshMsg :=
    { m with rsp := true, data := [], poison := [], err := if code = 0 then none else some (BitVec.ofNat 3 code) }
  match m.write, m.append with
  | true, none =>
    let r := devWrite (some m.plot) m.addr.toNat m.data m.poison ecc s
    (reply r.1, r.2)
  | true, some (kind, n, rows, rb) =>
    match s.rsvPlot (some m.plot) (spaceOf m.addr.toNat) with
    | none => (reply 2, s)
    | some (t, _) =>
      let r := appendBytes t n (kind = 2) rows rb (localTag m.plot m.seq) m.off m.data m.poison (hitsOf t ecc) s
      (reply r.1, r.2)
  | false, _ =>
    let r := devRead (some m.plot) m.addr.toNat m.len ecc s
    ({ reply r.1.err with data := r.1.bytes, poison := r.1.bad }, r.2)

/-- MESH_REQ (R141, R142, R143): a request waits where its HBM cannot be accessed yet. -/
def execMeshReq (k : Nat) (ecc : List (Nat × EccHit)) (s : State) : Out := s.live <|
  match s.meshAt k false with
  | none => .next s
  | some (m, rest) =>
    if s.memWaits m.addr.toNat m.len then .next s
    else
      let r := serveMesh m ecc { s with mesh := rest }
      .next { r.2 with mesh := r.2.mesh ++ [r.1] }

/-- Read data comes back to its transfer (R138, R155, R156): it goes to its destination, unless the transfer has failed. -/
def dmaData (m : MeshMsg) (s : State) : State :=
  match s.dma? m.plot m.seq with
  | none => s
  | some c =>
    let s := s.onDma m.plot m.seq (fun c => { c with outReads := c.outReads - 1, readBytes := c.readBytes - m.len })
    let s :=
      if c.err.isSome then s
      else match m.err with
        | some e => dmaFail m.plot m.seq e.toNat s
        | none =>
          let s := sendPiece m.plot m.seq m.off m.data m.poison s
          if m.poison.isEmpty then s else dmaFail m.plot m.seq 3 s
    closeRemote m.plot m.seq (issueReads m.plot m.seq 131072 s)

/-- MESH_RSP (R141, R155). -/
def execMeshRsp (k : Nat) (s : State) : Out := s.live <|
  match s.meshAt k true with
  | none => .next s
  | some (m, rest) =>
    let s := { s with mesh := rest }
    .next (if m.write then dmaAck m.plot m.seq m.len ((m.err.map (·.toNat)).getD 0) s else dmaData m s)

/-- The destination bytes of a failed transfer on this device are undefined (R156, log 2): those it could have written. A
poisoned word stays poisoned (R138). -/
def scramble (p : Nat) (c : DmaCmd) (s : State) : State :=
  let d := parseDma c.desc
  if d.remote || d.append != 0 then s else
  (List.range d.rows).foldl (fun s r =>
    (spaces (c.dstAt d (r * d.rowBytes)) d.rowBytes).foldl (fun s q =>
      if s.pieceErr (some p) q != 0 then s
      else
        let b := s.drawBytes q.2
        match spaceOf q.1 with
        | .hbm =>
          (pieces 256 q.1 q.2).foldl (fun s u =>
            match s.hbmAt u.1 with
            | none => s
            | some (k, sb) => s.onStack k (fun x =>
                { x with mem := x.mem.write (x.key sb) ((b.1.drop (u.1 - q.1)).take u.2) })) b.2
        | sp =>
          match s.rsvPlot (some p) sp with
          | none => s
          | some (t, o) => b.2.onPlot t (fun x => { x with resv := x.resv.write o b.1 })) s) s

/-- DST_RAISE of a completed transfer (R155, R156): on the Plot that owns the Reservoir, or the issuing Plot. That of a
remote Reservoir is made at its device; that of an unmapped window is dropped (log 39). -/
def dmaRaise (p : Nat) (c : DmaCmd) (s : State) : State :=
  let d := parseDma c.desc
  if !bitOf d.raise 7 then s
  else match spaceOf (d.dst + c.ixD) with
    | .hbm => raiseLocal p (d.raise % 64) s
    | sp => if d.remote then s else
      match s.rsvPlot (some p) sp with
      | some (t, _) => raiseLocal t (d.raise % 64) s
      | none => s

/-- DMA_TRANSFER_COMPLETE (R97, R155, R156, R157): in issue order, once every byte is acknowledged. -/
def execDmaTransferComplete (p : Nat) (s : State) : Out := s.plotLive p <|
  match (s.plot p).dmaQ with
  | [] => .next s
  | c :: rest =>
    let d := parseDma c.desc
    if !(c.allIssued && c.outReads = 0 && c.outWrites = 0 && (!d.remote || c.closed)) then .next s
    else
      let s := if c.err.isSome then scramble p c s else s
      let s := s.onPlot p (fun x => { x with
        dmaQ := rest, dBytes := x.dBytes + BitVec.ofNat 64 c.bytes,
        pacer := { x.pacer with work := x.pacer.work.map (fun w => if w.seq = c.seq then { w with dma := false } else w) } })
      let s :=
        if d.remote || d.append = 0 then s
        else match s.rsvPlot (some p) (spaceOf (d.dst + c.ixD)) with
          | none => s
          | some (t, _) => appendClose t d.inbox (localTag p c.seq) s
      .next (dmaRaise p c s)

/-! ### Inbox events -/

/-- INBOX_APPEND_RESERVE (R110, R154). -/
def execInboxAppendReserve (p n : Nat) (slot : Bool) (rows rowBytes tag : Nat) (s : State) : Out := s.plotLive p <|
  .next (appendReserve p n slot rows rowBytes tag s).2

/-- INBOX_APPEND_COMPLETE (R110, R111, R154): an append whose bytes have all landed, or which its sender has closed, ends. -/
def execInboxAppendComplete (p n tag : Nat) (s : State) : Out := s.plotLive p <|
  let b := (s.plot p).pacer.inbox n
  when (b.resv.any (fun r => r.tag == tag && !r.done && (r.closed || (b.gaps r).isEmpty))) (appendEnd p n tag s) s

/-! ### Region registers -/

/-- A region with one register written (R10, R149): a reserved encoding leaves its field as it was. -/
def Region.set (r : Region) (reg : RgnReg) (v : BitVec 64) : Region :=
  let n := v.toNat
  match reg with
  | .base => { r with base := v.truncate 36 }
  | .size => { r with size := v.truncate 36 }
  | .soff => { r with soff := v.truncate 24 }
  | .cfg => { r with mode := if field n 0 2 = 3 then r.mode else BitVec.ofNat 2 n, side := BitVec.ofNat 2 (field n 2 2),
                     stack := if 24 ≤ field n 4 5 then r.stack else BitVec.ofNat 5 (field n 4 5),
                     sluice := bitOf n 9, valid := bitOf n 10 }

/-- The stacks a region uses (R146). -/
def Region.stks (r : Region) : List Nat :=
  match r.mode.toNat with
  | 0 => List.range 24
  | 1 => (List.range 6).map (· + 6 * r.side.toNat)
  | _ => [r.stack.toNat]

/-- The units of stack k that a region uses (R146): first and end. Unit c of the region lies on the stack at place c modulo their
number. -/
def Region.on (r : Region) (k : Nat) : Nat × Nat :=
  let n := r.stks.length
  match r.stks.idxOf? k with
  | some i => (r.soff.toNat, r.soff.toNat + (r.size.toNat + (n - 1 - i)) / n)
  | none => (r.soff.toNat, r.soff.toNat)

/-- Two regions share a device address or a stack byte (R147). -/
def Region.clash (a b : Region) : Bool :=
  let meet (p q : Nat × Nat) : Bool := max p.1 q.1 < min p.2 q.2
  meet (a.base.toNat, a.base.toNat + a.size.toNat) (b.base.toNat, b.base.toNat + b.size.toNat)
  || a.stks.any (fun k => b.stks.contains k && meet (a.on k) (b.on k))

/-- The region uses an offset, or has a size, outside R146 (R147). -/
def Region.outOfRange (r : Region) : Bool :=
  r.stks.any (fun k => (r.on k).1 < (r.on k).2 && 15728640 < (r.on k).2) || (r.mode.toNat = 0 && r.size.toNat % 24 != 0) || (r.mode.toNat = 1 && r.size.toNat % 6 != 0)

/-- A write with the seal open after which region n would stand as r (R147, R149). -/
def regionPut (n : Nat) (r : Region) (s : State) : State :=
  let g := s.regions
  let ovl := r.valid && g.tbl.any (fun e => e.1 != n && e.2.valid && r.clash e.2)
  let rng := r.valid && r.outOfRange
  if ovl || rng then
    { s with regions := { g with overlap := g.overlap || ovl, range := g.range || rng, region := BitVec.ofNat 6 n } }
  else { s with regions := { g with tbl := g.tbl.put n r } }

/-- A write to a region register, with the seal open (R147, R149). -/
def regionSet (n : Nat) (reg : RgnReg) (v : BitVec 64) (s : State) : State := regionPut n ((s.regions.tbl.get n {}).set reg v) s

/-- A lower word staged for a register of region r is discarded by a write of all of it (R412). -/
def dropRegion (r : Nat) (reg : RgnReg) (s : State) : State :=
  match reg with
  | .base => dropStage 600 (0x2600000 + 0x20 * r) s
  | .size => dropStage 600 (0x2600008 + 0x20 * r) s
  | _ => s

/-- REGION_WRITE (R8, R147, R412, R424): ignored while the seal is closed. -/
def execRegionWrite (r : Nat) (reg : RgnReg) (v : BitVec 64) (s : State) : Out := s.busWrite <|
  when (s.cfgSeal.st == .open && r < 64) (regionSet r reg v (dropRegion r reg s)) s

end Sys2Proof.Machine
end

