-- ==== Sys2Proof/Machine/Discovery.lean ====
section
/-! DEFINITION. The Heat Sheet and discovery (R316 to R331): installing a Heat Sheet, and the outcome, admission and state of each
link. -/

namespace Sys2Proof.Machine

/-- Change the router and discovery. -/
def State.onRouter (s : State) (f : Router → Router) : State := { s with router := f s.router }

/-- A link entry of a Heat Sheet (R319). -/
structure HsEntry where
  /-- PEER_SERIAL -/
  serial : Nat
  /-- PEER_ID -/
  id : Nat
  /-- PEER_LINK -/
  link : Nat
  /-- USE -/
  use : Bool
  /-- SWAP_OK -/
  swapOk : Bool
  /-- reserved bits -/
  rsv : Nat
  deriving DecidableEq, Repr

/-- Entry l of a Heat Sheet (R319). -/
def hsEntry (h : List Byte) (l : Nat) : HsEntry :=
  let n := leNat ((h.drop (0x40 + 16 * l)).take 16)
  { serial := field n 0 64, id := field n 64 14, link := field n 78 5, use := bitOf n 83, swapOk := bitOf n 84,
    rsv := field n 85 43 }

/-- Why a Heat Sheet is refused (R320): 0 for none. -/
def hsReject (h : List Byte) (serial : Nat) : Nat :=
  let n := leNat (h.take 0x40)
  let es := (List.range 18).map (hsEntry h)
  if field n 16 16 = 0 then 1
  else if field n 64 64 != 0 && field n 64 64 != serial then 2
  else if field n 46 18 != 0 || field n 128 384 != 0 || es.any (fun e => e.rsv != 0 || 17 < e.link) then 3
  else if es.zipIdx.any (fun a => a.1.use && (es.take a.2).any (fun b => b.use && b.id = a.1.id && b.link = a.1.link)) then 4
  else 0

/-- SELF_ID of a Heat Sheet (R319). -/
def hsSelf (h : List Byte) : Nat := field (leNat (h.take 8)) 32 14

/-- An accepted Heat Sheet takes force (R317, R321, R326, R327): every link's settle time starts again, discovery has to decide each
link again, one that was UP or in QUARANTINE returns to HELD, and every link that exchanges Bibs sends its own again. -/
def installHs (h : List Byte) (s : State) : State :=
  let id := hsSelf h
  let s := s.onRouter (fun r => { r with
    hs := h, id := BitVec.ofNat 14 id, idSrc := false, strapDiff := r.strapDiff || id != s.boot.strap.toNat % 2 ^ 14 })
  (List.range 18).foldl (fun s l =>
    let s := s.onLink l (fun x => { x with settleFrom := s.now, settled := false, undecided := true })
    let s := if (s.link l).st == .up || (s.link l).st == .quarantine then setLinkSt l .held s else s
    if (s.link l).st.flits then sendBib l s else s) s

/-- HEATSHEET_INSTALL (R137, R317, R319, R320, R396). -/
def execHeatsheetInstall (w : Win) (addr : BitVec 64) (ecc : List (Nat × EccHit)) (s : State) : Out := s.live <|
  command w 0x63 [addr.toNat] (fun _ s =>
    let a := addr.toNat
    let r := devRead none a 352 ecc s
    let g := r.1
    if a % 64 != 0 || 2 ^ 48 < a + 352 || g.err != 0 then refuse stRange s
    else
      let s := r.2
      let c := hsReject g.bytes s.sec.serial.toNat
      if c = 0 then { st := stOk, res := pack [(4, 0)], s := installHs g.bytes s }
      else { st := stRefused, res := pack [(4, c)],
             s := s.onRouter (fun r => { r with hsReject := true, hsRejCode := BitVec.ofNat 3 c }) }) s

/-! ### Decisions -/

/-- What a stored Bib says of its sender (R257). -/
structure BibD where
  /-- SERIAL -/
  serial : Nat
  /-- FABRIC_ID -/
  id : Nat
  /-- LINK -/
  link : Nat
  /-- HS_GEN -/
  gen : Nat
  deriving DecidableEq, Repr

/-- The stored Bib of link l, where there is one (R258). -/
def State.bibOf (s : State) (l : Nat) : Option BibD :=
  let x := s.link l
  let n := x.bibRx.toNat
  if x.bibValid then some { serial := field n 0 64, id := field n 64 14, link := field n 80 5, gen := field n 96 32 }
  else none

/-- A Bib fits an entry (R323). -/
def BibD.fits (b : BibD) (e : HsEntry) : Bool := b.id = e.id && b.link = e.link && (e.serial = 0 || b.serial = e.serial)

/-- Decision on a link: OUTCOME code, ADMIT, PAIR, REMAP and DUP (R323 to R325). -/
structure Verd where
  /-- OUTCOME (R324) -/
  out : Nat
  /-- ADMIT -/
  admits : Bool := false
  /-- PAIR -/
  pair : Nat := 31
  /-- REMAP -/
  remap : Bool := false
  /-- DUP -/
  dup : Bool := false
  deriving DecidableEq, Repr

/-- Link l is settled (R327): FAB_DISCCFG.SETTLE ms have passed since its settle time began. -/
def State.settledAt (s : State) (l : Nat) : Bool := (s.link l).settleFrom.toNat + s.router.settle.toNat * 1000000 ≤ s.now.toNat

/-- The pair of a Bib that fits another link's entry (R323): PENDING while that link has no Bib and link l has not settled,
SWAPPED where both fit crosswise. -/
def State.swapWith (s : State) (l : Nat) (b : BibD) : Option Verd :=
  let h := s.router.hs
  ((List.range 18).filterMap (fun m =>
    if m = l || !((hsEntry h m).use && b.fits (hsEntry h m)) then none
    else match s.bibOf m with
      | none => if s.settledAt l then none else some { out := 7 }
      | some c =>
        if c.fits (hsEntry h l) then
          some { out := 2, pair := m, remap := s.router.id.toNat < b.id, admits := (hsEntry h l).swapOk && (hsEntry h m).swapOk }
        else none)).head?

/-- The outcome of link l (R323). -/
def State.judge (s : State) (l : Nat) : Verd :=
  let h := s.router.hs
  let e := hsEntry h l
  if h.isEmpty then (match s.bibOf l with | some _ => { out := 6, admits := true } | none => { out := 0 })
  else match s.bibOf l with
    | none => if e.use && s.settledAt l then { out := 3 } else { out := 0 }
    | some b =>
      if field b.gen 16 16 != 0 && field b.gen 16 16 != field s.hsGen 16 16 then { out := 5 }
      else if b.id = s.router.id.toNat && b.serial != s.sec.serial.toNat then { out := 4, dup := true }
      else if e.use && b.fits e then { out := 1, admits := true }
      else (s.swapWith l b).getD { out := 4 }

/-- LNK_DISC (R331). -/
def Link.disc (x : Link) : BitVec 32 :=
  w32 (x.outcome.toNat + putField 3 (b2n x.admits) + putField 4 (b2n x.peerAdmit) + putField 5 x.pair.toNat
    + putField 10 (b2n x.remap) + putField 11 (b2n x.dup))

/-- The DISCOVERY record of link l (R328, R400), laid out as log 16 says. -/
def discRecord (l : Nat) (s : State) : State :=
  let x := s.link l
  let e := hsEntry s.router.hs l
  let b := (s.bibOf l).getD { serial := 0, id := 0, link := 0, gen := 0 }
  note 0x48 l [({ x with peerAdmit := false }).disc, w32 (e.id + putField 14 e.link), w32 (b.id + putField 14 b.link),
    w32 b.gen, w32 e.serial, w32 (e.serial / 2 ^ 32), w32 b.serial, w32 (b.serial / 2 ^ 32)] noDseq s

/-- The link state that a decision gives link l (R324, R326). -/
def follow (l : Nat) (v : Verd) (s : State) : State :=
  let x := s.link l
  if !x.st.known then s
  else if v.out = 4 || v.out = 5 || (v.out = 2 && !v.admits) then (if x.st == .quarantine then s else setLinkSt l .quarantine s)
  else if v.out = 7 then (if x.st == .held then s else setLinkSt l .held s)
  else if v.admits then settleAdmit l (if x.st == .quarantine then setLinkSt l .held s else s)
  else settleAdmit l s

/-- Decide link l (R322 to R328). -/
def decideLink (l : Nat) (s : State) : State :=
  let x := s.link l
  let v := s.judge l
  let s := s.setLink l { x with
    undecided := false, outcome := BitVec.ofNat 3 v.out, admits := v.admits, pair := BitVec.ofNat 5 v.pair, remap := v.remap, dup := v.dup }
  let chg := x.outcome.toNat != v.out || x.admits != v.admits
  let s := if chg then (discRecord l s).onRouter (fun r => { r with hsChange := true }) else s
  let s := if x.admits != v.admits && x.st.flits then sendCtl l 2 (BitVec.ofNat 256 (b2n v.admits)) s else s
  follow l v s

/-- The other link of a pair that a decision made or dissolved (R325). -/
def pairOf (x y : Link) : Option Nat :=
  if y.outcome = 2 then some y.pair.toNat else if x.outcome = 2 then some x.pair.toNat else none

/-- One decision pass (R322, R325): the link and every PENDING one, ascending; then the other links of the pairs that it made or
dissolved, which are SWAPPED together or not at all. -/
def discoveryPass (l : Nat) (s : State) : State :=
  let ls := (List.range 18).filter (fun m => m = l || (s.link m).outcome = 7)
  let t := ls.foldl (fun t m => decideLink m t) s
  ls.foldl (fun t m =>
    match pairOf (s.link m) (t.link m) with
    | some j => if j < 18 && ((t.link j).outcome = 2) != ((t.link m).outcome = 2) then decideLink j t else t
    | none => t) t

/-- DISCOVERY_PASS (R322). -/
def execDiscoveryPass (l : Nat) (s : State) : Out := s.live <| when (l < 18) (discoveryPass l s) s

/-- LINK_SETTLE (R322, R327). -/
def execLinkSettle (l : Nat) (s : State) : Out := s.live <|
  let x := s.link l
  when (l < 18 && !(x.settled && s.settledAt l))
    (discoveryPass l ((s.advanceTo (x.settleFrom.toNat + s.router.settle.toNat * 1000000)).onLink l
      (fun x => { x with settled := true }))) s

end Sys2Proof.Machine
end

