-- ==== Sys2Proof/Machine/Power.lean ====
section
/-! DEFINITION. The power caps and clock ceilings in force (R241), telemetry snapshots (R437), requests for a power state
(R466), and the Power Marshal's commands of the host (R396). -/

namespace Sys2Proof.Machine

/-- Change the power block. -/
def State.onPower (s : State) (f : Power → Power) : State := { s with power := f s.power }

/-- Change power island i. -/
def State.onIsland (s : State) (i : Nat) (f : Island → Island) : State :=
  s.onPower (fun q => { q with islands := listUpd q.islands i f })

/-- The smaller of a limit and another that is absent when 0 (R241). -/
def capMin (a b : Nat) : Nat := if b = 0 then a else min a b

/-- cap_eff without the hold governor's limit (R241, R440). -/
def Power.capBase (q : Power) : Nat :=
  capMin (capMin (capMin q.tdp.toNat q.capBmc.toNat) q.capPcw.toNat) q.capStr.toNat

/-- cap_eff (R241). -/
def Power.capEff (q : Power) : Nat := if q.hold then min q.capBase q.capHold.toNat else q.capBase

/-- The clock that stands for the bin clock (R1, R465): 600 MHz in TRIM. -/
def State.topMhz (s : State) : Nat := if s.power.st == .trim then 600 else s.binMhz

/-- ceil_hw of an island (R436). -/
def State.ceilHw (s : State) (i : Nat) : Nat :=
  let d := s.power.islands.getD i {}
  let f := if d.hwThrottle then s.binMhz * 6 / 10 else s.binMhz
  if d.droop then f / 2 else f

/-- ceil_eff of an island (R241). -/
def State.ceilEff (s : State) (i : Nat) : Nat :=
  let d := s.power.islands.getD i {}
  capMin (capMin (capMin (min s.topMhz (s.ceilHw i)) d.ceilBmc) d.ceilPcw) d.ceilStr

/-- The hottest sensor of the device, as its RSC copies read (R445, R446). -/
def Power.hottest (q : Power) : Nat := (q.islands.map (·.temp.toNat)).foldl max 0

/-- A telemetry snapshot under a tag (R437, R445). -/
def State.snapshot (s : State) (tag : Nat) : List (BitVec 32) :=
  let q := s.power
  let g (i : Nat) : Nat := (q.islands.getD i {}).grant / 25 % 256
  let gw (k : Nat) : BitVec 32 := w32 (g (4 * k) + putField 8 (g (4 * k + 1)) + putField 16 (g (4 * k + 2))
    + putField 24 (g (4 * k + 3)))
  [w32 (q.p1us.toNat + putField 16 q.capEff), w32 (tag + putField 12 q.hottest), 0, 0, gw 0, gw 1, gw 2, gw 3]

/-- The power state of a code (R470). -/
def pwrOf (n : Nat) : PwrSt := if n = 0 then .run else if n = 1 then .trim else if n = 2 then .idle else .retain

/-- The code of a power state (R470). -/
def PwrSt.code : PwrSt → Nat
  | .run => 0
  | .trim => 1
  | .idle => 2
  | .retain => 3

/-- Some listed Plot's Pacer satisfies a condition; a Plot not listed is STOPPED. -/
def State.anyPacer (s : State) (f : Pacer → Bool) : Bool := s.plots.any (fun e => f e.2.pacer)

/-- The condition of a target state holds (R466). -/
def State.pwrOk (s : State) (t : PwrSt) : Bool :=
  match t with
  | .run => true
  | .trim => true
  | .idle => !s.anyPacer (·.active)
  | .retain => !s.anyPacer (fun q => q.st != .stopped)

/-- A request for a power state (R466): false where it is refused. -/
def powerRequest (t : PwrSt) (s : State) : Bool × State :=
  if s.power.busy || !s.pwrOk t then (false, s.onPower (fun q => { q with refused := true }))
  else if s.power.st == t then (true, s)
  else (true, s.onPower (fun q => { q with busy := true, target := t, reqAt := s.now }))

/-! ### Host commands -/

/-- POWER_CAP (R241, R396). A value over 16 bits has no place in PWR_CAP1. -/
def execPowerCap (w : Win) (watts : BitVec 32) (s : State) : Out := s.live <|
  command w 0x70 [watts.toNat] (fun _ s =>
    if 65535 < watts.toNat then refuse stRsvEnc s
    else done (s.onPower (fun q => { q with capPcw := watts.truncate 16 }))) s

/-- Set one source's ceiling of the islands of a mask (R241). -/
def setCeils (mask : Nat) (f : Island → Island) (s : State) : State :=
  s.onPower (fun q => { q with islands := q.islands.zipIdx.map (fun e => if bitOf mask e.2 then f e.1 else e.1) })

/-- CLOCK_CEIL (R241, R396). -/
def execClockCeil (w : Win) (islands mhz : BitVec 32) (s : State) : Out := s.live <|
  command w 0x71 [islands.toNat, mhz.toNat] (fun _ s =>
    if 65535 < islands.toNat then refuse stRsvEnc s
    else done (setCeils islands.toNat (fun d => { d with ceilPcw := mhz.toNat }) s)) s

/-- TELEMETRY (R396). -/
def execTelemetry (w : Win) (s : State) : Out := s.live <|
  command w 0x73 [] (fun _ s =>
    { st := stOk, s, res := pack ([(4, s.power.p1us.toNat), (4, s.power.capEff), (4, s.power.hottest)])
        ++ (List.range 16).flatMap (fun i => leBytes 2 (s.power.islands.getD i {}).grant) }) s

end Sys2Proof.Machine
end

