-- ==== Sys2Proof/Machine/Starter.lean ====
section
/-! DEFINITION. The Starter (R231 to R242): its entries and Plot sets, dispatch, the end of an entry, and the events that
act on the Plots and on power. -/

namespace Sys2Proof.Machine

/-- Change the Starter. -/
def State.onStarter (s : State) (f : Starter → Starter) : State := { s with starter := f s.starter }

/-- Entry e; every field 0 where none has been written. -/
def State.ev (s : State) (e : Nat) : Ev := s.starter.evs.get e {}

/-- Set entry e. -/
def State.setEv (s : State) (e : Nat) (v : Ev) : State := s.onStarter (fun q => { q with evs := q.evs.put e v })

/-- The entry's 32 bytes as a number (R232). -/
def Ev.word (v : Ev) : Nat :=
  v.time.toNat + putField 64 v.kind.toNat + putField 72 v.status.toNat + putField 80 (b2n v.valid)
    + putField 81 (b2n v.reqLock) + putField 82 (b2n v.owner) + putField 83 (b2n v.late) + putField 96 v.period.toNat
    + putField 128 v.rept.toNat + putField 144 v.pset.toNat + putField 148 v.argA.toNat + putField 160 v.argB.toNat

/-- The entry that a STARTER_WRITE carries; STATUS, OWNER and LATE are the Starter's (R232). -/
def parseEv (w : Nat) (jcw : Bool) : Ev :=
  { time := BitVec.ofNat 64 w, kind := BitVec.ofNat 8 (field w 64 8), valid := bitOf w 80, reqLock := bitOf w 81,
    owner := jcw, period := BitVec.ofNat 32 (field w 96 32), rept := BitVec.ofNat 16 (field w 128 16),
    pset := BitVec.ofNat 4 (field w 144 4), argA := BitVec.ofNat 12 (field w 148 12),
    argB := BitVec.ofNat 32 (field w 160 32) }

/-- A kind names a Plot set (R233). -/
def kindPset (k : Nat) : Bool := 1 ≤ k && k ≤ 4

/-- A reserved encoding or a reserved field of a written entry is not 0 (R232, R233). -/
def evReserved (w : Nat) (v : Ev) : Bool :=
  let k := v.kind.toNat
  let a := v.argA.toNat
  let b := v.argB.toNat
  field w 84 12 != 0 || w / 2 ^ 192 % 2 ^ 64 != 0 || k = 0 || 0x0F < k
  || (!kindPset k && v.pset != 0)
  || (match k with
      | 1 => 1 < b
      | 5 => 127 < a || b != 0
      | 9 => 3 < a || b != 0
      | 0x0A => b != 0
      | 0x0B => 65535 < b
      | 0x0F => b != 0
      | _ => a != 0 || b != 0)

/-- A kind that the window may not write, or a set it does not own (R233, R234). -/
def evDenied (jcw : Bool) (v : Ev) : Bool :=
  (jcw && 9 ≤ v.kind.toNat && v.kind.toNat ≤ 0x0E)
  || (kindPset v.kind.toNat && (8 ≤ v.pset.toNat) != jcw)

/-- The other window owns entry e (R231). -/
def State.evForeign (s : State) (e : Nat) (jcw : Bool) : Bool :=
  match s.starter.evs.get? e with
  | none => false
  | some v => v.owner != jcw

/-- STARTER_WRITE (R231 to R234, R236). -/
def execStarterWrite (w : Win) (index : BitVec 32) (entry : BitVec 256) (s : State) : Out := s.live <|
  command w 0x30 [index.toNat, entry.toNat] (fun _ s =>
    let e := index.toNat
    let v := parseEv entry.toNat (winJcw w)
    let p := v.period.toNat
    if evReserved entry.toNat v then refuse stRsvEnc s
    else if 255 < e || (p = 0) != (v.rept = 0) || (p != 0 && p < 1000) then refuse stRange s
    else if s.evForeign e (winJcw w) || evDenied (winJcw w) v then refuse stOwner s
    else if (s.ev e).held.isSome then refuse stDispatched s
    else done (s.setEv e v)) s

/-- STARTER_CANCEL (R231, R236). -/
def execStarterCancel (w : Win) (index : BitVec 32) (s : State) : Out := s.live <|
  command w 0x31 [index.toNat] (fun _ s =>
    let e := index.toNat
    let v := s.ev e
    if 255 < e then refuse stRange s
    else if s.evForeign e (winJcw w) then refuse stOwner s
    else if v.held.isSome then refuse stDispatched s
    else
      let res := pack [(4, v.status.toNat)]
      if v.valid then { st := stOk, res, s := s.setEv e { v with status := 6, valid := false } }
      else { st := stOk, res, s }) s

/-- STARTER_READ (R396). -/
def execStarterRead (w : Win) (index : BitVec 32) (s : State) : Out := s.live <|
  command w 0x33 [index.toNat] (fun _ s =>
    if 255 < index.toNat then refuse stRange s
    else { st := stOk, res := pack [(32, (s.ev index.toNat).word)], s }) s

/-- PSET_WRITE (R234). -/
def execPsetWrite (w : Win) (set : BitVec 32) (plots : BitVec 256) (s : State) : Out := s.live <|
  command w 0x32 [set.toNat, plots.toNat] (fun _ s =>
    if 15 < set.toNat then refuse stRange s
    else if (8 ≤ set.toNat) != winJcw w then refuse stOwner s
    else done (s.onStarter (fun q => { q with psets := q.psets.put set.toNat plots }))) s

/-! ### Orders of one cycle -/

/-- The place of an order's source in R242: hardware safety, the board management controller, the PCW, the Starter with PCW-owned
entries before JCW-owned ones and a lower index before a higher, the JCW. -/
def State.rank (s : State) : Order → Nat
  | .safety => 0
  | .bmc => 1
  | .pcw => 2
  | .starter e => 3 + (if (s.ev e).owner then 256 else 0) + min e 255
  | .jcw => 515

/-- An order loses to those that reach its object in the same cycle (R242): one of them stands before it. -/
def State.loses (s : State) (mine : Order) (rivals : List Order) : Bool := rivals.any (fun r => s.rank r < s.rank mine)

/-- The logical Plots at which an order loses to those that reach them in the same cycle (R242). -/
def State.lostAt (s : State) (mine : Order) (rivals : List (Nat × Order)) : BitVec 256 :=
  psetOf ((rivals.filter (fun r => r.1 < 256 && s.loses mine [r.2])).map (·.1))

/-- The source of a command (R242). -/
def winOrder : Win → Order
  | .pcw => .pcw
  | .jcw => .jcw

/-! ### Firing -/

/-- Entry e ends with a STATUS (R236, R239): its counters, its STARTER record, and what becomes of the entry. -/
def starterEnd (e code : Nat) (late : Bool) (s : State) : State :=
  let v := s.ev e
  let ref := code = 3 || code = 5 || code = 7
  let rep := v.rept != 0
  let k := if rep && v.time.toNat ≤ s.now.toNat then (s.now.toNat - v.time.toNat) / v.period.toNat + 1 else 1
  let s := s.onStarter (fun q => { q with
    sLate := q.sLate || late, sSup := q.sSup || code = 4, sRef := q.sRef || ref,
    cntLate := satAdd q.cntLate (b2n late + (if rep then k - 1 else 0)), cntSup := satAdd q.cntSup (b2n (code = 4)),
    cntRef := satAdd q.cntRef (b2n ref) })
  let s := if late || ref || code = 4 then
      note 0x30 e [w32 code, w32 (b2n late), lo32 v.time, hi32 v.time] noDseq s
    else s
  if rep then
    s.setEv e { v with held := none, status := 0, late := false, time := v.time + BitVec.ofNat 64 (k * v.period.toNat),
                       rept := if v.rept = 0xFFFF then v.rept else v.rept - 1 }
  else s.setEv e { v with held := none, status := BitVec.ofNat 8 code, late, valid := false }

/-- STARTER_DISPATCH (R233 to R235): entry e, valid and not held, 400 ns before its TIME, in ascending index; its Plot set is read
and remapped now. -/
def execStarterDispatch (e : Nat) (s : State) : Out := s.live <|
  let v := s.ev e
  if 255 < e || !v.valid || v.held.isSome then .next s
  else
    let t := s.advanceTo (v.time.toNat - 400)
    if (t.starter.evs).any (fun o => o.1 < e && o.2.valid && o.2.held.isNone && o.2.time.toNat - 400 ≤ t.now.toNat) then
      .next s
    else if v.reqLock && t.clock.lock != .locked then .next (starterEnd e 5 v.late t)
    else .next (t.setEv e { v with status := 1, held := some (t.psetPhys (t.starter.psets.get v.pset.toNat 0)) })

/-- A kind is carried out in RETAIN (R237). -/
def retainKind (k : Nat) : Bool := k = 9 || k = 0x0A || k = 0x0B || k = 0x0F

/-- The object carries out entry e of a kind in its first cycle at or after TIME (R235 to R237, R242): `rivals` are the other orders
on the object in that cycle. act answers the STATUS, 1 where the event stays held, and the new state. -/
def starterEvent (e kind : Nat) (rivals : List Order) (act : Ev → List (Nat × Nat) → State → Nat × State) (s : State) : Out :=
  let v := s.ev e
  match v.held with
  | none => .next s
  | some set =>
    if v.kind.toNat != kind then .next s
    else
      let late : Bool := v.time.toNat < s.now.toNat
      let s := s.advanceTo v.time.toNat
      if s.loses (.starter e) rivals then .next (starterEnd e 4 late s)
      else if s.power.st == .retain && !retainKind kind then .next (starterEnd e 7 late s)
      else
        let r := act v set s
        if r.1 = 1 then .next r.2 else .next (starterEnd e r.1 late r.2)

/-! ### Events on Plots -/

/-- Carry an event out on each Plot held, (logical, physical), in rising logical order (R233, R236): act answers none where the
Plot does not accept it. The STATUS is that of the first Plot that did not carry it out. -/
def psetEvent (set : List (Nat × Nat)) (lost : BitVec 256) (act : Nat → Nat → State → Option State) (s : State) : Nat × State :=
  set.foldl (fun (r : Nat × State) e =>
    let worse (c : Nat) : Nat := if r.1 = 2 then c else r.1
    if lost.getLsbD e.1 then (worse 4, r.2)
    else match act e.1 e.2 r.2 with
      | some t => (r.1, t)
      | none => (worse 3, r.2)) (2, s)

/-- Plots take no start and no resume (R464, R465, R467): their clocks are stopped, or a FULL clear runs. -/
def State.plotsOff (s : State) : Bool := s.power.st == .idle || s.power.st == .retain || s.sec.clearing

/-- A start of physical Plot p where its Pacer accepts it (R91, R467). -/
def tryStart (p : Nat) (e : Option (BitVec 12)) (s : State) : Option State :=
  if s.plotsOff || !(s.plot p).pacer.canStart then none else some (startPlot p e s)

/-- A stop (R91). -/
def tryStop (p : Nat) (ecc : List EccHit) (s : State) : Option State :=
  some (if (s.plot p).pacer.st == .stopped then s else applyIfStopped p ecc (stopPlot p s))

/-- A pause where the Pacer accepts it (R91, R467). -/
def tryPause (p : Nat) (s : State) : Option State :=
  if (s.plot p).pacer.st == .running then some (pausePlot p s) else none

/-- The Pacer drains toward a halt state after a trap or a refusal. -/
def Pacer.halting (q : Pacer) : Bool := q.st == .draining && (q.drainTo == .toNumericHalt || q.drainTo == .toFaultHalt)

/-- A stop or a pause where a trap or a refusal may fall in the same core cycle (R92): there the halt stands, and the control counts
as carried out. `trapped` are the logical Plots at which it does, whose trap or refusal is the row before. -/
def unlessTrapped (trapped : BitVec 256) (l p : Nat) (act : State → Option State) (s : State) : Option State :=
  if trapped.getLsbD l && (s.plot p).pacer.halting then some s else act s

/-- A resume where the Pacer accepts it (R91, R467). -/
def tryResume (p : Nat) (s : State) : Option State :=
  let q := (s.plot p).pacer
  if s.plotsOff || !(q.st == .paused || q.st == .numericHalt) then none else some (resumePlot p s)

/-- RUN_START (R91, R233). -/
def execRunStart (e : Nat) (rivals : List (Nat × Order)) (s : State) : Out := s.live <|
  starterEvent e 0x01 [] (fun v set s => psetEvent set (s.lostAt (.starter e) rivals)
    (fun _ p s => tryStart p (if v.argB.getLsbD 0 then none else some v.argA) s) s) s

/-- RUN_STOP (R91, R92, R233). -/
def execRunStop (e : Nat) (rivals : List (Nat × Order)) (trapped : BitVec 256) (ecc : List (Nat × EccHit)) (s : State) : Out :=
  s.live <|
  starterEvent e 0x02 [] (fun _ set s => psetEvent set (s.lostAt (.starter e) rivals)
    (fun l p s => unlessTrapped trapped l p (tryStop p (hitsOf p ecc)) s) s) s

/-- RUN_PAUSE (R91, R92, R233). -/
def execRunPause (e : Nat) (rivals : List (Nat × Order)) (trapped : BitVec 256) (s : State) : Out := s.live <|
  starterEvent e 0x03 [] (fun _ set s => psetEvent set (s.lostAt (.starter e) rivals)
    (fun l p s => unlessTrapped trapped l p (tryPause p) s) s) s

/-- RUN_RESUME (R91, R233). -/
def execRunResume (e : Nat) (rivals : List (Nat × Order)) (s : State) : Out := s.live <|
  starterEvent e 0x04 [] (fun _ set s => psetEvent set (s.lostAt (.starter e) rivals) (fun _ p s => tryResume p s) s) s

/-! ### Events on power -/

/-- STARTER_POWER_STATE (R233, R237, R466, R468): it waits while the Power role is down (R441). -/
def execStarterPowerState (e : Nat) (rivals : List Order) (s : State) : Out := s.live <|
  if !s.roleUp 2 then .next s
  else starterEvent e 0x09 rivals (fun v _ s =>
    if s.sec.clearing || s.host.longs.any (fun l => l.op = 0xA3) then (3, s.onPower (fun q => { q with refused := true }))
    else
      let r := powerRequest (pwrOf v.argA.toNat) s
      (if r.1 then 2 else 3, r.2)) s

/-- STARTER_POWER_CAP (R233, R241). -/
def execStarterPowerCap (e : Nat) (s : State) : Out := s.live <|
  starterEvent e 0x0A [] (fun v _ s => (2, s.onPower (fun q => { q with capStr := v.argA.setWidth 16 }))) s

/-- STARTER_CLOCK_CEIL (R233, R241). -/
def execStarterClockCeil (e : Nat) (s : State) : Out := s.live <|
  starterEvent e 0x0B [] (fun v _ s =>
    (2, setCeils v.argB.toNat (fun d => { d with ceilStr := v.argA.toNat }) s)) s

/-- STARTER_TELEMETRY (R437): a snapshot is latched, unless 16 wait. -/
def execStarterTelemetry (e : Nat) (s : State) : Out := s.live <|
  starterEvent e 0x0F [] (fun v _ s =>
    if 16 ≤ s.power.snaps.length then (3, s)
    else (2, s.onPower (fun q => { q with snaps := q.snaps ++ [(v.time, s.snapshot v.argA.toNat)] }))) s

end Sys2Proof.Machine
end

