-- ==== Sys2Proof/Machine/Commit.lean ====
section
/-! DEFINITION. The commit controller (R205 to R210, R219): outcomes, the verdict payload, the ledger (R216), and the
commands that act on the controller and on the Sluices' configuration. -/

namespace Sys2Proof.Machine

/-- Change the commit controller. -/
def State.onCommit (s : State) (f : Commit → Commit) : State := { s with commit := f s.commit }

/-- STATE code (R219). -/
def CtlSt.code : CtlSt → Nat
  | .idle => 0
  | .open => 1
  | .verdict => 2
  | .pending => 3

/-- SLC_CSTAT (R219). -/
def Commit.stat (c : Commit) : BitVec 32 :=
  w32 (c.st.code + putField 2 c.last.toNat + putField 4 (b2n c.result.isSome) + putField 5 (b2n c.late)
    + putField 6 (b2n c.seqErr))

/-! ### Norms -/

/-- "Rounded" (R204): an overflow gives the largest finite value. -/
def clampInf (v : BitVec 32) : BitVec 32 := if v = 0x7F800000 then 0x7F7FFFFF else v

/-- A norm accumulator, rounded (R204). -/
def roundAcc (n : Nat) : BitVec 32 := clampInf (toFR .ieee (.fin false n (-149), 0)).v

/-- The groups that valid segments of a Sluice use, ascending, with their entries as sampled. -/
def Sluice.groups (x : Sluice) : List (Nat × GrpE) :=
  let gs := x.segs.map (·.2.group)
  ((List.range 1024).filter gs.contains).map (fun g => (g, parseGrp (x.grpTab.bytes (64 * g) 64)))

/-- A Sluice's sum for clip domain d (R207). -/
def Sluice.domSum (x : Sluice) (d : Nat) : BitVec 32 :=
  (x.groups.filter (fun g => g.2.clipDom = d)).foldl (fun a g => clampInf (sAdd a (roundAcc (x.acc.get g.1 0)))) 0

/-- The verdict payload (R207). -/
def State.verdictWords (s : State) (bad : Bool) : List (BitVec 32) :=
  (if bad then one32 else 0) ::
    (List.range 8).map (fun d => (List.range 24).foldl (fun a k => clampInf (sAdd a ((s.sluice k).domSum d))) 0)
    ++ List.replicate 7 0

/-! ### Outcomes -/

/-- The groups of a Sluice with LEDGER_EN (R187, R216), used or not. -/
def State.ledgerGroups (s : State) (k : Nat) : List Nat :=
  let x := s.sluice k
  let used := x.groups
  (List.range 1024).filter (fun g =>
    match used.find? (fun e => e.1 == g) with
    | some e => e.2.ledgerEn
    | none => match s.slcRead k (x.cur.grpBase.toNat + 64 * g) 64 with
      | some b => (parseGrp b).ledgerEn
      | none => false)

/-- Write the ledger record of step n in stack k (R180, R208, R216): the words its Sluice writes, where it reaches them. -/
def writeLedger (n : Nat) (k : Nat) (s : State) : State :=
  let x := s.sluice k
  let c := x.cfg
  if c.ledgerDepth = 0 then s
  else
    let at_ := c.ledgerBase.toNat + 16448 * (n % c.ledgerDepth.toNat)
    let put (a v len : Nat) (s : State) : State := if s.slcRegion k a len then (s.hbmWrite a (leBytes len v)).getD s else s
    let s := put (at_ + 4) s.now.toNat 8 (put at_ n 4 s)
    (s.ledgerGroups k).foldl (fun s g => put (at_ + 0x40 + 16 * g) (roundAcc (x.acc.get g 0)).toNat 4 s) s

/-- The tags of a Sluice at an outcome (R208, R209, R211): PEND and RECV of each entry are cleared, and it serves the
committed step; an entry found uncorrectable is rebuilt, with no hold. A STATIC segment keeps what it serves. -/
def retag (k : Nat) (s : State) : State :=
  let st := (((s.sluice k).segs.filter (·.2.static)).map (·.1)).filter (fun i => !(s.segTag k i).bad)
  let pins := st.map (fun i => (i, s.served k i))
  let s := s.onSluice k (fun x => { x with
    inlet := x.inlet.map (fun b => if (s.segTag k b.seg).bad then { b with heldFrom := none } else b)
    tags := x.tags.mapVals (fun i t => if t.bad then {} else if st.contains i then t
      else { t with pin := none, pend := false, recv := 0, upd := 0 }) })
  pins.foldl (fun s e => s.onSegTag k e.1 (fun t => { t with pin := some e.2 })) s

/-- The inlet and the accumulators at an outcome (R193, R204): the step's own blocks are dropped. -/
def clearStep (k : Nat) (s : State) : State :=
  s.onSluice k (fun x => { x with acc := [], inlet := x.inlet.filter (·.next) })

/-- After an outcome the Sluices sample their tables, start their evaluation, and take up the next step's blocks (R189,
R190, R192). -/
def nextStep (s : State) : State := (List.range 24).foldl (fun s k => replayInlet k s) (sampleAll s)

/-- What both outcomes do to the controller (R209): SLC_CCAUSE moves to SLC_CLASTCAUSE, VETO is cleared. -/
def decided (last : BitVec 2) (c : Commit) : Commit :=
  { c with st := .open, last, result := none, veto := false, lastCause := c.cause, cause := c.nextCause, nextCause := 0,
           ownBad := false }

/-- Commit the open step (R208); words: the verdict result, none for a forced commit, which leaves the norms (log 31). -/
def doCommit (last : BitVec 2) (words : Option (List (BitVec 32))) (s : State) : State :=
  let n := s.commit.step + 1
  let s := (List.range 24).foldl (fun s k => clearStep k (retag k (writeLedger n.toNat k s))) s
  let s := s.onCommit (fun c => { decided last c with
    step := n, stepN := some (s.now + 1000),
    clipNorm := match words with
      | some w => (List.range 8).map (fun d => (d, clampInf (sSqrt (w.getD (1 + d) 0))))
      | none => c.clipNorm })
  let s := note 0x20 0 [n.setWidth 32, s.commit.stat] noDseq s
  nextStep s

/-- Roll the open step back (R209); word 0 of the result where one was applied. The spec states none where no result was
(log 31): a free value. -/
def doRollback (last : BitVec 2) (word0 : Option (BitVec 32)) (s : State) : State :=
  let n := s.commit.step + 1
  let d := s.draw
  let s := if word0.isSome then s else d.2
  let cause := s.commit.cause
  let s := (List.range 24).foldl (fun s k => clearStep k (retag k s)) s
  let s := s.onCommit (fun c => { decided last c with stepN := some (s.now + 4000) })
  let s := note 0x21 0 [n.setWidth 32, word0.getD (lo32 d.1), cause.setWidth 32] noDseq s
  nextStep s

/-- Apply a verdict result (R208, R209): it commits where word 0 is 0. -/
def applyResult (w : List (BitVec 32)) (s : State) : State :=
  let w0 := w.getD 0 0
  if w0 = 0 || w0 = 0x80000000 then doCommit 1 (some w) s else doRollback 2 (some w0) s

/-- The verdict result arrives (R205): held until T_c in VERDICT, applied at once in PENDING; in the other states the table
gives it no effect. -/
def takeResult (w : List (BitVec 32)) (s : State) : State :=
  match s.commit.st with
  | .verdict => s.onCommit (fun c => { c with result := some w })
  | .pending => applyResult w (s.onCommit (fun c => { c with late := true }))
  | _ => s

/-- VERDICT_RESULT (R205). -/
def execVerdictResult (words : List (BitVec 32)) (s : State) : Out := s.live <| .next (takeResult words s)

/-- STEP_N_RELEASE (R208, R209). -/
def execStepNRelease (s : State) : Out := s.live <|
  match s.commit.stepN with
  | none => .next s
  | some t => .next ((s.advanceTo t.toNat).onCommit (fun c => { c with stepN := none }))

/-! ### Commands -/

/-- SLC_CVETO.VETO is written 1 (R206, R219). -/
def setVeto (s : State) : State := (latchCause 8 s).onCommit (fun c => { c with veto := true })

/-- SLC_CVETO_WRITE (R219, R416). -/
def execSlcCvetoWrite (v : BitVec 32) (s : State) : Out := s.busWrite <| when (v.getLsbD 0) (setVeto s) s

/-- VETO (R396). -/
def execVeto (w : Win) (s : State) : Out := s.live <| command w 0x54 [] (fun _ s => done (setVeto s)) s

/-- A plan starts (R189, R190, R205, R487): the tags are rebuilt from SLC_CSTEP. -/
def startPlan (mode stale : Bool) (step : BitVec 31) (s : State) : State :=
  let s := s.onCommit (fun c => { c with mode, stalePolicy := stale, step, st := .open, result := none })
  nextStep ((List.range 24).foldl (fun s k => (clearStep k s).onSluice k (fun x => { x with tags := [] })) s)

/-- PLAN_START (R205, R396, R424). -/
def execPlanStart (w : Win) (mode stalePolicy cstep : BitVec 32) (s : State) : Out := s.live <|
  command w 0x51 [mode.toNat, stalePolicy.toNat, cstep.toNat] (fun _ s =>
    if 1 < mode.toNat || 1 < stalePolicy.toNat || 2 ^ 31 ≤ cstep.toNat then refuse stRsvEnc s
    else if s.commit.st != .idle || s.cfgSeal.st != .open then refuse stState s
    else done (startPlan (mode.getLsbD 0) (stalePolicy.getLsbD 0) (cstep.setWidth 31) s)) s

/-- PLAN_END (R396). -/
def execPlanEnd (w : Win) (s : State) : Out := s.live <|
  command w 0x53 [] (fun _ s =>
    if s.commit.st == .open then done (s.onCommit (fun c => { c with st := .idle })) else refuse stState s) s

/-- RESOLVE commit (R205, R210). -/
def execResolveCommit (w : Win) (s : State) : Out := s.live <|
  command w 0x52 [0] (fun _ s =>
    if s.commit.st != .pending then refuse stState s
    else if s.commit.ownBad then refuse stVerdictBad s
    else done (doCommit 3 none s)) s

/-- RESOLVE rollback (R205, R210). -/
def execResolveRollback (w : Win) (s : State) : Out := s.live <|
  command w 0x52 [1] (fun _ s =>
    if s.commit.st != .pending then refuse stState s else done (doRollback 3 none s)) s

/-- TAG_READ (R218, R396). -/
def execTagRead (w : Win) (stack seg : BitVec 32) (s : State) : Out := s.live <|
  command w 0x55 [stack.toNat, seg.toNat] (fun _ s =>
    if 24 ≤ stack.toNat || 262144 ≤ seg.toNat then refuse stRange s
    else
      let t := s.tagWords stack.toNat seg.toNat
      { st := stOk, res := pack [(8, t.1), (4, t.2)], s }) s

/-- A Sluice's configuration registers, as SLUICE_CONFIG writes them (R217, R396). -/
def sluiceRegs (c : SluiceConfig) : SluiceCfg :=
  { smapCount := c.smapCount.setWidth 19, factCount := c.factCount.setWidth 10, smapBase := c.smapBase.setWidth 48,
    grpBase := c.grpBase.setWidth 48, factBase := c.factBase.setWidth 48, ledgerBase := c.ledger.setWidth 48,
    ledgerDepth := (c.ledger >>> 48).setWidth 16, holdWait := c.holdWait }

/-- SLUICE_CONFIG (R190, R217, R424). -/
def execSluiceConfig (w : Win) (c : SluiceConfig) (s : State) : Out := s.live <|
  command w 0x50 [c.stks.toNat, c.smapBase.toNat, c.smapCount.toNat, c.grpBase.toNat, c.factBase.toNat,
      c.factCount.toNat, c.ledger.toNat, c.holdWait.toNat] (fun _ s =>
    let bases := [c.smapBase.toNat, c.grpBase.toNat, c.factBase.toNat]
    if 2 ^ 24 ≤ c.stks.toNat || 262144 < c.smapCount.toNat || 1023 < c.factCount.toNat
        || bases.any (fun b => 2 ^ 48 ≤ b) then refuse stRsvEnc s
    else if (c.ledger.toNat % 2 ^ 48 :: bases).any (fun b => b % 64 != 0) then refuse stRange s
    else if s.cfgSeal.st != .open then refuse stState s
    else done ((List.range 24).foldl (fun s k =>
      if c.stks.getLsbD k then sampleIdle k (s.onSluice k (fun x => { x with cfg := sluiceRegs c })) else s) s)) s

end Sys2Proof.Machine
end

