-- ==== Sys2Proof/Machine/Vector.lean ====
section
/-! DEFINITION. The vector unit (R38, R48, R72, R75, R77, R95, R116 to R118): each row is one whole operation, that of the
command at the head of its queue. -/

namespace Sys2Proof.Machine

/-! ### Chains of FP32 operations -/

/-- Carry on from a result: the first cause stays, the clamps add up (R78). -/
def FR.then (a : FR) (f : BitVec 32 → FR) : FR :=
  let b := f a.v
  { v := b.v, cause := if a.cause != 0 then a.cause else b.cause, sat := a.sat + b.sat }

/-- An operand read from the Reservoir: a NaN there is a cause of its own (R63). -/
def readFR (x : BitVec 32) : FR := { v := x, cause := if isNan32 x then 2 else 0 }

/-- An operand whose NaN passes on by propagation (R72, R77), but for a poisoned element, which records NAN_IN as it is read (R138;
DEDUCED, log 61). -/
def propFR (poisoned : Bool) (x : BitVec 32) : FR := { v := x, cause := if poisoned then 2 else 0 }

/-- An operand that records nothing: a scalar of the descriptor, or a Basin value (R63). -/
def plainFR (x : BitVec 32) : FR := { v := x }

/-- An operation on two results in the order written: the causes of the operands come first, and each operation that clamps counts
one (R78; DESIGN CHOICE, log 17). -/
def FR.op2 (f : BitVec 32 → BitVec 32 → FR) (a b : FR) : FR :=
  let r := f a.v b.v
  { v := r.v, cause := if a.cause != 0 then a.cause else if b.cause != 0 then b.cause else r.cause,
    sat := a.sat + b.sat + r.sat }

/-! ### Operands -/

/-- An element code of a Reservoir operand as the FP32 value the vector unit works on (R53, R61, R117). -/
def elemWord (fmt c : Nat) : BitVec 32 := (toFR .ieee (decodeElem fmt c, 0)).v

/-- Element i of a Reservoir operand of n bytes at a lies in a poisoned word (R138). -/
def Plot.badElem (x : Plot) (fmt a n i : Nat) : Bool := (x.badWords a n).contains ((a + i * fmtBits fmt / 8) / 8)

/-- The elements of n bytes at a of a Reservoir operand, with poisoned words as R138 says. The place of an MXFP4 operand's
scale bytes is not stated, so its elements are free values but for the poisoned ones (log 11). -/
def vecElems (fmt a n : Nat) (p : Nat) (s : State) : List (BitVec 32) × State :=
  let x := s.plot p
  let bad := x.badWords a n
  if fmt = 4 then
    ((List.range (2 * n)).map (fun i => if x.badElem 4 a n i then qnan else lo32 (Config.freeWord (s.free + i))),
     { s with free := s.free + 2 * n })
  else if fmt = 7 ∨ fmt = 8 then
    let bs := x.resv.bytes a n
    ((chunks 4 bs).zipIdx.map (fun (w, i) =>
      if bad.contains ((a + 4 * i) / 8) then (if fmt = 7 then qnan else 0)
      else if fmt = 7 then BitVec.ofNat 32 (leNat w) else elemWord 8 (leNat w)), s)
  else ((codesOf fmt a (x.resv.bytes a n) bad).map (fun c => elemWord fmt c.toNat), s)

/-- The physical rows of row position k (R116). -/
def VxD.rows (d : VxD) (k : Nat) : List Nat := physRows d.pair ((d.brow + k) % (if d.pair then 512 else 1024))

/-- A Basin word as the vector unit reads it: a poisoned one yields a NaN that is neither tagged nor captured (R39, R80). -/
def Furrow.read (fu : Furrow) (r c : Nat) : BitVec 32 := if fu.bad r c then qnan else fu.word r c

/-- The Basin value of a lane, as DRAIN reads it (R75, R116), with the clamps and the cause of a pair's collapse. -/
def VxD.basinValue (d : VxD) (ovf : OvfMode) (fu : Furrow) (k j : Nat) : FR :=
  match d.rows k with
  | [a, b] => fadd ovf (fu.read a j) (fu.read b j)
  | r =>
    let w := fu.read (r.headD 0) j
    if d.op = 1 && d.inFmt = 8 then
      plainFR (if fu.bad (r.headD 0) j then qnan else elemWord 8 w.toNat)
    else plainFR w

/-! ### Results -/

/-- One element of a result. -/
structure Elem where
  /-- the FP32 value before conversion, its cause and clamps -/
  r : FR
  /-- a NaN of it came from a Basin (R66) -/
  prop : Bool := false
  deriving DecidableEq, Repr

/-- Codes of n bits packed, lowest position lowest (R58). -/
def packCodes (bits : Nat) (cs : List Nat) : List Byte :=
  if bits = 4 then (chunks 2 cs).map (fun c => BitVec.ofNat 8 (c.headD 0 + 16 * c.getD 1 0))
  else cs.flatMap (fun c => leBytes (bits / 8) c)

/-- The events and clamps of a row of results: (cause, clamps) of each lane. -/
abbrev Marks := List (Nat × Nat)

/-- Convert a row of elements to a format other than MXFP4 (R65, R66). -/
def outCodes (ovf : OvfMode) (fmt : Nat) (es : List Elem) : List Byte × Marks :=
  let cs := es.map (fun e =>
    let c := convert ovf fmt e.r.v
    let cause := if e.r.cause != 0 then e.r.cause
      else if (fmtFp fmt).isNone && isNan32 e.r.v && e.prop then 0 else c.cause
    (c.v, cause, e.r.sat + c.sat))
  (packCodes (fmtBits fmt) (cs.map (·.1)), cs.map (·.2))

/-- Convert a row of elements to MXFP4 (R66, R67): element bytes, scale bytes, marks. The element codes of a block whose
scale is NaN are free values (log 2). -/
def outMx (ovf : OvfMode) (es : List Elem) (s : State) : List Byte × List Byte × Marks × State :=
  (chunks 32 es).foldl (fun (acc : List Byte × List Byte × Marks × State) blk =>
    let m := toMx ovf (blk.map (·.r.v))
    let marks := (blk.zip m.2).map (fun (e, c) => (if e.r.cause != 0 then e.r.cause else c.cause, e.r.sat + c.sat))
    let b := if m.1 = 0xFF then acc.2.2.2.drawBytes 16 else (packCodes 4 (m.2.map (·.v)), acc.2.2.2)
    (acc.1 ++ b.1, acc.2.1 ++ [m.1], acc.2.2.1 ++ marks, b.2)) ([], [], [], s)

/-- The lane number of element i of row position k (R87): 256 more for the higher of the two positions that a 16-bit ADD,
MUL, MAX or AXPBY handles in one cycle, and for no other operation (DESIGN CHOICE, log 17). -/
def VxD.lane (d : VxD) (k i : Nat) : Nat :=
  64 * (maskList d.fmask).getD (i / 64) 0 + i % 64
    + (if 2 ≤ d.op && d.op ≤ 5 && fmtBits d.inFmt = 16 && k % 2 = 1 then 256 else 0)

/-- Record the marks of row position k: one event for each lane with a cause, and the clamps (R78, R88). -/
def markRow (p : Nat) (c : VecCmd) (d : VxD) (k : Nat) (ms : Marks) (s : State) : State :=
  let evs := (ms.zipIdx.filter (fun m => m.1.1 != 0)).map (fun m =>
    ({ cause := m.1.1, stage := 3, furrow := 0, pos := d.lane k m.2, term := 0, row := k, step := c.entry,
       loop0 := c.loop0 } : NumEv))
  numericEvents p evs (s.onPlot p (·.clamps (ms.map (·.2)).sum))

/-- Write bytes of a result. -/
def putRsv (p a : Nat) (bs : List Byte) (s : State) : State := s.onPlot p (·.writeRsv a bs)

/-- The address of D at row position k. -/
def VxD.dAt (d : VxD) (c : VecCmd) (k : Nat) : Nat := d.dAddr + c.ixD + k * pitchOf d.dPitch d.dBytes
/-- The address of row-form E at row position k (R116). -/
def VxD.eAt (d : VxD) (c : VecCmd) (k : Nat) : Nat := d.eAddr + c.ixD + k * pitchOf d.dPitch d.dBytes

/-- A residue fault of a lane changes the result that flows on (R477). -/
def LaneFault.apply (lf : Option LaneFault) (d : VxD) (k : Nat) (es : List Elem) : List Elem :=
  match lf with
  | none => es
  | some q => es.zipIdx.map (fun (e, i) =>
      if q.pos = k ∧ q.lane = d.lane k i then { e with r := { e.r with v := q.value } } else e)

/-- Write a row of elements to D in a format, MXFP4 scale bytes to E, and record its marks (R65 to R67, R117). -/
def putRow (p : Nat) (c : VecCmd) (d : VxD) (fmt k : Nat) (es : List Elem) (s : State) : State :=
  let ovf := (s.plot p).pacer.ovf
  if fmt = 4 then
    let o := outMx ovf es s
    markRow p c d k o.2.2.1 (putRsv p (d.eAddr + c.ixD + k * (d.lanes / 32)) o.2.1 (putRsv p (d.dAt c k) o.1 o.2.2.2))
  else
    let o := outCodes ovf fmt es
    markRow p c d k o.2 (putRsv p (d.dAt c k) o.1 s)

/-! ### The run of an operation -/

/-- Every Basin row the operation reads has been written by the streams of its own and of earlier entries (R38). -/
def basinReady (x : Plot) (c : VecCmd) (d : VxD) : Bool :=
  !d.readsBasin ||
  x.streams.all (fun st => c.seq < st.seq ||
    (maskList d.fmask).all (fun f => !bitOf st.mask.toNat f ||
      (List.range 8).all (fun g =>
        (List.range st.rows).all (fun i => i < st.written.get (f * 8 + g) 0 ||
          (List.range d.count).all (fun k =>
            (physRows (st.fmt = 9) (st.basinRow i)).all (fun r => !(d.rows k).contains r))))))

/-- The errors that the operation's Reservoir and Basin reads find (R39, R137). TAGREAD reads tags alone. -/
def vecHits (p : Nat) (c : VecCmd) (d : VxD) (x : VecFaults) (s : State) : State :=
  let s := (d.inAreas c.ixA).foldl (fun s a =>
    (x.rsv.filter (fun h => (List.range d.count).any (fun k =>
      (a.1 + k * a.2.1) / 8 ≤ h.addr / 8 && h.addr / 8 ≤ (a.1 + k * a.2.1 + a.2.2 - 1) / 8))).foldl
        (fun s h => rsvHit p h s) s) s
  if d.readsBasin && d.op != 0x0F then
    (x.basin.filter (fun h => bitOf d.fmask h.1 && (List.range d.count).any (fun k => (d.rows k).contains (h.2.addr / 32)))).foldl
      (fun s h => basinHits p h.1 [h.2] s) s
  else s

/-- Run the operation at the head of the queue if it is operation op and may start (R38, R95): its row positions in order,
then its end (R97). -/
def vectorOp (p op : Nat) (x : VecFaults) (pos : VecCmd → VxD → Nat → State → State) (s : State) : Out :=
  match (s.plot p).vecQ with
  | [] => .next s
  | c :: rest =>
    let d := parseVx c.desc
    if d.op != op || !basinReady (s.plot p) c d then .next s
    else
      let s := vecHits p c d x s
      let s := (List.range d.count).foldl (fun s k => pos c d k s) s
      let s := match x.lane with
        | some q => if q.pos < d.count && (List.range d.lanes).any (fun i => d.lane q.pos i == q.lane) && op != 0x0F
            then plotFault p 3 0 q.lane s else s
        | none => s
      .next (s.onPlot p (fun y => { y with vecQ := rest }.onWork c.seq (fun w => { w with vec := false })))

/-- The elements of operand A at row position k. -/
def rowA (p : Nat) (c : VecCmd) (d : VxD) (k : Nat) (s : State) : List (BitVec 32) × State :=
  let nb := rowBytes d.aFmt d.lanes
  vecElems d.aFmt (d.aAddr + c.ixA + k * pitchOf d.aPitch nb) nb p s

/-- The elements of row-form operand B at row position k (R116). -/
def rowB (p : Nat) (c : VecCmd) (d : VxD) (k : Nat) (s : State) : List (BitVec 32) × State :=
  let nb := rowBytes d.aFmt d.lanes
  vecElems d.aFmt (d.bAddr + c.ixA + k * pitchOf d.aPitch nb) nb p s

/-- The entry of a vector at row position k (R117): one FP32 value per position, packed. -/
def vecAt (p a k : Nat) (s : State) : BitVec 32 :=
  let y := s.plot p
  let b := a + 4 * k
  if (y.badWords b 4).isEmpty then BitVec.ofNat 32 (y.resv.le b 4) else qnan

/-- A row position whose elements come of A alone. -/
def unaryRow (p : Nat) (x : VecFaults) (f : OvfMode → VxD → FR → FR) (c : VecCmd) (d : VxD) (k : Nat) (s : State) : State :=
  let a := rowA p c d k s
  let ovf := (s.plot p).pacer.ovf
  putRow p c d d.outFmt k (LaneFault.apply x.lane d k (a.1.map (fun v => { r := f ovf d (readFR v) }))) a.2

/-- Which elements of operand A at row position k are poisoned (R138). -/
def badA (p : Nat) (c : VecCmd) (d : VxD) (k : Nat) (s : State) (i : Nat) : Bool :=
  let nb := rowBytes d.aFmt d.lanes
  (s.plot p).badElem d.aFmt (d.aAddr + c.ixA + k * pitchOf d.aPitch nb) nb i

/-- A row position of a special function of A (R77): a NaN passes on by propagation. -/
def specialRow (p : Nat) (x : VecFaults) (f : OvfMode → BitVec 32 → FR) (c : VecCmd) (d : VxD) (k : Nat) (s : State) : State :=
  let a := rowA p c d k s
  let ovf := (s.plot p).pacer.ovf
  putRow p c d d.outFmt k (LaneFault.apply x.lane d k
    (a.1.zipIdx.map (fun (v, i) => { r := (propFR (badA p c d k s i) v).then (f ovf) }))) a.2

/-- A row position whose elements come of A and B. -/
def binaryRow (p : Nat) (x : VecFaults) (f : OvfMode → VxD → FR → FR → FR) (c : VecCmd) (d : VxD) (k : Nat) (s : State) :
    State :=
  let a := rowA p c d k s
  let b := rowB p c d k a.2
  let ovf := (s.plot p).pacer.ovf
  putRow p c d d.outFmt k
    (LaneFault.apply x.lane d k ((a.1.zip b.1).map (fun v => { r := f ovf d (readFR v.1) (readFR v.2) }))) b.2

/-! ### The operations -/

/-- The lanes of a row position as (Furrow, column). -/
def VxD.cells (d : VxD) : List (Nat × Nat) := (maskList d.fmask).flatMap (fun f => (List.range 64).map (fun j => (f, j)))

/-- A row position of DRAIN (R75, R117). -/
def drainRow (p : Nat) (x : VecFaults) (c : VecCmd) (d : VxD) (k : Nat) (s : State) : State :=
  let y := s.plot p
  let ovf := y.pacer.ovf
  if d.pair && d.keep then
    putRsv p (d.dAt c k) (d.cells.flatMap (fun q =>
      (d.rows k).flatMap (fun r => leBytes 4 ((y.furrow q.1).read r q.2).toNat))) s
  else
    let es := d.cells.map (fun q =>
      let z := d.basinValue ovf (y.furrow q.1) k q.2
      ({ r := (z.then (fmul ovf d.sa)).then (fun v => fadd ovf v d.sb), prop := isNan32 z.v && z.cause = 0 } : Elem))
    putRow p c d d.outFmt k (LaneFault.apply x.lane d k es) s

/-- DRAIN (R117). -/
def execDrain (p : Nat) (x : VecFaults) (s : State) : Out := s.plotLive p <| vectorOp p 0x01 x (drainRow p x) s

/-- ADD (R117). -/
def execAdd (p : Nat) (x : VecFaults) (s : State) : Out := s.plotLive p <|
  vectorOp p 0x02 x (binaryRow p x (fun ovf _ a b => a.op2 (fadd ovf) b)) s

/-- MUL (R117). -/
def execMul (p : Nat) (x : VecFaults) (s : State) : Out := s.plotLive p <|
  vectorOp p 0x03 x (binaryRow p x (fun ovf _ a b => a.op2 (fmul ovf) b)) s

/-- MAX (R117). -/
def execMax (p : Nat) (x : VecFaults) (s : State) : Out := s.plotLive p <|
  vectorOp p 0x04 x (binaryRow p x (fun _ _ a b => a.op2 (fun u v => plainFR (fmax u v)) b)) s

/-- AXPBY (R117): each product rounded, then the sum. -/
def execAxpby (p : Nat) (x : VecFaults) (s : State) : Out := s.plotLive p <|
  vectorOp p 0x05 x (binaryRow p x (fun ovf d a b =>
    (a.then (fmul ovf d.sa)).op2 (fadd ovf) (b.then (fmul ovf d.sb)))) s

/-- EXP2 (R77, R117). -/
def execExp2 (p : Nat) (x : VecFaults) (s : State) : Out := s.plotLive p <|
  vectorOp p 0x06 x (unaryRow p x (fun ovf d a =>
    ((a.then (fmul ovf d.sa)).then (fun v => fadd ovf v d.sb)).then (fexp2 ovf))) s

/-- LOG2 (R77, R117). -/
def execLog2 (p : Nat) (x : VecFaults) (s : State) : Out := s.plotLive p <|
  vectorOp p 0x07 x (specialRow p x flog2) s

/-- RCP (R77, R117). -/
def execRcp (p : Nat) (x : VecFaults) (s : State) : Out := s.plotLive p <|
  vectorOp p 0x08 x (specialRow p x frcp) s

/-- RSQRT (R77, R117). -/
def execRsqrt (p : Nat) (x : VecFaults) (s : State) : Out := s.plotLive p <|
  vectorOp p 0x09 x (specialRow p x frsqrt) s

/-- CONVERT (R65 to R67, R117). -/
def execConvert (p : Nat) (x : VecFaults) (s : State) : Out := s.plotLive p <|
  vectorOp p 0x0A x (unaryRow p x (fun _ _ a => a)) s

/-- A row position of SPLIT (R72, R117). -/
def splitRow (p : Nat) (x : VecFaults) (c : VecCmd) (d : VxD) (k : Nat) (s : State) : State :=
  let a := rowA p c d k s
  let ovf := (s.plot p).pacer.ovf
  let es := LaneFault.apply x.lane d k (a.1.zipIdx.map (fun (v, i) => { r := propFR (badA p c d k s i) v }))
  let parts := es.map (fun e => split ovf e.r.v)
  let s := putRsv p (d.dAt c k) (packCodes 16 (parts.map (·.1))) a.2
  let s := putRsv p (d.eAt c k) (packCodes 16 (parts.map (·.2.1))) s
  markRow p c d k ((es.zip parts).map (fun (e, q) => (e.r.cause, q.2.2))) s

/-- SPLIT (R72, R117). -/
def execSplit (p : Nat) (x : VecFaults) (s : State) : Out := s.plotLive p <| vectorOp p 0x0B x (splitRow p x) s

/-- ROWSCALE (R117): B is a vector. -/
def execRowscale (p : Nat) (x : VecFaults) (s : State) : Out := s.plotLive p <|
  vectorOp p 0x0C x (fun c d k s =>
    unaryRow p x (fun ovf d a => a.op2 (fmul ovf) (readFR (vecAt p (d.bAddr + c.ixA) k s))) c d k s) s

/-- A row position of RESCALE_ACC (R117): A and D in FP32. -/
def rescaleRow (p : Nat) (x : VecFaults) (c : VecCmd) (d : VxD) (k : Nat) (s : State) : State :=
  let y := s.plot p
  let ovf := y.pacer.ovf
  let a := rowA p c d k s
  let b := readFR (vecAt p (d.bAddr + c.ixA) k s)
  let es := (a.1.zip d.cells).map (fun (v, q) =>
    let z := d.basinValue ovf (y.furrow q.1) k q.2
    ({ r := (((readFR v).op2 (fmul ovf) b)).op2 (fadd ovf) z, prop := isNan32 z.v } : Elem))
  putRow p c d 7 k (LaneFault.apply x.lane d k es) a.2

/-- RESCALE_ACC (R117). -/
def execRescaleAcc (p : Nat) (x : VecFaults) (s : State) : Out := s.plotLive p <| vectorOp p 0x0D x (rescaleRow p x) s

/-- A sum in the pairwise order of R26 over positions (R118), by levels; n bounds them. -/
def pairTree (ovf : OvfMode) : Nat → List (BitVec 32) → FR
  | _, [] => { v := 0 }
  | _, [a] => { v := a }
  | 0, a :: _ => { v := a }
  | n + 1, l =>
    let t := treeLevel ovf 0 0 l
    let u := pairTree ovf n t.1
    { v := u.v, cause := match t.2.1 with | e :: _ => e.cause | [] => u.cause, sat := t.2.2 + u.sat }

/-- Add two sums of lane positions, where both are there (R26). -/
def addSums (ovf : OvfMode) : Option FR → Option FR → Option FR
  | some a, some b => some (a.op2 (fadd ovf) b)
  | some a, none => some a
  | none, b => b

/-- The sum of the lanes of FMASK in the order of R26 over lane positions 64f + j (R118): each group of 64 by its six levels, then
groups 0 and 1, 2 and 3, and both halves; a position outside FMASK is no term (DEDUCED, log 61). -/
def laneSum (ovf : OvfMode) (fmask : Nat) (l : List (BitVec 32)) : FR :=
  let gs := (maskList fmask).zip ((chunks 64 l).map (pairTree ovf 6))
  let g (f : Nat) : Option FR := (gs.find? (fun e => e.1 == f)).map (·.2)
  (addSums ovf (addSums ovf (g 0) (g 1)) (addSums ovf (g 2) (g 3))).getD { v := 0 }

/-- A row position of SOFTMAX_BLOCK (R118). The results that are vectors are recorded at the position's first lane
(DESIGN CHOICE, log 17). -/
def softmaxRow (p : Nat) (x : VecFaults) (c : VecCmd) (d : VxD) (k : Nat) (s : State) : State :=
  let y := s.plot p
  let ovf := y.pacer.ovf
  let a := readFR (vecAt p (d.aAddr + c.ixA) k s)
  let b := readFR (vecAt p (d.bAddr + c.ixA) k s)
  let ss := d.cells.map (fun q => (d.basinValue ovf (y.furrow q.1) k q.2).then (fmul ovf d.sa))
  let m := ss.foldl (fun m v => fmax m v.v) a.v
  let ninf : BitVec 32 := 0xFF800000
  let cc : FR := if m = ninf then { v := 0x3F800000 } else ({ a with cause := 0 } : FR).then (fun v => (fsub ovf v m).then (fexp2 ovf))
  let ps : List Elem := ss.map (fun v =>
    if m = ninf then { r := { v := 0, cause := v.cause, sat := v.sat } }
    else { r := v.then (fun u => (fsub ovf u m).then (fexp2 ovf)), prop := isNan32 m })
  let ps := LaneFault.apply x.lane d k ps
  let sum := laneSum ovf d.fmask (ps.map (·.r.v))
  let bn := (b.op2 (fmul ovf) { cc with cause := 0, sat := 0 }).op2 (fadd ovf) sum
  let vec := [a.cause, cc.cause, bn.cause].filter (· != 0)
  let s := putRow p c d d.outFmt k ps s
  let s := putRsv p (d.aAddr + c.ixA + 4 * k) (leBytes 4 m.toNat) s
  let s := putRsv p (d.bAddr + c.ixA + 4 * k) (leBytes 4 bn.v.toNat) s
  let s := putRsv p (d.eAddr + c.ixD + 4 * k) (leBytes 4 cc.v.toNat) s
  vec.foldl (fun s e => markRow p c d k [(e, 0)] s) (s.onPlot p (·.clamps (cc.sat + bn.sat)))

/-- SOFTMAX_BLOCK (R118). -/
def execSoftmaxBlock (p : Nat) (x : VecFaults) (s : State) : Out := s.plotLive p <| vectorOp p 0x0E x (softmaxRow p x) s

/-- A row position of TAGREAD (R80, R117): bit 64f + j for Furrow f, column j, of the Basins in FMASK. -/
def tagRow (p : Nat) (c : VecCmd) (d : VxD) (k : Nat) (s : State) : State :=
  let y := s.plot p
  let v := (d.cells.map (fun q => if (y.furrow q.1).tag ((d.rows k).headD 0) q.2 then 2 ^ (64 * q.1 + q.2) else 0)).sum
  putRsv p (d.dAt c k) (leBytes 32 v) s

/-- TAGREAD (R80, R117). -/
def execTagread (p : Nat) (x : VecFaults) (s : State) : Out := s.plotLive p <| vectorOp p 0x0F x (tagRow p) s

/-- FILLC (R117). -/
def execFillc (p : Nat) (x : VecFaults) (s : State) : Out := s.plotLive p <|
  vectorOp p 0x10 x (fun c d k s =>
    putRow p c d d.outFmt k (LaneFault.apply x.lane d k (List.replicate d.lanes { r := plainFR d.sa })) s) s

end Sys2Proof.Machine
end

