-- ==== Sys2Proof/Machine/Tree.lean ====
section
/-! DEFINITION. Collective descriptors (R337 to R340), shards (R336), digests (R347), the reduction tree and its hosts (R352,
R353), and the sums of the Relay (R354, R355). -/

namespace Sys2Proof.Machine

/-! ### Descriptors -/

/-- A collective descriptor (R337). -/
structure CollD where
  /-- OP -/
  op : Nat
  /-- FMT -/
  fmt : Nat
  /-- OUT_FMT -/
  out : Nat
  /-- SAT -/
  sat : Bool
  /-- PAIR_KEEP -/
  keep : Bool
  /-- TREE -/
  tree : Nat
  /-- GROUP -/
  group : Nat
  /-- LAUNCH -/
  launch : Nat
  /-- RDY_FLAG -/
  rdyFlag : Nat
  /-- NOTIFY -/
  notify : Bool
  /-- NLEAF -/
  nleaf : Nat
  /-- SEQ -/
  seq : Nat
  /-- TIMEOUT -/
  timeout : Nat
  /-- COUNTS -/
  counts : Nat
  /-- COUNT -/
  count : Nat
  /-- BLOCK, in units of 256 elements -/
  block : Nat
  /-- SRC_LIST -/
  srcList : Nat
  /-- SRC_N -/
  srcN : Nat
  /-- DST_LIST -/
  dstList : Nat
  /-- DST_N -/
  dstN : Nat
  /-- RECV -/
  recv : Nat
  /-- LEARN -/
  learn : Bool
  /-- EXPECT -/
  expect : Nat
  /-- HOLD_OP -/
  holdOp : Nat
  /-- STEP_ARG -/
  stepArg : Nat
  /-- ROOT -/
  root : Nat
  /-- SCRATCH -/
  scratch : Nat
  /-- SCRATCH_BYTES -/
  scratchBytes : Nat
  /-- SEND_N -/
  sendN : Nat
  /-- RECV_N -/
  recvN : Nat
  /-- RDY_SET -/
  rdySet : BitVec 256
  /-- a reserved bit that is not 0 -/
  rsv : Bool
  deriving Repr

/-- The fields of a descriptor (R337). -/
def parseColl (b : List Byte) : CollD :=
  let v := leNat b
  let w (i : Nat) := field v (64 * i) 64
  { op := field (w 0) 0 4, fmt := field (w 0) 4 4, out := field (w 0) 8 4, sat := bitOf (w 0) 12, keep := bitOf (w 0) 13,
    tree := field (w 0) 14 2, group := field (w 0) 16 12, launch := field (w 0) 28 2, rdyFlag := field (w 0) 30 6,
    notify := bitOf (w 0) 36, nleaf := field (w 0) 37 5, seq := field (w 1) 0 32, timeout := field (w 1) 32 32,
    counts := field (w 2) 0 48, count := field (w 3) 0 40, block := field (w 3) 40 13, srcList := field (w 4) 0 48,
    srcN := field (w 4) 48 16, dstList := field (w 5) 0 48, dstN := field (w 5) 48 16, recv := field (w 6) 0 48,
    learn := bitOf (w 6) 48, expect := field (w 7) 0 2, holdOp := field (w 7) 2 2, stepArg := field (w 7) 4 31,
    root := field (w 7) 35 14, scratch := field (w 8) 0 48, scratchBytes := field (w 9) 0 48, sendN := field (w 10) 0 24,
    recvN := field (w 10) 24 24, rdySet := BitVec.ofNat 256 (v / 2 ^ 768),
    rsv := field (w 0) 42 22 != 0 || field (w 2) 48 16 != 0 || field (w 3) 53 11 != 0 || field (w 6) 49 15 != 0
      || field (w 7) 49 15 != 0 || field (w 8) 48 16 != 0 || field (w 9) 48 16 != 0 || field (w 10) 48 16 != 0 || w 11 != 0 }

/-- The operation is a reduction (R340). -/
def CollD.red (d : CollD) : Bool := d.op = 2 || d.op = 3

/-- FP32 leaves are summed as pairs (R354). -/
def CollD.pair (d : CollD) : Bool := d.red && d.fmt = 7

/-- Bytes of an element of a format as the Relay moves it (R340): MXFP4 and INT4 as packed bytes. -/
def collBytes (fmt : Nat) : Nat := match fmt with | 0 => 2 | 1 => 2 | 7 => 4 | 8 => 4 | _ => 1

/-- Bytes of an accumulated value, w_acc (R343). -/
def CollD.wAcc (d : CollD) : Nat := if d.pair then 8 else 4

/-- Bytes of a result element (R337). -/
def CollD.outBytes (d : CollD) : Nat := if d.keep then 8 else collBytes d.out

/-- Elements of a block (R337). -/
def CollD.blkElems (d : CollD) : Nat := d.block * 256

/-- The formats an operation accepts (R340). -/
def CollD.fmtsOk (d : CollD) : Bool :=
  if d.red then
    if d.fmt < 4 then d.out = 7 || d.out = 0 || d.out = d.fmt
    else if d.fmt = 7 then d.out = 7 || (d.out = 0 && !d.keep)
    else (d.fmt = 5 || d.fmt = 8) && d.out = 8
  else d.fmt < 9 && d.out = d.fmt

/-- Reserved encodings, reserved fields, and combinations outside R340 (R337, R340, R342, R343). -/
def CollD.reserved (d : CollD) : Bool :=
  let vecs := d.op = 1 || d.red || d.op = 6 || d.op = 7
  d.rsv || d.op = 0 || 7 < d.op || !d.fmtsOk || d.tree != 0
  || (if d.red then d.nleaf < 1 || 24 < d.nleaf else d.nleaf != 1)
  || (d.keep && !(d.pair && d.out = 7)) || (d.sat && !d.red)
  || d.block < 1 || 4096 < d.block || (d.red && 4194304 < d.blkElems * d.wAcc)
  || d.srcN < 1 || 4096 < d.srcN || d.dstN < 1 || 4096 < d.dstN
  || d.expect = 3 || d.holdOp = 3 || (d.expect != 1 && d.stepArg != 0)
  || (!vecs && d.counts != 0) || ((d.op = 6 || d.op = 7) && d.count != 0)
  || (d.op != 6 && d.op != 7 && d.recv != 0) || (d.op != 6 && d.learn) || (d.op != 4 && d.root != 0)
  || (d.op != 7 && (d.scratch != 0 || d.scratchBytes != 0 || d.sendN != 0 || d.recvN != 0))
  || (if d.launch = 2 then d.rdySet = 0 else d.rdySet != 0 || d.rdyFlag != 0)

/-! ### Pieces -/

/-- An entry of a piece list (R338). -/
structure PieceD where
  /-- KIND -/
  kind : Nat
  /-- LPLOT -/
  lplot : Nat
  /-- RAISE -/
  raise : Nat
  /-- TAG -/
  tag : Bool
  /-- STACK -/
  stack : Nat
  /-- BYTES -/
  bytes : Nat
  /-- ADDR -/
  addr : Nat
  /-- a reserved bit that is not 0 -/
  rsv : Bool
  deriving Repr

/-- The fields of a piece (R338). -/
def parsePiece (b : List Byte) : PieceD :=
  let v := leNat b
  { kind := field v 0 2, lplot := field v 2 8, raise := field v 10 7, tag := bitOf v 17, stack := field v 18 5,
    bytes := field v 32 32, addr := field v 64 48, rsv := field v 23 9 != 0 || field v 112 16 != 0 }

/-- SEG_FIRST of a SLUICE piece -/
def PieceD.segFirst (p : PieceD) : Nat := field p.addr 0 18
/-- SEG_COUNT of a SLUICE piece -/
def PieceD.segCount (p : PieceD) : Nat := field p.addr 18 19

/-- Reserved encodings and fields of a piece (R338); `dst`: it is a destination. -/
def PieceD.reserved (p : PieceD) (dst : Bool) : Bool :=
  p.rsv || (p.tag && !(dst && p.kind = 1)) || (p.kind != 2 && p.stack != 0) || (2 ≤ p.kind && p.bytes != 0)
  || (p.kind = 1 && p.addr / 2 ^ 24 != 0) || (p.kind = 2 && (23 < p.stack || p.addr / 2 ^ 37 != 0)) || (p.kind = 3 && p.addr != 0)

/-- The device address of byte o of an HBM or RESERVOIR piece (R145, R338). -/
def PieceD.at (p : PieceD) (o : Nat) : Nat :=
  if p.kind = 1 then 0x800000000000 + p.lplot * rsvBytes + p.addr + o else p.addr + o

/-- A move of PERMUTE (R339). -/
structure Move where
  /-- RANK -/
  rank : Nat
  /-- OFFSET, in elements -/
  off : Nat
  /-- COUNT -/
  count : Nat
  /-- a reserved bit that is not 0 -/
  rsv : Bool
  deriving Repr

/-- The fields of a move (R339). -/
def parseMove (b : List Byte) : Move :=
  let v := leNat b
  { rank := field v 0 14, off := field v 14 40, count := field v 64 40, rsv := field v 54 10 != 0 || field v 104 24 != 0 }

/-! ### Shards and digests -/

/-- Shard j of a vector (R336): first element and size. -/
def shardOf (count n : Nat) (counts : Option (List Nat)) (j : Nat) : Nat × Nat :=
  match counts with
  | some cs => ((cs.take j).sum, cs.getD j 0)
  | none => (j * count / n, (j + 1) * count / n - j * count / n)

/-- One bit of the reflected CRC of ECMA-182 (R347). -/
def crc64Bit (c : Nat) : Nat := if c % 2 = 1 then Nat.xor (c / 2) 0xC96C5795D7870F42 else c / 2

/-- n bits of it. -/
def crc64Bits : Nat → Nat → Nat
  | 0, c => c
  | n + 1, c => crc64Bits n (crc64Bit c)

/-- The CRC of the digest record (R347). -/
def crc64 (bs : List Byte) : BitVec 64 :=
  BitVec.ofNat 64 (Nat.xor (bs.foldl (fun c b => crc64Bits 8 (Nat.xor c b.toNat)) (2 ^ 64 - 1)) (2 ^ 64 - 1))

/-- The digest record (R347). -/
def CollD.record (d : CollD) (gen n : Nat) (counts : Option (List Nat)) : List Byte :=
  [BitVec.ofNat 8 d.op, BitVec.ofNat 8 (d.fmt + 16 * d.out), BitVec.ofNat 8 (d.tree + 4 * b2n d.sat + 8 * b2n d.keep),
   BitVec.ofNat 8 d.nleaf] ++ leBytes 2 d.group ++ leBytes 2 gen ++ leBytes 4 n ++ leBytes 4 d.blkElems
  ++ leBytes 8 d.count ++ leBytes 2 d.root ++ leBytes 6 0
  ++ (match counts with
      | some cs => if d.op = 1 || d.red then cs.flatMap (leBytes 4) else []
      | none => [])

/-! ### The tree -/

/-- ceil(log2 n), for n at least 1. -/
def clog2 (n : Nat) : Nat := if n ≤ 1 then 0 else Nat.log2 (n - 1) + 1

/-- Where a node splits (R352): its left part is a power of two. -/
def treeMid (a b : Nat) : Nat := a + 2 ^ (clog2 (b - a) - 1)

/-- host (R353). -/
def hostOf (a b h : Nat) : Nat := if a ≤ h && h < b then h else a + (((h : Int) - a) % ((b - a : Nat) : Int)).toNat

/-- The node of a tree over [a, b), hosted by h, that is the parent of [x, y): its bounds and its host (R352, R353); none
for the root. -/
def parentGo : Nat → Nat → Nat → Nat → Nat → Nat → Option (Nat × Nat × Nat)
  | 0, _, _, _, _, _ => none
  | fuel + 1, a, b, h, x, y =>
    if b - a ≤ 1 then none
    else
      let m := treeMid a b
      if (x = a && y = m) || (x = m && y = b) then some (a, b, h)
      else if x < m then parentGo fuel a m (hostOf a m h) x y
      else parentGo fuel m b (hostOf m b h) x y

/-- The parent of [x, y) in the tree over M leaves rooted at leaf o. -/
def parentOf (m o x y : Nat) : Option (Nat × Nat × Nat) := if y - x = m then none else parentGo 64 0 m o x y

/-- The leaves that leaf i sends to in a distribution over [a, b) hosted by h (R353), top down. -/
def childrenGo : Nat → Nat → Nat → Nat → Nat → List Nat
  | 0, _, _, _, _ => []
  | fuel + 1, a, b, h, i =>
    if b - a ≤ 1 then []
    else
      let m := treeMid a b
      let hl := hostOf a m h
      let hr := hostOf m b h
      let other := if hl = h then hr else hl
      let rest := if i < m then childrenGo fuel a m hl i else childrenGo fuel m b hr i
      if h = i then other :: rest else rest

/-- The members that member r sends to in the distribution from leaf o over N members of NLEAF leaves (R353). -/
def distChildren (n nleaf o r : Nat) : List Nat :=
  (((List.range nleaf).flatMap (fun k => childrenGo 64 0 (n * nleaf) o (r * nleaf + k))).map (· / nleaf)).eraseDups.filter
    (· != r)

/-- The topmost node that leaf i hosts in the tree over [a, b) hosted by h: its bounds. -/
def topGo : Nat → Nat → Nat → Nat → Nat → Nat × Nat
  | 0, _, _, _, i => (i, i + 1)
  | fuel + 1, a, b, h, i =>
    if h = i then (a, b)
    else if b - a ≤ 1 then (i, i + 1)
    else
      let m := treeMid a b
      if i < m then topGo fuel a m (hostOf a m h) i else topGo fuel m b (hostOf m b h) i

/-- The members of the distribution subtree of member r, itself among them (R350). -/
def subtreeOf (n nleaf r : Nat) : List Nat :=
  let ts := (List.range nleaf).map (fun k => topGo 64 0 (n * nleaf) 0 (r * nleaf + k))
  (List.range n).filter (fun q => ts.any (fun t => t.1 / nleaf ≤ q && q ≤ (t.2 - 1) / nleaf))

/-- The members that send to member r in the distribution from leaf o over N members of NLEAF leaves (R353): the host of the parent of
the topmost node that each of its leaves hosts. -/
def distParents (n nleaf o r : Nat) : List Nat :=
  ((List.range nleaf).filterMap (fun k =>
    let t := topGo 64 0 (n * nleaf) o (r * nleaf + k)
    (parentOf (n * nleaf) o t.1 t.2).map (fun p => p.2.2 / nleaf))).eraseDups.filter (· != r)

/-! ### Sums -/

/-- The h word of a pair, or the value itself. -/
def hiW (v : BitVec 64) : BitVec 32 := v.truncate 32
/-- The l word of a pair. -/
def loW (v : BitVec 64) : BitVec 32 := (v >>> 32).truncate 32
/-- A pair. -/
def mkPair (h l : BitVec 32) : BitVec 64 := h.setWidth 64 ||| (l.setWidth 64 <<< 32)

/-- An infinity. -/
def isInf32 (v : BitVec 32) : Bool := v = 0x7F800000 || v = 0xFF800000

/-- The sum of two pairs (R355); (h1, l1) is the lower-leaf operand. -/
def pairSum2 (a b : BitVec 64) : BitVec 64 :=
  let ad (x y : BitVec 32) := (fadd .ieee x y).v
  let sb (x y : BitVec 32) := (fsub .ieee x y).v
  let ws := [hiW a, loW a, hiW b, loW b]
  let infs := ws.filter isInf32
  if ws.any isNan32 || (infs.contains 0x7F800000 && infs.contains 0xFF800000) then mkPair qnan qnan
  else match infs with
    | i :: _ => mkPair i i
    | [] =>
      let s := ad (hiW a) (hiW b)
      if isInf32 s then mkPair s s
      else
        let bp := sb s (hiW a)
        let e := ad (sb (hiW a) (sb s bp)) (sb (hiW b) bp)
        let t := ad (ad (loW a) (loW b)) e
        let h := ad s t
        if isInf32 h then mkPair h h else mkPair h (sb t (sb h s))

/-- A leaf as an accumulated value (R354). -/
def CollD.leaf (d : CollD) (code : BitVec 64) : BitVec 64 :=
  match d.fmt with
  | 5 => (BitVec.ofInt 32 (signed 8 code.toNat)).setWidth 64
  | 8 => code
  | 7 => mkPair (code.truncate 32) 0
  | f => (elemWord f code.toNat).setWidth 64

/-- INT32 addition with saturation (R354), and whether it saturated. -/
def satSum (a b : BitVec 32) : BitVec 32 × Nat :=
  let v := a.toInt + b.toInt
  if 2 ^ 31 ≤ v then (0x7FFFFFFF, 1) else if v < -(2 ^ 31) then (0x80000000, 1) else (BitVec.ofInt 32 v, 0)

/-- The sum of two accumulated values, the lower leaves first (R354, R355), and saturations. -/
def CollD.plus (d : CollD) (a b : BitVec 64) : BitVec 64 × Nat :=
  if d.fmt = 5 || d.fmt = 8 then
    let r := satSum (hiW a) (hiW b)
    (r.1.setWidth 64, r.2)
  else if d.pair then (pairSum2 a b, 0)
  else ((fadd .ieee (hiW a) (hiW b)).v.setWidth 64, 0)

/-- A root's value as a result element (R354). -/
def CollD.result (d : CollD) (v : BitVec 64) : BitVec 64 :=
  if d.out = 8 || d.keep then v
  else
    let x := if d.pair then (fadd .ieee (hiW v) (loW v)).v else hiW v
    if d.out = 7 then x.setWidth 64
    else BitVec.ofNat 64 (convert (if d.sat then .sat else .ieee) d.out x).v

end Sys2Proof.Machine
end

