-- ==== Sys2Proof/Machine/Relay.lean ====
section
/-! DEFINITION. The Relay (R332 to R366): groups, posts and launches, the rendezvous, the movement of data, completion and
errors. -/

namespace Sys2Proof.Machine

/-! ### Access -/

/-- Change the Relay. -/
def State.onRelay (s : State) (f : Relay → Relay) : State := { s with relay := f s.relay }
/-- Context c. -/
def State.ctx (s : State) (c : Nat) : Ctx := s.relay.ctxs.get c {}
/-- Change context c. -/
def State.onCtx (s : State) (c : Nat) (f : Ctx → Ctx) : State :=
  s.onRelay (fun q => { q with ctxs := q.ctxs.put c (f (s.ctx c)) })
/-- The descriptor of a context. -/
def Ctx.d (x : Ctx) : CollD := parseColl x.desc
/-- The group of a context. -/
def State.grp (s : State) (x : Ctx) : Group := s.relay.groups.get x.d.group {}
/-- Add to counter k (R366). -/
def collCount (k n : Nat) (s : State) : State := s.onRelay (fun q => { q with cnt := listUpd q.cnt k (wrapAdd · n) })

/-- What the Relay reads of a table in device memory (R137, R138, R342): its little-endian words of eb bytes, none where a byte is
unmapped or poisoned. -/
def readWords (a eb n : Nat) (ecc : List (Nat × EccHit)) (s : State) : Option (List Nat) × State :=
  if 2 ^ 48 < a + eb * n then (none, s)
  else
    let g := devRead none a (eb * n) ecc s
    (if g.1.err = 0 && g.1.bad.isEmpty then some ((chunks eb g.1.bytes).map leNat) else none, g.2)

/-- Bytes of device memory as the Relay reads its tables; none where a byte is unmapped (R342). -/
def State.devBytes (s : State) (a n : Nat) : Option (List Byte) :=
  if 2 ^ 48 < a + n then none
  else
    let g := (devRead none a n [] s).1
    if g.err = 0 then some g.bytes else none

/-- Little-endian words of device memory. -/
def State.devWords (s : State) (a eb n : Nat) : Option (List Nat) := (s.devBytes a (eb * n)).map (fun b => (chunks eb b).map leNat)

/-- The device of rank r of a group (R334, R335): read from the member list. -/
def State.rankDev (s : State) (g : Group) (r : Nat) : BitVec 14 :=
  BitVec.ofNat 14 (((s.devWords (g.list.toNat + 2 * r) 2 1).getD []).headD 0)

/-- The tables in device memory that the Relay reads for a context, each with its size: the member list, the piece lists, and the
count vectors or PERMUTE lists (R335, R338, R339, R342). -/
def State.tables (s : State) (x : Ctx) : List (Nat × Nat) :=
  let d := x.d
  let g := s.grp x
  [(g.list.toNat, 2 * g.n), (d.srcList, 16 * d.srcN), (d.dstList, 16 * d.dstN)]
    ++ (if d.op = 7 then [(d.counts, 16 * d.sendN), (d.recv, 16 * d.recvN)]
      else (if d.counts = 0 then [] else [(d.counts, 4 * g.n)]) ++ (if d.op = 6 then [(d.recv, 4 * g.n)] else []))

/-- A table of a context lies in memory that cannot be accessed now (R363). -/
def State.tablesWait (s : State) (x : Ctx) : Bool := (s.tables x).any (fun t => s.memWaits t.1 t.2)

/-- Every table of a context lies in mapped memory (R361). -/
def State.tablesOk (s : State) (x : Ctx) : Bool :=
  (s.tables x).all (fun t => t.1 + t.2 ≤ 2 ^ 48 && s.memErr none t.1 t.2 = 0)

/-- The live context of a Collective ID (R351). -/
def State.liveCtx (s : State) (group : Nat) (seq : BitVec 32) : Option Nat :=
  (List.range 128).find? (fun c =>
    let x := s.ctx c
    x.st != .free && x.d.group = group && x.d.seq = seq.toNat)

/-! ### Groups -/

/-- Some context that is not FREE names the group (R335). -/
def State.groupUsed (s : State) (g : Nat) : Bool := s.relay.ctxs.any (fun e => e.2.st != .free && e.2.d.group = g)

/-- A number is listed twice. -/
def dupIn (l : List Nat) : Bool := l.zipIdx.any (fun e => (l.drop (e.2 + 1)).contains e.1)

/-- GROUP_LOAD (R334, R335). -/
def execGroupLoad (w : Win) (group n gen : BitVec 32) (list : BitVec 64) (ecc : List (Nat × EccHit)) (s : State) : Out := s.live <|
  command w 0x40 [group.toNat, n.toNat, gen.toNat, list.toNat] (fun _ s =>
    let g := group.toNat
    if 4096 ≤ g || n.toNat < 1 || 16384 < n.toNat || 65536 ≤ gen.toNat || 2 ^ 48 ≤ list.toNat then refuse stRange s
    else if (match s.relay.groups.get? g with | some o => o.jcw != winJcw w | none => false) then refuse stOwner s
    else if s.groupUsed g then refuse stState s
    else match readWords list.toNat 2 n.toNat ecc s with
      | (none, s) => refuse stRange s
      | (some ids, s) =>
        if dupIn ids || !ids.contains s.router.id.toNat then refuse stRefused s
        else
          let o : Group := {
            n := n.toNat
            gen := gen.setWidth 16
            rank := ids.idxOf s.router.id.toNat
            list := list.setWidth 48
            jcw := winJcw w }
          done (s.onRelay (fun q => { q with groups := q.groups.put g o }))) s

/-- GROUP_UNLOAD (R334, R335). -/
def execGroupUnload (w : Win) (group : BitVec 32) (s : State) : Out := s.live <|
  command w 0x41 [group.toNat] (fun _ s =>
    let g := group.toNat
    if 4096 ≤ g then refuse stRange s
    else match s.relay.groups.get? g with
      | none => refuse stState s
      | some o =>
        if o.jcw != winJcw w then refuse stOwner s
        else if s.groupUsed g then refuse stState s
        else done (s.onRelay (fun q => { q with groups := q.groups.del g }))) s

/-! ### Vectors and pieces -/

/-- The pieces of a list (R338); none: not in mapped memory. -/
def State.pieceList (s : State) (a n : Nat) : Option (List PieceD) :=
  (s.devBytes a (16 * n)).map (fun b => (chunks 16 b).map parsePiece)

/-- The moves of a list (R339); none: not in mapped memory. -/
def State.moves (s : State) (a n : Nat) : Option (List Move) :=
  if n = 0 then some [] else (s.devBytes a (16 * n)).map (fun b => (chunks 16 b).map parseMove)

/-- The segments of a SLUICE piece with their COUNT and the bytes of an element of their compute copy; none: one is not valid (R338,
R342). -/
def State.pieceSegs (s : State) (p : PieceD) : Option (List (Nat × Nat × Nat)) :=
  if p.kind != 2 then some []
  else
    let x := s.sluice p.stack
    let is := (List.range p.segCount).map (· + p.segFirst)
    if is.all (fun i => i < x.cur.smapCount.toNat && (x.seg i).valid) then some (is.map (fun i => (i, (x.seg i).count, (x.seg i).ccBytes)))
    else none

/-- Bytes that a piece holds of its vector: of a SLUICE source in the COPY_FMT that its segments had at the post, of a SLUICE destination
in OUT_FMT (R338). -/
def pieceSize (d : CollD) (dst : Bool) (p : PieceD) (segs : List (Nat × Nat × Nat)) : Nat :=
  match p.kind with
  | 2 => (segs.map (fun g => g.2.1 * (if dst then d.outBytes else g.2.2))).sum
  | 3 => 64
  | _ => p.bytes

/-- The pieces of a context's source or destination, each with its place in the vector: (piece, first byte, bytes, number). -/
def State.ctxPieces (s : State) (x : Ctx) (dst : Bool) : List (PieceD × Nat × Nat × Nat) :=
  let d := x.d
  let ps := (s.pieceList (if dst then d.dstList else d.srcList) (if dst then d.dstN else d.srcN)).getD []
  let st := if dst then x.dst else x.src
  let rs := ps.zipIdx.map (fun e => (e.1, pieceSize d dst e.1 ((st.getD e.2 {}).segs), e.2))
  (rs.foldl (fun (acc : List (PieceD × Nat × Nat × Nat) × Nat) e =>
    (acc.1 ++ [(e.1, acc.2, e.2.1, e.2.2)], acc.2 + e.2.1)) ([], 0)).1

/-- The part of [a, a + n) inside [b, b + m): first and size. -/
def meet (a n b m : Nat) : Nat × Nat := (max a b, min (a + n) (b + m) - max a b)

/-- The count vector of an operation that has one (R336). -/
def State.collCounts (s : State) (d : CollD) (n : Nat) : Option (Option (List Nat)) :=
  if d.counts = 0 || d.op = 7 then (if d.op = 6 then none else some none)
  else (s.devWords d.counts 4 n).map some

/-- Elements of a vector split in shards. -/
def totalOf (d : CollD) (counts : Option (List Nat)) : Nat := (counts.map List.sum).getD d.count

/-- The elements that shards divide where no count vector is given (R336): COUNT; for ALL_GATHER N times COUNT where the destination
holds so much, for COUNT is then the size of each contribution, and otherwise COUNT, as R369 posts it (DEDUCED, log 65). -/
def State.whole (s : State) (x : Ctx) : Nat :=
  let d := x.d
  let n := (s.grp x).n
  if d.op = 1 && ((s.ctxPieces x true).map (·.2.2.1)).sum = n * d.count * collBytes d.fmt then n * d.count else d.count

/-- The shard j of an operation with shards or one source (R336): first element in the destination and size. -/
def State.shardAt (s : State) (x : Ctx) (j : Nat) : Nat × Nat :=
  let d := x.d
  let n := (s.grp x).n
  if d.op = 4 then (0, d.count) else shardOf (s.whole x) n ((s.collCounts d n).getD none) j

/-- The runs (first element, count) of the source that go to rank r, straight (R336, R339). -/
def State.sendRuns (s : State) (x : Ctx) (r : Nat) : List (Nat × Nat) :=
  let d := x.d
  match d.op with
  | 5 => [(r * d.count, d.count)]
  | 6 => (match (s.collCounts d (s.grp x).n).getD none with
    | some l => [((l.take r).sum, l.getD r 0)]
    | none => [])
  | _ => (((s.moves d.counts d.sendN).getD []).filter (fun m => m.rank = r)).map (fun m => (m.off, m.count))

/-- The runs (first element, count) of the destination that hold what rank r sends, straight (R336, R339, R349). -/
def State.recvRuns (s : State) (x : Ctx) (r : Nat) : List (Nat × Nat) :=
  let d := x.d
  match d.op with
  | 5 => [(r * d.count, d.count)]
  | 6 =>
    let c (q : Nat) := ((x.counts.find? (fun e => e.1 == q)).map (·.2)).getD 0
    [(((List.range r).map c).sum, c r)]
  | _ => (((s.moves d.recv d.recvN).getD []).filter (fun m => m.rank = r)).map (fun m => (m.off, m.count))

/-- Elements in runs. -/
def runTotal (rs : List (Nat × Nat)) : Nat := (rs.map (·.2)).sum

/-- Elements o to o + n of the concatenation of runs, as runs. -/
def runsSlice : List (Nat × Nat) → Nat → Nat → List (Nat × Nat)
  | [], _, _ => []
  | (a, c) :: rs, o, n =>
    if n = 0 then [] else
    if c ≤ o then runsSlice rs (o - c) n
    else
      let k := min n (c - o)
      (a + o, k) :: runsSlice rs 0 (n - k)

/-- Blocks of a run of elements. -/
def blocksIn (n b : Nat) : Nat := (n + b - 1) / b

/-! ### Posting -/

/-- The device addresses of bytes [o, o + n) of a vector: those in HBM and Reservoir pieces. -/
def vecAddrs (ps : List (PieceD × Nat × Nat × Nat)) (o n : Nat) : List (Nat × Nat) :=
  (ps.filter (fun e => e.1.kind < 2)).filterMap (fun e =>
    let m := meet o n e.2.1 e.2.2.1
    if m.2 = 0 then none else some (e.1.at (m.1 - e.2.1), m.2))

/-- Bytes that a member's source must hold (R336); PERMUTE's reaches to the end of its last move. -/
def State.srcNeed (s : State) (x : Ctx) : Nat :=
  let d := x.d
  let g := s.grp x
  let cs := (s.collCounts d g.n).getD none
  collBytes d.fmt * (match d.op with
    | 1 => (s.shardAt x g.rank).2
    | 4 => if g.rank = d.root then d.count else 0
    | 5 => g.n * d.count
    | 6 => totalOf d cs
    | 7 => (((s.moves d.counts d.sendN).getD []).map (fun m => m.off + m.count)).foldl max 0
    | _ => d.nleaf * totalOf d cs)

/-- Bytes that a member's destination must hold (R336). -/
def State.dstNeed (s : State) (x : Ctx) : Nat :=
  let d := x.d
  let g := s.grp x
  let cs := (s.collCounts d g.n).getD none
  match d.op with
  | 1 => collBytes d.fmt * ((cs.map List.sum).getD (s.whole x))
  | 2 => d.outBytes * (s.shardAt x g.rank).2
  | 3 => d.outBytes * totalOf d cs
  | 4 => collBytes d.fmt * d.count
  | 5 => collBytes d.fmt * (g.n * d.count)
  | 6 => collBytes d.fmt * ((s.devWords d.recv 4 g.n).getD []).sum
  | _ => collBytes d.fmt * (((s.moves d.recv d.recvN).getD []).map (fun m => m.off + m.count)).foldl max 0

/-- A piece lies in mapped memory (R342). -/
def State.pieceOk (s : State) (p : PieceD) : Bool :=
  match p.kind with
  | 0 => p.addr + p.bytes ≤ 2 ^ 47 && s.memErr none p.addr p.bytes = 0
  | 1 => (s.phys? p.lplot).isSome && p.addr + p.bytes + 8 * b2n p.tag ≤ rsvBytes
  | 2 => (s.pieceSegs p).isSome
  | _ => true

/-- The store a context needs (R343). -/
def storeNeed (d : CollD) (n : Nat) : Nat :=
  if d.red then 2 * (clog2 (n * d.nleaf) + 1) * d.blkElems * d.wAcc else 2 * d.blkElems * collBytes d.fmt

/-- Free store of quadrant q, in bytes (R332, R343). -/
def State.storeFree (s : State) (q : Nat) : Nat :=
  25165824 - ((s.relay.ctxs.filter (fun e => e.1 % 4 = q && e.2.st != .free)).map (·.2.store)).sum

/-- Bytes that PERMUTE's receive list places over the member's own source (R360). -/
def State.overSource (s : State) (x : Ctx) : Nat :=
  let eb := collBytes x.d.fmt
  let src := s.ctxPieces x false
  let dst := s.ctxPieces x true
  let mine := src.flatMap (fun e => vecAddrs [e] e.2.1 e.2.2.1)
  ((((s.moves x.d.recv x.d.recvN).getD []).flatMap (fun m => vecAddrs dst (m.off * eb) (m.count * eb))).map
    (fun r => (mine.map (fun q => (meet r.1 r.2 q.1 q.2).2)).sum)).sum

/-- Bytes of a piece at [o, o + n) that an operation moves: all of them, or PERMUTE's as often as its moves name them. -/
def useBytes (ms : Option (List Move)) (eb o n : Nat) : Nat :=
  match ms with
  | none => n
  | some l => (l.map (fun m => (meet (m.off * eb) (m.count * eb) o n).2)).sum

/-- Reserved encodings and combinations outside R340, in the descriptor and in the lists it names where these can be read (R342). -/
def State.postRsv (s : State) (x : Ctx) : Bool :=
  let d := x.d
  let sp := (s.pieceList d.srcList d.srcN).getD []
  let dp := (s.pieceList d.dstList d.dstN).getD []
  let ms := if d.op = 7 then (s.moves d.counts d.sendN).getD [] ++ (s.moves d.recv d.recvN).getD [] else []
  d.reserved || sp.any (·.reserved false) || dp.any (·.reserved true) || ms.any (·.rsv)
    || (d.red && d.out != 7 && d.out != 0 && dp.any (fun p => p.kind = 2)) || (d.keep && dp.any (fun p => p.kind = 2))

/-- Why the lists and pieces of a post are refused (R342): 11, or 0 for no reason. -/
def State.postRange (s : State) (x : Ctx) : Nat :=
  let d := x.d
  let n := (s.grp x).n
  match s.pieceList d.srcList d.srcN, s.pieceList d.dstList d.dstN, s.collCounts d n,
      s.moves d.counts (if d.op = 7 then d.sendN else 0), s.moves d.recv (if d.op = 7 then d.recvN else 0) with
  | some sp, some dp, some _, some sm, some rm =>
    if !(sp ++ dp).all s.pieceOk || (d.op = 4 && n ≤ d.root) || (sm ++ rm).any (fun m => n ≤ m.rank)
        || (d.op = 6 && (s.devWords d.recv 4 n).isNone) then 11
    else
      let size (dst : Bool) (ps : List PieceD) := (ps.map (fun p => pieceSize d dst p ((s.pieceSegs p).getD []))).sum
      if size false sp != s.srcNeed x || (!(d.op = 6 && d.learn) && size true dp != s.dstNeed x) then 11 else 0
  | _, _, _, _, _ => 11

/-- The context a post makes, with its pieces not yet read or landed. -/
def State.newCtx (s : State) (desc : List Byte) (jcw : Bool) : Ctx :=
  let x : Ctx := { st := .posted, desc, jcw, posted := s.relay.nposts }
  let d := x.d
  let segs (a n : Nat) : List Piece := ((s.pieceList a n).getD []).map (fun p => ({ segs := (s.pieceSegs p).getD [] } : Piece))
  let x := { x with src := segs d.srcList d.srcN, dst := segs d.dstList d.dstN }
  let eb := collBytes d.fmt
  let left (dst : Bool) (ms : Option (List Move)) (ps : List Piece) : List Piece :=
    ps.zip (s.ctxPieces x dst) |>.map (fun e => { e.1 with left := useBytes ms eb e.2.2.1 e.2.2.2.1 })
  { x with
    src := left false (if d.op = 7 then s.moves d.counts d.sendN else none) x.src
    dst := left true (if d.op = 7 then s.moves d.recv d.recvN else none) x.dst
    store := storeNeed d (s.grp x).n
    digest := crc64 (d.record (s.grp x).gen.toNat (s.grp x).n ((s.collCounts d (s.grp x).n).getD none)) }

/-! ### Messages -/

/-- A COLL_MSG packet (R346, R351), laid out as log 16 says: kinds 1 POST, 2 RETRY, 3 GO, 4 ABORT, 5 a count, 6 a credit. -/
def collMsg (dst : BitVec 14) (group : Nat) (seq kind rank : Nat) (body : List Byte) : Packet :=
  { cls := 3, op := 8, dst, addr := BitVec.ofNat 48 (group + putField 12 seq), arg := w32 (kind + putField 4 rank),
    payload := body }

/-- Send a message of a context to a rank. -/
def msgRank (x : Ctx) (r kind : Nat) (body : List Byte) (s : State) : State :=
  let g := s.grp x
  enqueueAt 1 (collMsg (s.rankDev g r) x.d.group x.d.seq kind g.rank body) s

/-- Send a message of a context to its children in the distribution tree of shard 0 (R346, R348). -/
def msgDown (x : Ctx) (kind : Nat) (body : List Byte) (s : State) : State :=
  let g := s.grp x
  (distChildren g.n x.d.nleaf 0 g.rank).foldl (fun s r => msgRank x r kind body s) s

/-- The missing-member bitmap (R350). -/
def missBits (m : List Nat) : List Byte :=
  (List.range 2048).map (fun i => BitVec.ofNat 8 (((List.range 8).map (fun b => if m.contains (8 * i + b) then 2 ^ b else 0)).sum))

/-- The body of an ABORT (R348, R350; log 16). -/
def abortBody (a : AbortMsg) : List Byte :=
  leBytes 1 a.code.toNat ++ leBytes 2 a.rank ++ leBytes 8 a.own.toNat ++ leBytes 8 a.other.toNat
    ++ a.missing.flatMap (leBytes 2)

/-! ### The end of a context -/

/-- A context ends in CLOSING when all it does locally is done, and becomes FREE once every COLL_DATA it sent is answered
(R341, R358, R362). -/
def Ctx.finished (x : Ctx) : Bool :=
  x.toSend.isEmpty && x.held.isEmpty && x.awaited.all (fun e => e.2 = 0) && x.src.all (·.done) && x.dst.all (·.done)

/-- An error code has its effects on the registers and the Journal (R361, R364, R365). -/
def collReport (c code rank : Nat) (part : Bool) (other : Option (BitVec 64)) (s : State) : State :=
  let x := s.ctx c
  let d := x.d
  let s := s.onRelay (fun q =>
    let q := { q with sMismatch := q.sMismatch || code = 3, sStall := q.sStall || code = 4, sAborted := q.sAborted || code = 5,
                      sPoison := q.sPoison || code = 6, sRemote := q.sRemote || code = 7 }
    if q.errValid then q
    else { q with
      errValid := true, errCtx := BitVec.ofNat 7 c, errCode := BitVec.ofNat 4 code, errRank := BitVec.ofNat 14 rank,
      errPartial := part,
      errOwn := if other.isSome then x.digest else q.errOwn, errOther := other.getD q.errOther })
  event 0x60 4 c [w32 code, w32 d.group, w32 d.seq, w32 rank] noDseq s

/-- A CLOSING context whose COLL_DATA are all answered becomes FREE (R341, R358). -/
def freeIfDone (c : Nat) (s : State) : State :=
  let x := s.ctx c
  if x.st != .closing || x.unacked != 0 then s
  else
    let s := s.onCtx c (fun x => ({ status := x.status, jcw := x.jcw, desc := x.desc, posted := x.posted } : Ctx))
    if x.d.notify then note 0x61 c [w32 x.status.toNat, w32 x.d.group, w32 x.d.seq] noDseq s else s

/-- A RUNNING context whose local work is done leaves RUNNING (R358, R361). -/
def closeIfDone (c : Nat) (s : State) : State :=
  let x := s.ctx c
  if x.st != .running || !x.finished then s
  else
    let s := if x.poison then collReport c 6 0 false none s else s
    freeIfDone c (collCount 2 1 (s.onCtx c (fun x => { x with st := .closing, status := if x.poison then 6 else 0, sums := [] })))

/-- Make the RAISE of a piece (R106, R338). -/
def pieceRaise (p : PieceD) (s : State) : State :=
  if bitOf p.raise 6 then
    match s.phys? p.lplot with
    | some q => raiseLocal q (p.raise % 64) s
    | none => s
  else s

/-- The bytes of a failed context's destination piece are undefined (R361, log 2). -/
def scramblePiece (e : PieceD × Nat × Nat × Nat) (s : State) : State :=
  if 2 ≤ e.1.kind || s.memErr none (e.1.at 0) e.2.2.1 != 0 then s
  else
    let b := s.drawBytes e.2.2.1
    (spaces (e.1.at 0) e.2.2.1).foldl (fun s q =>
      let bs := (b.1.drop (q.1 - e.1.at 0)).take q.2
      match spaceOf q.1 with
      | .hbm => (pieces 256 q.1 q.2).foldl (fun s u =>
          match s.hbmAt u.1 with
          | none => s
          | some (k, sb) => s.onStack k (fun x => { x with mem := x.mem.write (x.key sb) ((bs.drop (u.1 - q.1)).take u.2) })) s
      | sp => match s.rsvPlot none sp with
        | none => s
        | some (t, o) => s.onPlot t (fun x => { x with resv := x.resv.write o bs })) b.2

/-- Write the missing-member bitmap (R350), once the memory it lies in can be accessed (R363). -/
def writeMissing (m : List Nat) (s : State) : State :=
  if s.relay.missBase = 0 then s
  else if s.memWaits s.relay.missBase.toNat 2048 then s.onRelay (fun q => { q with acts := q.acts ++ [{ kind := .missing, ranks := m }] })
  else (devWrite none s.relay.missBase.toNat (missBits m) [] [] s).2

/-- A context fails (R361): it stops sending, discards its blocks, makes the RAISE of its destination pieces, and closes. -/
def failCtx (c code rank : Nat) (part : Bool) (other : Option (BitVec 64)) (miss : Option (List Nat)) (s : State) : State :=
  let x := s.ctx c
  if x.st != .rendezvous && x.st != .running then s
  else
    let s := collReport c code rank part other s
    let s := match miss with
      | some m => writeMissing m (s.onCtx c (fun x => { x with missing := m }))
      | none => s
    let ps := (s.ctxPieces x true).filter (fun e => !(x.dst.getD e.2.2.2 {}).done)
    let s := ps.foldl (fun s e => pieceRaise e.1 (scramblePiece e s)) s
    let s := (List.range 24).foldl (fun s k =>
      if (s.sluice k).waiting.isEmpty then s
      else s.onSluice k (fun q => { q with waiting := q.waiting.filter (fun e => e.1 != c) })) s
    let s := s.onCtx c (fun x => { x with
      st := .closing, status := BitVec.ofNat 4 code, toSend := [], sums := [], early := [], held := [], retry := none })
    freeIfDone c (collCount 3 1 s)

/-- Do something that reads the tables of context c (R361, R363): put off while memory they lie in cannot be accessed; a table that is
mapped no longer fails the context. -/
def withTables (c : Nat) (a : RelayAct) (f : State → State) (s : State) : State :=
  let x := s.ctx c
  if s.tablesWait x then s.onRelay (fun q => { q with acts := q.acts ++ [{ a with ctx := c, posted := x.posted }] })
  else if !s.tablesOk x then failCtx c 11 0 false none none s
  else f s

/-- Rank 0 sends ABORT down the tree and ends its own context (R348, R350, R363). -/
def abortDown (c : Nat) (a : AbortMsg) (s : State) : State :=
  let x := s.ctx c
  let s := msgDown x 4 (abortBody a) s
  failCtx c a.code.toNat a.rank false (if a.code = 3 then some a.other else none)
    (if a.code = 4 then some a.missing else none) s

/-- A member asks for an ABORT (R349, R363): through rank 0. -/
def askAbort (c : Nat) (a : AbortMsg) (s : State) : State :=
  let x := s.ctx c
  if (s.grp x).rank = 0 then abortDown c a s else msgRank x 0 4 (abortBody a) s

/-! ### Reading the source -/

/-- What a read of a source gives. -/
structure SrcGot where
  /-- it has to wait: memory cannot be accessed, or a segment has not been served -/
  wait : Bool := false
  /-- an address is unmapped -/
  err : Bool := false
  /-- the bytes -/
  bytes : List Byte := []
  /-- offsets of poisoned bytes -/
  bad : List Nat := []
  /-- step tags served -/
  tags : List (BitVec 31) := []

/-- Bytes of the served segments of a SLUICE source (R359). -/
def servedBytes (x : Piece) (o n : Nat) : SrcGot :=
  (x.segs.foldl (fun (acc : SrcGot × Nat) g =>
    let size := g.2.1 * g.2.2
    let m := meet o n acc.2 size
    if m.2 = 0 then (acc.1, acc.2 + size)
    else match x.served.get? g.1 with
      | none => ({ acc.1 with wait := true }, acc.2 + size)
      | some v =>
        let lo := m.1 - acc.2
        ({ acc.1 with
            bytes := acc.1.bytes ++ (v.bytes.drop lo).take m.2,
            bad := acc.1.bad ++ (v.bad.filter (fun i => lo ≤ i && i < lo + m.2)).map (fun i => acc.2 + i - o),
            tags := acc.1.tags ++ [v.tag] }, acc.2 + size)) ({}, 0)).1

/-- Read bytes [o, o + n) of the source of context c (R338, R358, R359, R362); `ecc` names what SECDED finds in Reservoirs. -/
def readSrc (c o n : Nat) (ecc : List (Nat × EccHit)) (s : State) : SrcGot × State :=
  let x := s.ctx c
  (s.ctxPieces x false).foldl (fun (acc : SrcGot × State) e =>
    let m := meet o n e.2.1 e.2.2.1
    if m.2 = 0 || acc.1.wait || acc.1.err then acc
    else
      let lo := m.1 - e.2.1
      let pc := x.src.getD e.2.2.2 {}
      let r : SrcGot × State :=
        match e.1.kind with
        | 2 => (servedBytes pc lo m.2, acc.2)
        | 3 => ({ bytes := ((acc.2.commit.payload.flatMap (fun w => leBytes 4 w.toNat)).drop lo).take m.2 }, acc.2)
        | _ =>
          if acc.2.memWaits (e.1.at lo) m.2 then ({ wait := true }, acc.2)
          else
            let g := devRead none (e.1.at lo) m.2 ecc acc.2
            ({ err := g.1.err != 0, bytes := g.1.bytes, bad := g.1.bad }, g.2)
      ({ wait := r.1.wait, err := r.1.err, bytes := acc.1.bytes ++ r.1.bytes,
         bad := acc.1.bad ++ r.1.bad.map (· + (m.1 - o)), tags := acc.1.tags ++ r.1.tags },
       r.2.onCtx c (fun x => { x with src := listUpd x.src e.2.2.2 (fun p => { p with left := p.left - m.2 }) }))) ({}, s)

/-- Elements of eb bytes with their poison marks. -/
def elemsOf (eb : Nat) (bs : List Byte) (bad : List Nat) : List (BitVec 64 × Bool) :=
  (chunks eb bs).zipIdx.map (fun e => (BitVec.ofNat 64 (leNat e.1), bad.any (fun i => i / eb = e.2)))

/-- Read runs of elements of the source: the elements and the tags, or none where it has to wait; an unmapped address fails
the context (R361). -/
def readElems (c : Nat) (rs : List (Nat × Nat)) (ecc : List (Nat × EccHit)) (s : State) : Option (List (BitVec 64 × Bool) × List (BitVec 31) × State) :=
  let eb := collBytes (s.ctx c).d.fmt
  let r := rs.foldl (fun (acc : SrcGot × List (BitVec 64 × Bool) × State) q =>
    if acc.1.wait || acc.1.err then acc else
    let g := readSrc c (q.1 * eb) (q.2 * eb) ecc acc.2.2
    ({ acc.1 with wait := g.1.wait, err := g.1.err, tags := acc.1.tags ++ g.1.tags }, acc.2.1 ++ elemsOf eb g.1.bytes g.1.bad, g.2))
    ({}, [], s)
  if r.1.wait then none
  else if r.1.err then some ([], [], failCtx c 11 0 false none none s)
  else
    let bad := r.2.1.any (·.2)
    some (r.2.1, r.1.tags, if bad then r.2.2.onCtx c (fun x => { x with poison := true }) else r.2.2)

/-! ### Delivering -/

/-- Deliver what a SLUICE destination holds in turn to the inlet (R191, R359). -/
def feedInlet (c i : Nat) (p : PieceD) (ob : Nat) : Nat → State → State
  | 0, s => s
  | fuel + 1, s =>
    let pc := (s.ctx c).dst.getD i {}
    match takeFirst (fun e => e.1 == pc.pos) pc.wait with
    | none => s
    | some ((o, bs, bad), rest) =>
      let es := (elemsOf ob bs bad).map (fun e => (elemWord (if ob = 2 then 0 else 7) e.1.toNat, e.2))
      let at_ := o / ob
      let s := (pc.segs.foldl (fun (acc : Nat × State) g =>
        let m := meet at_ es.length acc.1 g.2.1
        (acc.1 + g.2.1, if m.2 = 0 then acc.2
          else elementArrive p.stack g.1 (m.1 - acc.1) ((es.drop (m.1 - at_)).take m.2) acc.2)) (0, s)).2
      feedInlet c i p ob fuel (s.onCtx c (fun x => { x with dst := listUpd x.dst i (fun q =>
        { q with wait := rest, pos := o + bs.length }) }))

/-- The offsets within bytes [lo, lo + n) of a run, of those poisoned in it. -/
def badIn (bad : List Nat) (lo n : Nat) : List Nat := (bad.filter (fun i => lo ≤ i && i < lo + n)).map (· - lo)

/-- Bytes land at byte o of the destination of context c, from a rank (R357, R358, R361, R362). None: they have to wait. -/
def landBytes (c rank o : Nat) (bs : List Byte) (bad : List Nat) (tags : List (BitVec 31)) (ecc : List (Nat × EccHit)) (s : State) :
    Option State :=
  let x := s.ctx c
  let ps := (s.ctxPieces x true).filter (fun e => (meet o bs.length e.2.1 e.2.2.1).2 != 0)
  if ps.any (fun e =>
      let m := meet o bs.length e.2.1 e.2.2.1
      e.1.kind < 2 && s.memWaits (e.1.at (m.1 - e.2.1)) m.2) then none
  else
    let tot := (ps.map (fun e => (meet o bs.length e.2.1 e.2.2.1).2)).sum
    let r := ps.foldl (fun (acc : Nat × State) e =>
      let m := meet o bs.length e.2.1 e.2.2.1
      let lo := m.1 - e.2.1
      let part := (bs.drop (m.1 - o)).take m.2
      let pb := badIn bad (m.1 - o) m.2
      let i := e.2.2.2
      let s := acc.2.onCtx c (fun x => { x with dst := listUpd x.dst i (fun p =>
        { p with left := p.left - m.2, tags := p.tags ++ tags.map (fun t => (rank, o, t)) }) })
      if 2 ≤ e.1.kind then
        let s := s.onCtx c (fun x => { x with dst := listUpd x.dst i (fun p => { p with wait := p.wait ++ [(lo, part, pb)] }) })
        (acc.1, if e.1.kind = 2 then feedInlet c i e.1 x.d.outBytes (((s.ctx c).dst.getD i {}).wait.length) s else s)
      else
        let w := devWrite none (e.1.at lo) part pb ecc s
        (if acc.1 = 0 then w.1 else acc.1, w.2)) (0, s)
    some (if r.1 != 0 || tot != bs.length then failCtx c 11 0 false none none r.2 else r.2)

/-- The bytes of elements of eb bytes, and the offsets of those poisoned. -/
def elemBytes (eb : Nat) (es : List (BitVec 64 × Bool)) : List Byte × List Nat :=
  (es.flatMap (fun e => leBytes eb e.1.toNat),
   es.zipIdx.flatMap (fun e => if e.1.2 then (List.range eb).map (· + e.2 * eb) else []))

/-- A context that meets a poisoned element completes with COLL_POISON (R362). -/
def markPoison (c : Nat) (bad : Bool) (s : State) : State := if bad then s.onCtx c (fun x => { x with poison := true }) else s

/-- Elements land at an element of the destination. -/
def landElems (c rank first eb : Nat) (es : List (BitVec 64 × Bool)) (tags : List (BitVec 31)) (ecc : List (Nat × EccHit)) (s : State) :
    Option State :=
  let b := elemBytes eb es
  landBytes c rank (first * eb) b.1 b.2 tags ecc (markPoison c (es.any (·.2)) s)

/-- The device addresses of a member's source that its sends have still to read (R360). -/
def State.unread (s : State) (x : Ctx) : List (Nat × Nat) :=
  let eb := collBytes x.d.fmt
  let b := x.d.blkElems
  let src := s.ctxPieces x false
  (x.toSend.filter (fun e => e.kind = 2)).flatMap (fun e =>
    (runsSlice (s.sendRuns x e.a) (e.blk * b) b).flatMap (fun r => vecAddrs src (r.1 * eb) (r.2 * eb)))

/-- Destination bytes [o, o + n) cut into runs, each with whether it overlaps source bytes not yet read (R360): (overlaps, first byte,
bytes). -/
def State.cutRun (s : State) (x : Ctx) (o n : Nat) : List (Bool × Nat × Nat) :=
  let un := if x.d.op = 7 then s.unread x else []
  if un.isEmpty then [(false, o, n)]
  else
    let dst := s.ctxPieces x true
    let hit (i : Nat) : Bool := (vecAddrs dst (o + i) 1).any (fun q => un.any (fun u => (meet q.1 q.2 u.1 u.2).2 != 0))
    ((List.range n).splitBy (fun i j => hit i == hit j)).map (fun l => (hit (l.headD 0), o + l.headD 0, l.length))

/-- A run of destination bytes: placed, or held in SCRATCH (R360, R361). None: it has to wait. -/
def landPart (c rank o : Nat) (hold : Bool) (bs : List Byte) (bad : List Nat) (tags : List (BitVec 31)) (ecc : List (Nat × EccHit))
    (s : State) : Option State :=
  let x := s.ctx c
  let at_ := x.d.scratch + x.scratchAt
  if x.st != .running then some s
  else if !hold then landBytes c rank o bs bad tags ecc s
  else if s.memWaits at_ bs.length || x.d.scratchBytes < x.scratchAt + bs.length then none
  else
    let w := devWrite none at_ bs bad ecc s
    some (if w.1 != 0 then failCtx c 11 0 false none none w.2
      else w.2.onCtx c (fun x => { x with
        held := x.held ++ [{ rank, o, off := x.scratchAt, n := bs.length, tags }], scratchAt := x.scratchAt + bs.length }))

/-- Elements of the stream that a rank sends straight, from its element o on, land (R336, R357, R360). None: they have to wait. -/
def landDirect (c rank o : Nat) (es : List (BitVec 64 × Bool)) (tags : List (BitVec 31)) (ecc : List (Nat × EccHit)) (s : State) :
    Option State :=
  let x := s.ctx c
  let eb := collBytes x.d.fmt
  let b := elemBytes eb es
  let parts := (runsSlice (s.recvRuns x rank) o es.length).flatMap (fun r => s.cutRun x (r.1 * eb) (r.2 * eb))
  (parts.foldl (fun (acc : Option (Nat × State)) q =>
    acc.bind (fun a => (landPart c rank q.2.1 q.1 ((b.1.drop a.1).take q.2.2) (badIn b.2 a.1 q.2.2) tags ecc a.2).map
      (fun t => (a.1 + q.2.2, t)))) (some (0, markPoison c (es.any (·.2)) s))).map (·.2)

/-- Bytes in SCRATCH whose source bytes have been read are placed (R360). -/
def releaseHeld (c : Nat) (s : State) : State :=
  (s.ctx c).held.foldl (fun s h =>
    let x := s.ctx c
    let at_ := x.d.scratch + h.off
    if x.st != .running || (s.cutRun x h.o h.n).any (·.1) || s.memWaits at_ h.n then s
    else
      let g := devRead none at_ h.n [] s
      if g.1.err != 0 then failCtx c 11 0 false none none g.2
      else match landBytes c h.rank h.o g.1.bytes g.1.bad h.tags [] (markPoison c (!g.1.bad.isEmpty) g.2) with
        | none => s
        | some t => t.onCtx c (fun x => { x with held := x.held.erase h })) s

/-! ### The store -/

/-- What names the Relay store among the places of SECDED's findings; the others are physical Plots (R333, R478). -/
def storeKey : Nat := 1024

/-- SECDED's findings in the words of a block of the store as it is read (R333, R478): the elements, with those that a double-bit error
poisons. -/
def storeHits (c eb : Nat) (ecc : List (Nat × EccHit)) (data : List (BitVec 64 × Bool)) (s : State) :
    List (BitVec 64 × Bool) × State :=
  (ecc.filter (fun h => h.1 = storeKey)).foldl (fun (acc : List (BitVec 64 × Bool) × State) k =>
    let h := k.2
    if acc.1.length * eb ≤ h.addr then acc
    else if h.double then
      (acc.1.zipIdx.map (fun e => (e.1.1, e.1.2 || (e.2 * eb / 8 ≤ h.addr / 8 && h.addr / 8 ≤ (e.2 * eb + eb - 1) / 8))),
       markPoison c true (memUe 5 (c % 4) h.addr 0 0 acc.2))
    else (acc.1, corrected 3 acc.2)) (data, s)

/-- The findings beyond n bytes of the store already read: a step that reads several blocks counts their bytes on. -/
def eccPast (n : Nat) (ecc : List (Nat × EccHit)) : List (Nat × EccHit) :=
  ecc.filterMap (fun h =>
    if h.1 != storeKey then some h
    else if n ≤ h.2.addr then some (h.1, { h.2 with addr := h.2.addr - n }) else none)

/-! ### Sending -/

/-- Bytes of an element of a block in transit (R356). -/
def CollD.sendBytes (d : CollD) (up leaf : Bool) : Nat :=
  if up then (if leaf then collBytes d.fmt else d.wAcc) else if d.red then d.outBytes else collBytes d.fmt

/-- COLL_DATA payload of n elements of eb bytes that carry t tags: each packet of at most 1,024 B of elements has its head and poison
marks beside them (R366; log 16). -/
def collPayload (eb n t : Nat) : Nat :=
  let per := 1024 / eb
  let extra (k : Nat) : Nat := (k + 7) / 8 + 22 + 4 * t
  n * eb + n / per * extra per + (if n % per = 0 then 0 else extra (n % per))

/-- Send a block to a rank as COLL_DATA packets that ask for an answer, laid out as log 16 says (R278, R357). -/
def sendBlock (c r : Nat) (e : CollSend) (data : List (BitVec 64 × Bool)) (tags : List (BitVec 31)) (s : State) : State :=
  let x := s.ctx c
  let d := x.d
  let g := s.grp x
  let up := e.kind = 0
  let eb := d.sendBytes up (e.b - e.a = 1)
  let per := 1024 / eb
  let ts := tags.eraseDups.take 2
  let head (k : Nat) : List Byte := leBytes 1 (b2n up) ++ leBytes 2 g.rank ++ leBytes 2 e.shard ++ leBytes 4 (if up then e.a else 0)
    ++ leBytes 4 (if up then e.b else 0) ++ leBytes 4 e.blk ++ leBytes 4 (k * per) ++ leBytes 1 ts.length
    ++ ts.flatMap (fun t => leBytes 4 t.toNat)
  (chunks per data).zipIdx.foldl (fun s q =>
    let body := q.1.flatMap (fun v => leBytes eb v.1.toNat)
    let marks := leBytes ((q.1.length + 7) / 8) ((q.1.zipIdx.map (fun v => if v.1.2 then 2 ^ v.2 else 0)).sum)
    let payload := head q.2 ++ marks ++ body
    let s := request { cls := 3, op := 7, dst := s.rankDev g r, addr := BitVec.ofNat 48 (d.group + putField 12 d.seq), payload }
      { relay := true, owner := c, item := x.posted, bytes := body.length } s
    collCount 4 payload.length (s.onCtx c (fun x => { x with unacked := x.unacked + 1 }))) s

/-- A block held in the store. -/
def Ctx.block? (x : Ctx) (up : Bool) (shard a b blk : Nat) : Option CollBlk :=
  x.sums.find? (fun k => k.up == up && k.shard == shard && k.a == a && k.b == b && k.blk == blk)

/-- Drop a block from the store. -/
def Ctx.dropBlock (x : Ctx) (k : CollBlk) : Ctx := { x with sums := x.sums.erase k }

/-- The buffer of a block that came from another member is free: its credit goes back (R356). -/
def giveCollCredit (c : Nat) (k : CollBlk) (s : State) : State :=
  match k.sender with
  | none => s
  | some r => msgRank (s.ctx c) r 6 [] s

/-- Hold a block that goes down a tree, and put its sends to the member's children in the tree into the list (R353). -/
def holdDown (c shard blk : Nat) (data : List (BitVec 64 × Bool)) (tags : List (BitVec 31)) (s : State) : State :=
  let x := s.ctx c
  let g := s.grp x
  let cs := distChildren g.n x.d.nleaf (shard * x.d.nleaf) g.rank
  if cs.isEmpty then s
  else s.onCtx c (fun x => { x with
    sums := x.sums ++ [{ shard, blk, data, tags }]
    toSend := x.toSend ++ cs.map (fun r => ({ kind := 1, shard, a := r, blk } : CollSend)) })

/-- The root of a reduction delivers a block (R354): to its own destination, and for ALL_REDUCE down the tree. Every member is a source,
rank 0 the lowest (R359). -/
def deliverRoot (c shard blk : Nat) (data : List (BitVec 64 × Bool)) (tags : List (BitVec 31)) (ecc : List (Nat × EccHit)) (s : State) :
    Option State :=
  let x := s.ctx c
  let d := x.d
  let es := data.map (fun e => (d.result e.1, e.2))
  let first := (if d.op = 3 then (s.shardAt x shard).1 else 0) + blk * d.blkElems
  (landElems c 0 first d.outBytes es tags ecc s).map (fun s =>
    if d.op = 3 then holdDown c shard blk es tags (s.onCtx c (fun x => { x with got := (shard, blk) :: x.got })) else s)

/-- The runs of contribution k of a member to block blk of a shard (R352). -/
def State.leafRun (s : State) (x : Ctx) (shard blk k : Nat) : List (Nat × Nat) :=
  let d := x.d
  let sh := s.shardAt x shard
  let tot := totalOf d ((s.collCounts d (s.grp x).n).getD none)
  [(k * tot + sh.1 + blk * d.blkElems, min d.blkElems (sh.2 - blk * d.blkElems))]

/-- Read a leaf's block as accumulated values, with the tags served (R354, R359). -/
def readLeaf (c shard blk i : Nat) (ecc : List (Nat × EccHit)) (s : State) :
    Option (List (BitVec 64 × Bool) × List (BitVec 31) × State) :=
  let x := s.ctx c
  let d := x.d
  (readElems c (s.leafRun x shard blk (i % d.nleaf)) ecc s).map (fun r => (r.1.map (fun e => (d.leaf e.1, e.2)), r.2))

/-- The sum of node [a, b) for a block is present, and its parent's host is this member: it is added as soon as the sibling
is present too (R352, R353, R356), with the tags of the lower leaves first. None: a leaf cannot be read yet, or the result has to wait. -/
def settle (c shard blk : Nat) : Nat → Nat → Nat → List (BitVec 64 × Bool) → List (BitVec 31) → Option Nat → List (Nat × EccHit) →
    State → Option State
  | 0, _, _, _, _, _, _, s => some s
  | fuel + 1, a, b, data, tags, sender, ecc, s =>
    let x := s.ctx c
    let d := x.d
    let g := s.grp x
    let me := g.rank
    let hold (s : State) := s.onCtx c (fun x => { x with sums := x.sums ++ [{ up := true, shard, a, b, blk, data, tags, sender }] })
    match parentOf (g.n * d.nleaf) (shard * d.nleaf) a b with
    | none => deliverRoot c shard blk data tags ecc s
    | some (pa, pb, ph) =>
      if ph / d.nleaf != me then
        some ((hold s).onCtx c (fun x => { x with toSend := x.toSend ++ [{ shard, a, b, blk }] }))
      else
        let m := treeMid pa pb
        let sa := if a = pa then m else pa
        let sb := if a = pa then pb else m
        let sib : Option (Option (CollBlk × List (Nat × EccHit) × State)) :=
          if sb - sa = 1 && sa / d.nleaf = me then
            (readLeaf c shard blk sa ecc s).map (fun r => some ({ data := r.1, tags := r.2.1 }, ecc, r.2.2))
          else some ((x.block? true shard sa sb blk).map (fun k =>
            let h := storeHits c d.wAcc ecc k.data (s.onCtx c (fun x => x.dropBlock k))
            ({ k with data := h.1 }, eccPast (k.data.length * d.wAcc) ecc, h.2)))
        match sib with
        | none => none
        | some none => some (hold s)
        | some (some (k, ecc, s)) =>
          let s := giveCollCredit c k (giveCollCredit c { sender } s)
          let lo := if a = pa then (data, tags) else (k.data, k.tags)
          let hi := if a = pa then (k.data, k.tags) else (data, tags)
          let rs := (lo.1.zip hi.1).map (fun e => (d.plus e.1.1 e.2.1, e.1.2 || e.2.2))
          let s := collCount 7 ((rs.map (·.1.2)).sum) s
          settle c shard blk fuel pa pb (rs.map (fun e => (e.1.1, e.2))) ((lo.2 ++ hi.2).eraseDups) none ecc s

/-! ### The start of data movement -/

/-- The blocks of a reduction that a member sends or adds by itself from its leaves (R352, R353). -/
def State.leafSends (s : State) (x : Ctx) : List CollSend :=
  let d := x.d
  let g := s.grp x
  let m := g.n * d.nleaf
  (List.range g.n).flatMap (fun j =>
    (List.range (blocksIn (s.shardAt x j).2 d.blkElems)).flatMap (fun blk =>
      (List.range d.nleaf).filterMap (fun k =>
        let i := g.rank * d.nleaf + k
        let e : CollSend := { shard := j, a := i, b := i + 1, blk }
        match parentOf m (j * d.nleaf) i (i + 1) with
        | none => some e
        | some (pa, pb, ph) =>
          if ph / d.nleaf != g.rank then some e
          else if i = pa && pb = i + 2 && (i + 1) / d.nleaf = g.rank then some e else none)))

/-- The blocks that a member sends or delivers when data may move (R336, R353, R357). -/
def State.startSends (s : State) (x : Ctx) : List CollSend :=
  let d := x.d
  let g := s.grp x
  let own (j : Nat) : List CollSend :=
    (List.range (blocksIn (s.shardAt x j).2 d.blkElems)).map (fun blk => { kind := 1, shard := j, a := g.rank, blk })
  match d.op with
  | 1 => own g.rank
  | 2 => s.leafSends x
  | 3 => s.leafSends x
  | 4 => if g.rank = d.root then own d.root else []
  | _ => (List.range g.n).flatMap (fun r =>
      (List.range (blocksIn (runTotal (s.sendRuns x r)) d.blkElems)).map (fun blk => { kind := 2, shard := g.rank, a := r, blk }))

/-- The blocks that other members will send: (rank, blocks) (R350, R353). -/
def State.startAwaits (s : State) (x : Ctx) : List (Nat × Nat) :=
  let d := x.d
  let g := s.grp x
  let m := g.n * d.nleaf
  let nb (j : Nat) := blocksIn (s.shardAt x j).2 d.blkElems
  let ups := if d.red then (List.range g.n).flatMap (fun j =>
      ((List.range d.nleaf).flatMap (fun k => childrenGo 64 0 m (j * d.nleaf) (g.rank * d.nleaf + k))).filterMap (fun h =>
        if h / d.nleaf = g.rank then none else some (h / d.nleaf, nb j))) else []
  let down (j : Nat) : List (Nat × Nat) :=
    (distParents g.n d.nleaf (j * d.nleaf) g.rank).map (fun r => (r, nb j))
  match d.op with
  | 2 => ups
  | 3 => ups ++ (List.range g.n).flatMap down
  | 1 => (List.range g.n).flatMap down
  | 4 => down d.root
  | _ => (List.range g.n).filterMap (fun r =>
      if r = g.rank then none else some (r, blocksIn (runTotal (s.recvRuns x r)) d.blkElems))

/-- A block comes from a member (R356, R357): it lands, or is added; one that another leaf of this member already had down the same tree
is dropped (R353). None: it has to wait. `ecc` names what SECDED finds in the store and in Reservoirs. -/
def takeBlock (c : Nat) (b : CollBlock) (ecc : List (Nat × EccHit)) (s : State) : Option State :=
  let x := s.ctx c
  let d := x.d
  let eb := d.sendBytes b.up (b.b - b.a = 1)
  let dup := !b.up && d.op < 5 && x.got.contains (b.shard, b.blk)
  let s := s.onCtx c (fun x => { x with
    lastRx := s.now
    poison := x.poison || b.data.any (·.2)
    got := if b.up || 5 ≤ d.op || dup then x.got else (b.shard, b.blk) :: x.got
    awaited := match takeFirst (fun e => e.1 == b.src && e.2 != 0) x.awaited with
      | some (e, r) => (e.1, e.2 - 1) :: r
      | none => x.awaited })
  let h := storeHits c eb ecc b.data s
  let rest := eccPast (b.data.length * eb) ecc
  if dup then some s
  else if b.up then
    settle c b.shard b.blk 64 b.a b.b
      (if b.b - b.a = 1 then h.1.map (fun e => (d.leaf e.1, e.2)) else h.1) b.tags (some b.src) rest h.2
  else if 5 ≤ d.op then landDirect c b.src (b.blk * d.blkElems) h.1 b.tags rest h.2
  else
    (landElems c (if d.op = 3 then 0 else b.shard) ((s.shardAt x b.shard).1 + b.blk * d.blkElems) eb h.1 b.tags rest h.2).map
      (holdDown c b.shard b.blk h.1 b.tags)

/-- Keep a block that has come and cannot be taken yet; it counts as received (R350, R356). -/
def keepEarly (c : Nat) (b : CollBlock) (s : State) : State :=
  s.onCtx c (fun x => { x with early := x.early ++ [b], lastRx := s.now })

/-- Keep one that waits for memory: taking it is among what the context has still to do (R357, R363). -/
def stageBlock (c : Nat) (b : CollBlock) (s : State) : State :=
  (keepEarly c b s).onCtx c (fun x => { x with toSend := x.toSend ++ [{ kind := 3 }] })

/-- Data may move (R346, R349): credits are granted for the free block buffers (R356), two for each level hosted, and the
blocks that came early are to be taken. -/
def startData (c : Nat) (s : State) : State :=
  let x := s.ctx c
  let d := x.d
  let g := s.grp x
  let s := s.onCtx c (fun x => { x with
    toSend := s.startSends x ++ x.early.map (fun _ => ({ kind := 3 } : CollSend)), awaited := s.startAwaits x })
  let peers := if d.red then
      (List.range d.nleaf).flatMap (fun k =>
        let i := g.rank * d.nleaf + k
        ((List.range g.n).flatMap (fun j => (childrenGo 64 0 (g.n * d.nleaf) (j * d.nleaf) i))).eraseDups.map (· / d.nleaf))
    else []
  (peers.filter (· != g.rank)).foldl (fun s r => msgRank x r 6 [] (msgRank x r 6 [] s)) s

/-- Every count of the exchange is held (R349). -/
def State.countsHeld (s : State) (x : Ctx) : Bool := (x.counts.filter (fun e => e.1 != (s.grp x).rank)).length + 1 = (s.grp x).n

/-- With LEARN, the destination holds what the counts name (R349). -/
def learnSizes (c : Nat) (s : State) : State :=
  let x := s.ctx c
  if !x.d.learn then s
  else
    let tot := collBytes x.d.fmt * runTotal x.counts
    let ps := s.ctxPieces x true
    s.onCtx c (fun x => { x with dst := (x.dst.zip ps).map (fun e => { e.1 with left := (meet 0 tot e.2.2.1 e.2.2.2.1).2 }) })

/-- Data starts to move once GO and, for ALL_TO_ALL_V and PERMUTE, every count is held (R346, R349). -/
def startIfReady (c : Nat) (s : State) : State :=
  let x := s.ctx c
  if x.d.op < 6 then startData c s
  else if s.countsHeld x then startData c (learnSizes c s) else s

/-- GO reaches a context (R346): it is forwarded, and the context enters RUNNING; the count exchange follows (R349). -/
def goCtx (c : Nat) (s : State) : State :=
  let x := s.ctx c
  let g := s.grp x
  let s := msgDown x 3 [] s
  let s := s.onCtx c (fun x => { x with st := .running, lastRx := s.now, retry := none })
  let s := if x.d.op < 6 then s
    else
      let s := (List.range g.n).foldl (fun s r =>
        if r = g.rank then s else msgRank x r 5 (leBytes 5 (runTotal (s.sendRuns x r))) s) s
      s.onCtx c (fun x => { x with counts := (g.rank, runTotal (s.sendRuns x g.rank)) :: x.counts })
  closeIfDone c (startIfReady c s)

/-- Rank 0 looks at the POSTs it holds (R346, R348). -/
def rankZero (c : Nat) (s : State) : State :=
  let x := s.ctx c
  let g := s.grp x
  let bad := x.posts.filter (fun p => p.2 != x.digest)
  match bad with
  | p :: ps =>
    let q := ps.foldl (fun m p => if p.1 < m.1 then p else m) p
    abortDown c { code := 3, rank := q.1, own := x.digest, other := q.2, missing := [] } s
  | [] => if x.posts.length = g.n then goCtx c s else s

/-- A member sends its POST; rank 0 takes the early ones (R346). -/
def sendPost (c : Nat) (s : State) : State :=
  let x := s.ctx c
  let g := s.grp x
  if g.rank = 0 then
    let mine (e : Nat × BitVec 32 × Nat × BitVec 64) : Bool := e.1 = x.d.group && e.2.1.toNat = x.d.seq
    let es := s.relay.early.filter mine
    let s := s.onRelay (fun q => { q with early := q.early.filter (fun e => !mine e) })
    rankZero c (s.onCtx c (fun x => { x with
      posts := (0, x.digest) :: (x.posts ++ es.map (fun e => (e.2.2.1, e.2.2.2))).filter (fun p => p.1 != 0) }))
  else msgRank x 0 1 (leBytes 8 x.digest.toNat) s

/-- A context launches (R344, R346). -/
def launchCtx (c : Nat) (s : State) : State :=
  withTables c { kind := .launch } (sendPost c)
    (collCount 1 1 (s.onCtx c (fun x => { x with st := .rendezvous, launchAt := s.now, lastRx := s.now })))

/-! ### Rows: posts and launches -/

/-- Refuse a post (R342, R365). -/
def refusePost (code : Nat) (s : State) : Reply := refuse (stColl code) (s.onRelay (fun q => { q with sRefused := true }))

/-- COLL_POST (R342, R343, R464). -/
def execCollPost (w : Win) (desc : List Byte) (s : State) : Out := s.live <|
  command w 0x42 [leNat desc] (fun _ s =>
    let x := s.newCtx desc (winJcw w)
    let d := x.d
    if s.sec.clearing then refuse stState (s.onRelay (fun q => { q with sRefused := true }))
    else if s.postRsv x then refusePost 10 s
    else if (s.relay.groups.get? d.group).isNone then refusePost 8 s
    else if (s.liveCtx d.group (w32 d.seq)).isSome then refusePost 9 s
    else match (List.range 128).find? (fun c => (s.ctx c).st == .free) with
      | none => refusePost 1 s
      | some c =>
        let e := s.postRange x
        if e != 0 then refusePost e s
        else if s.storeFree (c % 4) < x.store || (d.op = 7 && d.scratchBytes < s.overSource x) then refusePost 2 s
        else
          let s := collCount 0 1 ((s.onCtx c (fun _ => x)).onRelay (fun q => { q with nposts := q.nposts + 1 }))
          { st := stOk, res := pack [(4, c)], s := if d.launch = 0 then launchCtx c s else s }) s

/-- COLL_LAUNCH (R233, R344). -/
def execCollLaunch (e : Nat) (rivals : List Order) (s : State) : Out := s.live <|
  starterEvent e 0x05 rivals (fun v _ s =>
    let c := v.argA.toNat % 128
    let x := s.ctx c
    if x.st == .posted && x.d.launch = 1 then (2, launchCtx c s) else (3, s)) s

/-- FLAGS_LAUNCH (R344, R345, R363, R467): the first posted of the contexts whose flags are all raised. -/
def execFlagsLaunch (d : Nat) (s : State) : Out := s.live <|
  let m := s.relay.rdy.get d 0
  let cs := (List.range 128).filter (fun c =>
    let x := s.ctx c
    x.st == .posted && x.d.launch = 2 && x.d.rdyFlag = d && m &&& x.d.rdySet = x.d.rdySet)
  match cs with
  | [] => .next s
  | c :: r =>
    let c := r.foldl (fun a b => if (s.ctx b).posted < (s.ctx a).posted then b else a) c
    when (s.power.st != .retain && s.power.st != .idle)
      (launchCtx c (s.onRelay (fun q => { q with rdy := q.rdy.put d (m &&& ~~~(s.ctx c).d.rdySet) }))) s

/-- The context that the VERDICT action launches (R207, R344): the first posted. -/
def launchVerdict (s : State) : State :=
  match (List.range 128).filter (fun c => (s.ctx c).st == .posted && (s.ctx c).d.launch = 3) with
  | [] => s
  | c :: r => launchCtx (r.foldl (fun a b => if (s.ctx b).posted < (s.ctx a).posted then b else a) c) s

/-- COL_CTXc (R365). -/
def Ctx.word (x : Ctx) : Nat :=
  let st := match x.st with | .free => 0 | .posted => 1 | .rendezvous => 2 | .running => 3 | .closing => 4
  st + putField 3 x.status.toNat + putField 7 x.d.group + putField 19 x.d.launch + putField 21 (b2n x.jcw)

/-- COLL_STATUS (R396). -/
def execCollStatus (w : Win) (ctx : BitVec 32) (s : State) : Out := s.live <|
  command w 0x44 [ctx.toNat] (fun _ s =>
    if 128 ≤ ctx.toNat then refuse stRange s
    else { st := stOk, s, res := pack [(4, (s.ctx ctx.toNat).word), (4, (s.ctx ctx.toNat).d.seq)] }) s

/-- COLL_ABORT (R242, R363). -/
def execCollAbort (w : Win) (ctx seq : BitVec 32) (rivals : List Order) (s : State) : Out := s.live <|
  command w 0x43 [ctx.toNat, seq.toNat] (fun _ s =>
    let c := ctx.toNat
    let x := s.ctx c
    if 128 ≤ c then refuse stRange s
    else if x.st == .free || x.d.seq != seq.toNat || x.st == .closing then refuse stState s
    else if x.jcw != winJcw w then refuse stOwner s
    else if s.loses (winOrder w) rivals then refuse stSuperseded s
    else
      let res := pack [(4, x.word % 8)]
      if x.st == .posted then
        { st := stOk, res, s := s.onCtx c (fun x =>
            ({ status := 5, jcw := x.jcw, desc := x.desc, posted := x.posted } : Ctx)) }
      else
        let a : AbortMsg := { code := 5, rank := (s.grp x).rank, own := x.digest, other := x.digest, missing := [] }
        { st := stOk, res, s := withTables c { kind := .ask, msg := some a } (askAbort c a) s }) s

/-! ### Rows: the rendezvous -/

/-- A message for an ID without a live context is discarded and counted (R351). -/
def latePkt (s : State) : State := collCount 6 1 s

/-- POST (R346, R348). -/
def execPost (src : BitVec 14) (group : Nat) (seq : BitVec 32) (rank : Nat) (digest : BitVec 64) (s : State) : Out := s.live <|
  match s.liveCtx group seq with
  | some c =>
    let x := s.ctx c
    if x.st == .posted || x.st == .rendezvous then
      let s := s.onCtx c (fun x => { x with posts := x.posts.filter (fun p => p.1 != rank) ++ [(rank, digest)] })
      .next (if x.st == .rendezvous then withTables c { kind := .zero } (rankZero c) s else s)
    else .next s
  | none =>
    if 256 ≤ s.relay.early.length then .next (enqueueAt 1 (collMsg src group seq.toNat 2 0 []) s)
    else .next (s.onRelay (fun q => { q with early := q.early ++ [(group, seq, rank, digest)] }))

/-- RETRY (R346). -/
def execRetry (group : Nat) (seq : BitVec 32) (s : State) : Out := s.live <|
  match s.liveCtx group seq with
  | none => .next (latePkt s)
  | some c => when ((s.ctx c).st == .rendezvous) (s.onCtx c (fun x => { x with retry := some s.now })) s

/-- POST_RETRY_TIMER (R346). -/
def execPostRetryTimer (c : Nat) (s : State) : Out := s.live <|
  match (s.ctx c).retry with
  | none => .next s
  | some t =>
    let s := s.advanceTo (t.toNat + 10000)
    .next (msgRank (s.ctx c) 0 1 (leBytes 8 (s.ctx c).digest.toNat) (s.onCtx c (fun x => { x with retry := none })))

/-- GO (R346). -/
def execGo (group : Nat) (seq : BitVec 32) (s : State) : Out := s.live <|
  match s.liveCtx group seq with
  | none => .next (latePkt s)
  | some c => when ((s.ctx c).st == .rendezvous) (withTables c { kind := .go } (goCtx c) s) s

/-- An ABORT is forwarded, and recorded where the context has launched (R348, R350). -/
def takeAbort (c : Nat) (a : AbortMsg) (s : State) : State :=
  let x := s.ctx c
  if x.st == .closing then
    if (s.grp x).rank = 0 then s
    else
      let s := msgDown x 4 (abortBody a) s
      if a.code = 4 then writeMissing a.missing (s.onCtx c (fun x => { x with missing := a.missing })) else s
  else abortDown c a s

/-- ABORT (R348, R350). -/
def execAbort (group : Nat) (seq : BitVec 32) (a : AbortMsg) (s : State) : Out := s.live <|
  match s.liveCtx group seq with
  | none => .next (latePkt s)
  | some c => .next (withTables c { kind := .abort, msg := some a } (takeAbort c a) s)

/-- A count is learnt or compared, and data moves once every count is held (R349). -/
def takeCount (c rank count : Nat) (s : State) : State :=
  let x := s.ctx c
  let d := x.d
  let s := s.onCtx c (fun x => { x with counts := x.counts.filter (fun e => e.1 != rank) ++ [(rank, count)] })
  let want := if d.op = 7 then runTotal (s.recvRuns x rank)
    else ((s.devWords (d.recv + 4 * rank) 4 1).getD []).headD 0
  let go (s : State) := closeIfDone c (if x.st == .running then startIfReady c s else s)
  if d.learn then
    let w := devWrite none (d.recv + 4 * rank) (leBytes 4 count) [] [] s
    if w.1 != 0 then failCtx c 11 0 false none none w.2 else go w.2
  else if want != count then askAbort c { code := 3, rank, own := x.digest, other := x.digest, missing := [] } s
  else go s

/-- COLL_COUNT (R349). -/
def execCollCount (group : Nat) (seq : BitVec 32) (rank count : Nat) (s : State) : Out := s.live <|
  match s.liveCtx group seq with
  | none => .next (latePkt s)
  | some c =>
    let x := s.ctx c
    if (x.st != .rendezvous && x.st != .running) || x.d.op < 6 then .next s
    else .next (withTables c { kind := .count, rank, count } (takeCount c rank count)
      (s.onCtx c (fun x => { x with lastRx := s.now })))

/-- TIMEOUT of a context in Stride ns (R337, R350, R365). -/
def State.collTimeout (s : State) (x : Ctx) : Nat :=
  1000 * (if x.d.timeout = 0 then s.relay.timeout.toNat else x.d.timeout)

/-- COLL_TIMEOUT (R350); while memory the context's tables lie in cannot be accessed it waits (R363). -/
def execCollTimeout (c : Nat) (s : State) : Out := s.live <|
  let x := s.ctx c
  let g := s.grp x
  let low (m : List Nat) : Nat := m.headD 0
  match x.st with
  | .rendezvous =>
    let s := s.advanceTo (x.launchAt.toNat + s.collTimeout x)
    if s.tablesWait x then .next s
    else if g.rank = 0 then
      let m := (List.range g.n).filter (fun r => !x.posts.any (fun p => p.1 == r))
      .next (abortDown c { code := 4, rank := low m, own := x.digest, other := x.digest, missing := m } s)
    else
      let m := subtreeOf g.n x.d.nleaf g.rank
      .next (failCtx c 4 (low m) true none (some m) s)
  | .running =>
    let s := s.advanceTo (x.lastRx.toNat + s.collTimeout x)
    if s.tablesWait x then .next s else
    let m := if 6 ≤ x.d.op && !s.countsHeld x then
        (List.range g.n).filter (fun r => r != g.rank && !x.counts.any (fun e => e.1 == r))
      else (List.range g.n).filter (fun r => x.awaited.any (fun e => e.1 == r && e.2 != 0))
    .next (failCtx c 4 (low m) false none (some m) s)
  | _ => .next s

/-! ### Rows: data -/

/-- Answer the packets of a block with an operation, ACK or NACK, and an argument (R278, R294, R351, R357). -/
def answerBlock (op : BitVec 4) (arg : BitVec 32) (b : CollBlock) (s : State) : State :=
  b.pkts.foldl (fun s t => enqueue { cls := 1, op, dst := b.dev, tag := t, arg } s) s

/-- Acknowledge a block. -/
def ackBlock (b : CollBlock) (s : State) : State := answerBlock 5 0 b s

/-- COLL_DATA (R294, R351, R356, R357): a block that cannot be taken yet is kept; one that cannot be placed because its destination is
not mapped any more is answered with NACK, and fails the context (R361). -/
def execCollData (group : Nat) (seq : BitVec 32) (b : CollBlock) (ecc : List (Nat × EccHit)) (s : State) : Out := s.live <|
  match s.liveCtx group seq with
  | none => .next (ackBlock b (collCount 6 b.pkts.length s))
  | some c =>
    let x := s.ctx c
    let n := collPayload (x.d.sendBytes b.up (b.b - b.a = 1)) b.data.length b.tags.length
    let rx (s : State) := ackBlock b (collCount 5 n s)
    match x.st with
    | .rendezvous => .next (rx (keepEarly c b s))
    | .running =>
      if s.tablesWait x then .next (rx (stageBlock c b s))
      else if !s.tablesOk x then .next (answerBlock 6 1 b (failCtx c 11 0 false none none s))
      else if 6 ≤ x.d.op && !s.countsHeld x then .next (rx (keepEarly c b s))
      else match takeBlock c b ecc s with
        | none => .next (rx (stageBlock c b s))
        | some t => .next (if (t.ctx c).st == .running then closeIfDone c (rx t) else answerBlock 6 1 b t)
    | _ => .next (ackBlock b s)

/-- COLL_CREDIT (R356). -/
def execCollCredit (group : Nat) (seq : BitVec 32) (rank : Nat) (s : State) : Out := s.live <|
  match s.liveCtx group seq with
  | none => .next (latePkt s)
  | some c =>
    when ((s.ctx c).st == .rendezvous || (s.ctx c).st == .running)
      (s.onCtx c (fun x => { x with lastRx := s.now, credits := x.credits.upd rank 0 (· + 1) })) s

/-- Send or deliver the k-th block of a context's list (R353, R356, R357). None: it has to wait. -/
def sendOne (c : Nat) (e : CollSend) (ecc : List (Nat × EccHit)) (s : State) : Option State :=
  let x := s.ctx c
  let d := x.d
  let g := s.grp x
  let s0 := s.onCtx c (fun x => { x with toSend := x.toSend.erase e })
  match e.kind with
  | 0 =>
    let leaf := e.b - e.a = 1 && e.a / d.nleaf = g.rank
    match parentOf (g.n * d.nleaf) (e.shard * d.nleaf) e.a e.b with
    | some (_, _, ph) =>
      let r := ph / d.nleaf
      if r = g.rank then
        match readLeaf c e.shard e.blk e.a ecc s0 with
        | none => none
        | some (data, tags, s) => settle c e.shard e.blk 64 e.a e.b data tags none ecc s
      else if x.credits.get r 0 = 0 then none
      else
        let s1 := s0.onCtx c (fun x => { x with credits := x.credits.upd r 0 (· - 1) })
        if leaf then
          match readElems c (s.leafRun x e.shard e.blk (e.a % d.nleaf)) ecc s1 with
          | none => none
          | some (es, tags, s) =>
            let h := storeHits c (collBytes d.fmt) ecc es s
            some (if (h.2.ctx c).st == .running then sendBlock c r e h.1 tags h.2 else h.2)
        else match x.block? true e.shard e.a e.b e.blk with
          | none => some s0
          | some k =>
            let h := storeHits c d.wAcc ecc k.data (s1.onCtx c (fun x => x.dropBlock k))
            some (sendBlock c r e h.1 k.tags h.2)
    | none =>
      match readLeaf c e.shard e.blk e.a ecc s0 with
      | none => none
      | some (data, tags, s) => settle c e.shard e.blk 64 e.a e.b data tags none ecc s
  | 1 =>
    if e.a = g.rank then
      let sh := s.shardAt x e.shard
      let n := min d.blkElems (sh.2 - e.blk * d.blkElems)
      match readElems c [(e.blk * d.blkElems, n)] ecc s0 with
      | none => none
      | some (es, tags, s) =>
        if (s.ctx c).st != .running then some s
        else
          let h := storeHits c (collBytes d.fmt) ecc es (s.onCtx c (fun x => { x with got := (e.shard, e.blk) :: x.got }))
          (landElems c g.rank (sh.1 + e.blk * d.blkElems) (collBytes d.fmt) h.1 tags
            (eccPast (es.length * collBytes d.fmt) ecc) h.2).map (holdDown c e.shard e.blk h.1 tags)
    else match x.block? false e.shard 0 0 e.blk with
      | none => some s0
      | some k =>
        let h := storeHits c (d.sendBytes false false) ecc k.data s0
        let s := sendBlock c e.a e h.1 k.tags h.2
        some (if (s.ctx c).toSend.any (fun q => q.kind = 1 && q.shard = e.shard && q.blk = e.blk) then s
          else s.onCtx c (fun x => x.dropBlock k))
  | 2 =>
    match readElems c (runsSlice (s.sendRuns x e.a) (e.blk * d.blkElems) d.blkElems) ecc s0 with
    | none => none
    | some (es, tags, s) =>
      if (s.ctx c).st != .running then some s
      else
        let h := storeHits c (collBytes d.fmt) ecc es s
        if e.a = g.rank then
          landDirect c g.rank (e.blk * d.blkElems) h.1 tags (eccPast (es.length * collBytes d.fmt) ecc) h.2
        else some (sendBlock c e.a e h.1 tags h.2)
  | _ => match x.early with
    | [] => some s0
    | b :: r => takeBlock c b ecc (s0.onCtx c (fun x => { x with early := r }))

/-- What waited for memory is done, where it can be (R363). -/
def runAct (a : RelayAct) (s : State) : State :=
  let c := a.ctx
  let x := s.ctx c
  if a.kind == .missing then writeMissing a.ranks s
  else if x.st == .free || x.posted != a.posted then s
  else match a.kind, a.msg with
    | .launch, _ => withTables c a (sendPost c) s
    | .zero, _ => if x.st == .rendezvous then withTables c a (rankZero c) s else s
    | .go, _ => if x.st == .rendezvous then withTables c a (goCtx c) s else s
    | .count, _ => if x.st == .closing then s else withTables c a (takeCount c a.rank a.count) s
    | .abort, some m => withTables c a (takeAbort c m) s
    | .ask, some m => withTables c a (askAbort c m) s
    | .remote, _ => withTables c a (failCtx c 7 0 false none none) s
    | _, _ => s

/-- Everything that waited for memory, in order (R363). -/
def catchUp (s : State) : State := s.relay.acts.foldl (fun s a => runAct a s) (s.onRelay (fun q => { q with acts := [] }))

/-- COLL_BLOCK_SEND (R333, R356, R357, R363): what waited for memory is done, then the k-th block is sent, delivered at this member, or
taken. -/
def execCollBlockSend (c k : Nat) (ecc : List (Nat × EccHit)) (s : State) : Out := s.live <|
  let s := catchUp s
  let x := s.ctx c
  match x.toSend[k]? with
  | none => .next s
  | some e =>
    if x.st != .running || s.tablesWait x then .next s
    else if !s.tablesOk x then .next (failCtx c 11 0 false none none s)
    else .next (match sendOne c e ecc s with
      | none => s
      | some t => closeIfDone c (releaseHeld c t))

/-- The tag record of a destination piece (R359). A piece whose blocks carried no tag has none stated: a free value. -/
def tagRecord (p : Piece) (s : State) : Nat × State :=
  match p.tags with
  | [] => let d := s.draw; (d.1.toNat, d.2)
  | t :: ts =>
    let l := ts.foldl (fun m e => if e.1 < m.1 || (e.1 = m.1 && e.2.1 < m.2.1) then e else m) t
    (l.2.2.toNat + putField 31 (l.2.2.toNat % 2) + putField 32 l.1 + putField 63 (b2n (ts.any (fun e => e.2.2 != t.2.2))), s)

/-- PIECE_COMPLETE (R358, R359): a piece whose bytes have all been read or have landed. -/
def execPieceComplete (c : Nat) (dst : Bool) (i : Nat) (s : State) : Out := s.live <|
  let x := s.ctx c
  let pc := (if dst then x.dst else x.src).getD i { done := true }
  match (s.ctxPieces x dst).find? (fun e => e.2.2.2 == i) with
  | none => .next s
  | some (p, _, size, _) =>
    if x.st != .running || s.tablesWait x || pc.done || pc.left != 0 || (5 < x.d.op && !s.countsHeld x)
        || (p.kind = 2 && !dst && !pc.segs.all (fun g => (pc.served.get? g.1).isSome)) then .next s
    else
      let tagged := dst && p.kind = 1 && p.tag
      let r := if tagged then tagRecord pc s else (0, s)
      let w := if tagged then devWrite none (p.at size) (leBytes 8 r.1) [] [] r.2 else (0, r.2)
      let s := w.2
      let s := if dst && p.kind = 3 then
          takeResult ((chunks 4 ((List.range 64).map (fun o =>
            ((pc.wait.filterMap (fun q => if q.1 ≤ o then q.2.1[o - q.1]? else none)).headD 0)))).map (fun b => w32 (leNat b))) s
        else s
      let f (p : Piece) : Piece := { p with done := true }
      .next (if w.1 != 0 then failCtx c 11 0 false none none s
        else closeIfDone c (pieceRaise p (s.onCtx c (fun x =>
          if dst then { x with dst := listUpd x.dst i f } else { x with src := listUpd x.src i f }))))

/-- A COLL_DATA packet is answered (R294, R358, R361): a NACK fails the context. -/
def relayAnswer (c posted : Nat) (nack : Bool) (s : State) : State :=
  let x := s.ctx c
  if x.st == .free || x.posted != posted then s
  else
    let s := s.onCtx c (fun x => { x with unacked := x.unacked - 1 })
    freeIfDone c (if nack then withTables c { kind := .remote } (failCtx c 7 0 false none none) s else s)

/-! ### Gathers at a Sluice -/

/-- The source piece of context c that segment seg of stack k serves, not served yet. -/
def State.gatherPiece (s : State) (c k seg : Nat) : Option Nat :=
  let x := s.ctx c
  if x.st != .running then none
  else ((s.ctxPieces x false).find? (fun e =>
    e.1.kind = 2 && e.1.stack = k && (let p := x.src.getD e.2.2.2 {}
      p.segs.any (fun g => g.1 == seg) && (p.served.get? seg).isNone))).map (·.2.2.2)

/-- A segment is served to a gather. -/
def putServed (c i seg : Nat) (v : Served) (s : State) : State :=
  s.onCtx c (fun x => { x with
    src := listUpd x.src i (fun p => { p with served := p.served.put seg v })
    poison := x.poison || !v.bad.isEmpty })

/-- Serve the half of a tag of segment seg of stack k, n bytes (R194, R212); of one that has become UNMAPPED (R175), undefined bytes
(log 2). -/
def serveHalf (c i k seg n : Nat) (e : SegE) (tag : BitVec 31) (s : State) : State :=
  let a := arrAddr e.cc e.ccBytes (tag.toNat % 2) 0
  let bad := committedBad k a n seg 3 s
  let r := match s.hbmRead a n with
    | some (bs, _) => (bs, bad.2)
    | none => bad.2.drawBytes n
  putServed c i seg { bytes := r.1, bad := bad.1, tag } r.2

/-- What SECDED finds in the tag-store entry that a gather reads (R211, R477). An uncorrectable entry holds no known tag until
it is rebuilt (log 2). -/
def tagFault (k seg : Nat) (e : Option Bool) (s : State) : State :=
  match e with
  | none => s
  | some false => corrected 4 s
  | some true =>
    let d := s.draw
    (memUe 6 k seg 0 0 d.2).onSegTag k seg (fun t => { t with bad := true, pin := some (d.1.truncate 31) })

/-- Take or release a hold (R193, R212, R214). -/
def holdOp (k seg op : Nat) (want : BitVec 31) (s : State) : State :=
  let t := s.segTag k seg
  let bad (s : State) := latchCause 4 (s.onSluice k (fun x => { x with holdErr := true }))
  let from_ (v : Option (BitVec 64)) (s : State) := s.onSluice k (fun x => { x with
    inlet := x.inlet.map (fun b => if b.seg = seg then { b with heldFrom := v } else b) })
  match op with
  | 1 =>
    if t.hold = 255 then bad s
    else
      let s1 := s.onSegTag k seg (fun t => { t with hold := t.hold + 1, holdStep := if t.hold = 0 then want else t.holdStep })
      if t.hold = 0 then from_ (some s.now) s1 else s1
  | 2 =>
    if t.hold = 0 then bad s
    else
      let s1 := s.onSegTag k seg (fun t => { t with hold := t.hold - 1 })
      if t.hold = 1 then from_ none s1 else s1
  | _ => s

/-- GATHER_STALE (R213): recorded, and served from the found half. -/
def gatherStale (k seg : Nat) (want found : BitVec 31) (s : State) : State :=
  let s := s.onSluice k (fun x =>
    if x.stale then x
    else { x with stale := true, stale0 := BitVec.ofNat 18 seg, stale1 := want, stale2 := found })
  latchCause 5 (note 0x22 k [w32 seg, want.setWidth 32, found.setWidth 32] noDseq s)

/-- A gather of segment seg for piece i of context c is served, or waits (R210, R212, R213, R359): as many bytes as the segment held at
the post, of zeros where it is not valid now. In PENDING only a STATIC segment is
served (log 63). -/
def gather (k c i seg : Nat) (s : State) : State :=
  let x := s.ctx c
  let d := x.d
  let r := readSeg k seg s
  let e := r.1
  let s := r.2
  let q := s.sluice k
  let size := (((x.src.getD i {}).segs.find? (fun g => g.1 == seg)).map (fun g => g.2.1 * g.2.2)).getD 0
  let wait := s.onSluice k (fun q => { q with waiting := q.waiting ++ [(c, seg)] })
  let reads := arrAddr e.cc e.ccBytes ((s.served k seg).toNat % 2) 0
  let none_ := q.cur.smapCount.toNat ≤ seg || !e.valid || q.rejected.contains seg
  if s.commit.st == .pending && (none_ || !e.static) then wait
  else if none_ then
    putServed c i seg { bytes := List.replicate size 0, tag := s.commit.step } (segErr k seg s)
  else if s.hbmWaits reads size then wait
  else if e.static then serveHalf c i k seg size e (s.served k seg) s
  else
    let tag := s.served k seg
    let want : BitVec 31 := match d.expect with
      | 1 => BitVec.ofNat 31 d.stepArg
      | 2 => (s.segTag k seg).holdStep
      | _ => tag
    if tag = want then serveHalf c i k seg size e tag (holdOp k seg d.holdOp want s)
    else if tag.toNat < want.toNat && !s.commit.stalePolicy && s.now.toNat < x.launchAt.toNat + s.collTimeout x then wait
    else serveHalf c i k seg size e tag (gatherStale k seg want tag s)

/-- SLUICE_GATHER_SERVE (R211 to R214). -/
def execSluiceGatherServe (k : Nat) (q : Gather) (s : State) : Out := s.live <|
  match s.gatherPiece q.ctx k q.seg with
  | none => .next s
  | some i => .next (if (s.sluice k).waiting.contains (q.ctx, q.seg) then s else gather k q.ctx i q.seg (tagFault k q.seg q.tagErr s))

/-- GATHER_WAIT_RETRY (R212, R213): the j-th gather that waits at stack k. -/
def execGatherWaitRetry (k j : Nat) (s : State) : Out := s.live <|
  match takeAt (s.sluice k).waiting j with
  | none => .next s
  | some ((c, seg), rest) =>
    let s := s.onSluice k (fun q => { q with waiting := rest })
    match s.gatherPiece c k seg with
    | none => .next s
    | some i => .next (gather k c i seg s)

end Sys2Proof.Machine
end

