-- ==== Sys2Proof/Machine/Fabric.lean ====
section
/-! DEFINITION. The router (R279 to R310): the choice of outputs, deflection and the Spillway, injection and ejection, Batons, the
operations of packets, drain and swap, and the flow map. -/

namespace Sys2Proof.Machine

/-! ### Routing entries -/

/-- Routing entry of destination d in the active bank (R303). -/
def State.route (s : State) (d : Nat) : Nat := ((if s.router.bank then s.router.bank1 else s.router.bank0).get d 0).toNat
/-- ESC (R304). -/
def rtEsc (e : Nat) : Nat := field e 18 5
/-- ESC_UP -/
def rtEscUp (e : Nat) : Bool := bitOf e 23
/-- LOCAL -/
def rtLocal (e : Nat) : Bool := bitOf e 24
/-- VALID -/
def rtValid (e : Nat) : Bool := bitOf e 25

/-- The productive set of a class (R283). -/
def rtProductive (e cls : Nat) : List Nat :=
  if cls < 5 && bitOf e (26 + cls) then (if rtEsc e < 18 then [rtEsc e] else [])
  else (List.range 18).filter (bitOf e)

/-- Count n in FAB_CNTk (R313). -/
def fabCount (k n : Nat) (s : State) : State := s.onRouter (fun r => { r with cnt := listUpd r.cnt k (wrapAdd · n) })

/-- n packets are discarded in the router (R277, R278, R287, R290, R296, R478): bits are the FAB_STAT bits set beside
DISCARD. -/
def fabDiscard (index bits n : Nat) (s : State) : State :=
  let s := s.onRouter (fun r => { r with
    discard := true, escErr := r.escErr || bitOf bits 5, noRoute := r.noRoute || bitOf bits 6,
    overflow := r.overflow || bitOf bits 7, crcErr := r.crcErr || bitOf bits 8 })
  event 0x8A 4 index [w32 (bits + 16), w32 n] noDseq (fabCount 7 n s)

/-! ### Places -/

/-- Bytes of packets. -/
def bytesOf (ks : List Packet) : Nat := (ks.map (·.size)).sum

/-- The router may place packets on link l (R265, R281). -/
def State.linkOpen (s : State) (l : Nat) : Bool :=
  let x := s.link l
  x.st == .up && !x.nakOut && x.laneMapNext.isNone && x.disableAt.isNone && x.rx.active.all (fun p => x.rx.at p != .failed)

/-- The bounce place of link l has room for a packet (R279, R284). -/
def State.bounceRoom (s : State) (l n : Nat) : Bool := s.linkOpen l && bytesOf (s.link l).bounce + n ≤ 2088

/-- Load of a member: bytes in its transmit queue over its width (R268), as a fraction. -/
def State.load (s : State) (m : Nat) : Nat × Nat :=
  (bytesOf (s.link m).general + bytesOf (s.link m).bounce, Nat.max 1 (s.link m).tx.width)

/-- One load is below another. -/
def lighter (a b : Nat × Nat) : Bool := a.1 * b.2 < b.1 * a.2

/-- The least loaded of a list of choices, the first of equal ones (R268, R284): (Canal, link). -/
def State.lightest (s : State) (cs : List (Nat × Nat)) : Option (Nat × Nat) :=
  cs.foldl (fun best c => match best with
    | none => some c
    | some b => if lighter (s.load c.2) (s.load b.2) then some c else some b) none

/-- The member of Canal c that takes a packet of n bytes, links in `ex` apart (R268). -/
def State.canalPick (s : State) (ex : List Nat) (n c : Nat) : Option (Nat × Nat) :=
  s.lightest (((s.canalActive c).filter (fun m =>
    s.linkOpen m && !ex.contains m && bytesOf (s.link m).general + n ≤ 2088)).map (fun m => (c, m)))

/-- The Canal and member that take a packet among some Canals (R284). -/
def State.pickOf (s : State) (ex : List Nat) (n : Nat) (cs : List Nat) : Option (Nat × Nat) :=
  s.lightest (cs.filterMap (s.canalPick ex n))

/-- The I/O die that carries link l. -/
def dieOf (l : Nat) : Nat := if l < 4 then 0 else if l < 9 then 1 else if l < 13 then 2 else 3

/-- The ejection buffer of a die has room: it holds two packets (R279). -/
def State.ejectRoom (s : State) (die : Nat) : Bool := (s.router.eject.get die []).length < 2

/-! ### Batons at the destination -/

/-- The key of a stream: class and device. -/
def streamKey (cls : BitVec 3) (dev : BitVec 14) : Nat := cls.toNat * 16384 + dev.toNat

/-- The destination's counts of a packet's stream (R299). -/
def State.inStream (s : State) (k : Packet) : Stream4 := s.router.dstStreams.get (streamKey k.cls k.src) {}

/-- A Baton that may be delivered (R300). -/
def State.batonDue (s : State) (k : Packet) : Bool :=
  let t := s.inStream k
  k.epoch = t.expect && t.arrived.getD t.expect.toNat 0 = k.bcount.toNat

/-- What becomes of a packet for this device (R284, R301, R302). -/
inductive Ends where
  | eject
  | park
  | full
  | away
  deriving DecidableEq, Repr

/-- Where a packet for this device goes at an I/O die. -/
def State.endsAt (s : State) (die : Nat) (k : Packet) : Ends :=
  let ej : Ends := if s.ejectRoom die then .eject else .full
  if !k.baton then ej
  else if k.epoch != (s.inStream k).expect then .away
  else if s.batonDue k then ej
  else if s.router.granted.contains (k.cls.toNat, k.src.toNat) then .park
  else if s.router.park.length + s.router.granted.length < 64 then .park
  else .away

/-- A Baton of the current epoch that finds the park full joins the turn-away list (R302). -/
def noteAway (k : Packet) (s : State) : State :=
  let e := (k.cls.toNat, k.src.toNat)
  let s := fabCount 8 1 s
  if k.epoch = (s.inStream k).expect && !s.router.turnaway.contains e && s.router.turnaway.length < 16 then
    s.onRouter (fun r => { r with turnaway := r.turnaway ++ [e] })
  else s

/-- A packet leaves the router here: into the ejection buffer, or a Baton into the park. -/
def putEnd (die : Nat) (k : Packet) (e : Ends) (s : State) : State :=
  let st := (k.cls.toNat, k.src.toNat)
  let s := fabCount 1 1 s
  match e with
  | .park => s.onRouter (fun r => { r with
      park := r.park ++ [k], granted := r.granted.filter (· != st), turnaway := r.turnaway.filter (· != st) })
  | _ => s.onRouter (fun r => { r with eject := r.eject.upd die [] (· ++ [k]) })

/-! ### The Spillway -/

/-- The Spillway buffer of input l frees (R289, R291): its credit goes back unless it is reserved; in RETRAIN it waits in the
link-local queue. -/
def freeSpill (l : Nat) (s : State) : State :=
  let s := s.onLink l (fun x => { x with spill := none })
  let x := s.link l
  if x.spillMaxW.isNone && (x.st == .up || (x.st == .retrain && x.prev == .up)) then sendLocal l { cls := 5, op := 0xC } s else s

/-- The packet in the Spillway buffer of input l: it is ejected here, or checked against its escape entry (R290, R302). -/
def spillStep (l : Nat) (s : State) : State :=
  match (s.link l).spill with
  | none => s
  | some k =>
    let e := s.route k.dst.toNat
    if !rtValid e then fabDiscard 31 64 1 (freeSpill l s)
    else if rtLocal e then
      match s.endsAt (dieOf l) k with
      | .full => s
      | .away =>
        if s.bounceRoom l k.size then
          fabCount 4 1 ((noteAway k (freeSpill l (s.onLink l (fun x => { x with
            bounce := x.bounce ++ [{ k with spill := false, down := false, defl := 0 }] })))).onRouter
              (fun r => { r with winBounce := r.winBounce + 1 }))
        else s
      | d => putEnd (dieOf l) k d (freeSpill l s)
    else if (k.down && rtEscUp e) || 17 < rtEsc e then fabDiscard 31 32 1 (freeSpill l s)
    else s

/-- Every Spillway packet for this device goes ahead of the others (R290). -/
def spillSteps (s : State) : State := (List.range 18).foldl (fun s l => spillStep l s) s

/-! ### Transit -/

/-- The head of input l. -/
def State.headOf (s : State) (l : Nat) : Option (BitVec 64 × Packet) := (s.link l).input.head?

/-- Drop the head of input l. -/
def popInput (l : Nat) (s : State) : State := s.onLink l (fun x => { x with input := x.input.drop 1, lostTo := [] })

/-- A packet at input l is routed by R284: it is not in the Spillway, has an entry, and is not for R288. -/
def State.ordinary (s : State) (l : Nat) (k : Packet) : Bool :=
  let e := s.route k.dst.toNat
  !k.spill && rtValid e &&
  (if rtLocal e then (s.endsAt (dieOf l) k == .full || s.endsAt (dieOf l) k == .away) else k.defl != 12)

/-- Productive Canals of a packet at an input; none for one that is for this device. -/
def State.prodOf (s : State) (k : Packet) : List Nat :=
  let e := s.route k.dst.toNat
  if rtLocal e then [] else rtProductive e k.cls.toNat

/-- The general place that the head of input l chooses, those that it has lost apart (R284, R285): deflected, Canal and link. -/
def State.choice (s : State) (l : Nat) : Option (Bool × Nat × Nat) :=
  match s.headOf l with
  | none => none
  | some (_, k) =>
    if !s.ordinary l k then none
    else
      let ex := (s.link l).lostTo
      let ps := s.prodOf k
      match s.pickOf ex k.size ps with
      | some c => some (false, c)
      | none => (s.pickOf ex k.size ((List.range 18).filter (fun c => !ps.contains c))).map (true, ·)

/-- FAB_WGTc of a class (R312). -/
def State.weight (s : State) (c k : Nat) : Nat := field ((s.router.wgt.get c 0x1040204020).toNat) (8 * k) 8

/-- The candidate that wins a general place of Canal c (R285): candidates are (class, arrival, number). CTRL wins first; among
the others the weights decide, then the older arrival, then the lower number. Answers the number and the new cur values. -/
def State.contest (s : State) (c : Nat) (cs : List (Nat × Nat × Nat)) : Option Nat × Tbl Int :=
  let oldest (k : Nat) : Option Nat :=
    ((cs.filter (fun e => e.1 = k)).foldl (fun (b : Option (Nat × Nat × Nat)) e => match b with
      | none => some e
      | some a => if e.2.1 < a.2.1 || (e.2.1 = a.2.1 && e.2.2 < a.2.2) then some e else b) none).map (·.2.2)
  if cs.any (fun e => e.1 = 5) then (oldest 5, s.router.cur)
  else
    let ks := (List.range 5).filter (fun k => cs.any (fun e => e.1 = k))
    let cur := ks.foldl (fun (t : Tbl Int) k => t.upd (8 * c + k) 0 (· + (s.weight c k : Int))) s.router.cur
    let us := if ks.any (fun k => s.weight c k != 0) then ks.filter (fun k => s.weight c k != 0) else ks
    match us with
    | [] => (none, cur)
    | k :: r =>
      let w := r.foldl (fun b k => if cur.get (8 * c + b) 0 < cur.get (8 * c + k) 0 then k else b) k
      (oldest w, cur.upd (8 * c + w) 0 (· - (((ks.map (s.weight c)).sum : Nat) : Int)))

/-- The Canals that were productive for a packet and had no room count a deflection in the flow map (R309). -/
def noteDefl (k : Packet) (s : State) : State :=
  s.onRouter (fun r => { r with winDefl := (s.prodOf k).foldl (fun t c => t.upd c 0 (· + 1)) r.winDefl })

/-- The head of input l goes to the general place of link m (R284). -/
def forward (l m : Nat) (defl : Bool) (s : State) : State :=
  match s.headOf l with
  | none => s
  | some (_, k) =>
    let away := defl && rtLocal (s.route k.dst.toNat) && s.endsAt (dieOf l) k == .away
    let s := if defl then (if away then noteAway k (noteDefl k s) else noteDefl k s) else s
    let k := if defl && k.defl != 12 then { k with defl := k.defl + 1 } else k
    fabCount (if defl then 3 else 2) 1
      ((popInput l s).onLink m (fun x => { x with general := x.general ++ [k] }))

/-- The head of input l goes to its bounce place, where that has room (R284). -/
def bounceHead (l : Nat) (s : State) : State :=
  match s.headOf l with
  | none => s
  | some (_, k) =>
    if !s.bounceRoom l k.size then s
    else
      let s := if rtLocal (s.route k.dst.toNat) && s.endsAt (dieOf l) k == .away then noteAway k s else s
      let j := if k.defl = 12 then k else { k with defl := k.defl + 1 }
      let s := (popInput l (noteDefl k s)).onLink l (fun x => { x with bounce := x.bounce ++ [j] })
      fabCount 4 1 (fabCount 3 1 (s.onRouter (fun r => { r with winBounce := r.winBounce + 1 })))

/-- The inputs whose heads choose the general place of link m: (class, arrival, input). -/
def State.rivalsFor (s : State) (m : Nat) : List (Nat × Nat × Nat) :=
  (List.range 18).filterMap (fun j => match s.headOf j, s.choice j with
    | some (t, k), some (_, _, n) => if n = m then some (k.cls.toNat, t.toNat, j) else none
    | _, _ => none)

/-- Route the head of input l (R284, R285): the winner of each place it contends for is placed; each loser moves on to its next
choice. -/
def routeHead (l : Nat) : Nat → State → State
  | 0, s => bounceHead l s
  | fuel + 1, s =>
    match s.choice l with
    | none => bounceHead l s
    | some (_, c, m) =>
      let cs := s.rivalsFor m
      let r := s.contest c cs
      let j := r.1.getD l
      let s := s.onRouter (fun q => { q with cur := r.2 })
      let dj := match s.choice j with | some (b, _) => b | none => false
      let s := cs.foldl (fun s e =>
        if e.2.2 = j then s else s.onLink e.2.2 (fun x => { x with lostTo := m :: x.lostTo })) s
      let s := forward j m dj s
      if j = l then s else routeHead l fuel s

/-- A packet with 12 deflections that is not for this device (R288, R289): it enters the Spillway buffer of its input, or is
turned away through the bounce place. -/
def escalate (l : Nat) (k : Packet) (s : State) : State :=
  let x := s.link l
  let mayEnter := x.spill.isNone && (match x.spillMaxW with | none => true | some m => m.toNat ≤ k.escWait.toNat)
  if mayEnter then
    let s := (popInput l s).onLink l (fun x => { x with spill := some { k with spill := true }, spillMaxW := none })
    fabCount 5 1 (s.onRouter (fun r => { r with winEscal := r.winEscal + 1 }))
  else if s.bounceRoom l k.size then
    let w := satAdd k.escWait 1
    let s := (popInput l s).onLink l (fun x => { x with
      bounce := x.bounce ++ [{ k with escWait := w }]
      spillMaxW := if x.spill.isSome then some (match x.spillMaxW with | some m => if m < w then w else m | none => w)
        else x.spillMaxW })
    fabCount 4 1 (s.onRouter (fun r => { r with winBounce := r.winBounce + 1 }))
  else s

/-- ROUTE_PACKET (R283, R284, R287, R288, R290). -/
def execRoutePacket (l : Nat) (s : State) : Out := s.live <|
  let s := spillSteps s
  match s.headOf l with
  | none => .next s
  | some (_, k) =>
    let e := s.route k.dst.toNat
    if k.spill then
      .next (if (s.link l).spill.isNone then (popInput l s).onLink l (fun x => { x with spill := some k }) else s)
    else if !rtValid e then .next (fabDiscard 31 64 1 (popInput l s))
    else if rtLocal e then
      match s.endsAt (dieOf l) k with
      | .eject => .next (putEnd (dieOf l) k .eject (popInput l s))
      | .park => .next (putEnd (dieOf l) k .park (popInput l s))
      | _ => .next (routeHead l 18 s)
    else if k.defl = 12 then .next (escalate l k s)
    else .next (routeHead l 18 s)

/-- PACKET_RECEIVE (R277, R278, R279, R291, R296). A TIMING packet is a row of its own. -/
def execPacketReceive (l : Nat) (pk : Packet) (s : State) : Out := s.live <|
  let x := s.link l
  if x.st != .up then .next s
  else if !pk.legal then .next (fabDiscard l 0 1 s)
  else if pk.op = 0xB then .next s
  else if pk.op = 0xC then
    .next (if pk.crc = pk.goodCrc then s.onLink l (fun x => { x with spillCredit := true }) else fabDiscard 31 256 1 s)
  else if 4176 < bytesOf (x.input.map (·.2)) + pk.size then .next (fabDiscard l 128 1 s)
  else .next (s.onLink l (fun x => { x with input := x.input ++ [(s.now, pk)] }))

/-- SPILL_CREDIT (R291). -/
def execSpillCredit (l : Nat) (s : State) : Out := s.live <|
  when ((s.link l).st == .up) (s.onLink l (fun x => { x with spillCredit := true })) s

/-! ### Sending on a link -/

/-- The Spillway packet that link l may send in a Spillway turn: the input it waits in (R290, R291). -/
def State.spillFor (s : State) (l : Nat) : Option (Nat × Packet) :=
  if !(s.link l).spillCredit || !s.linkOpen l then none
  else ((List.range 18).filterMap (fun j => (s.link j).spill.map (fun k => (j, k)))).find? (fun c =>
    let e := s.route c.2.dst.toNat
    rtValid e && !rtLocal e && rtEsc e < 18 && !(c.2.down && rtEscUp e) && (s.canalActive (rtEsc e)).contains l)

/-- Link l starts a packet (R291); a timing message is timestamped as it starts (R226). -/
def startPacket (l : Nat) (k : Packet) (s : State) : State :=
  let t := s.clock.fine
  s.onLink l (fun x => { x with
    sending := some (k, k.size), turn := (x.turn + 1) % 16
    reqTx := if k.op = 0xB && !k.arg.getLsbD 24 then some t else x.reqTx
    ansTx := if k.op = 0xB && k.arg.getLsbD 24 then some t else x.ansTx })

/-- A Spillway packet starts on link l (R290, R291). -/
def startSpill (l j : Nat) (k : Packet) (s : State) : State :=
  let e := s.route k.dst.toNat
  let s := freeSpill j s
  let s := startPacket l { k with down := k.down || !rtEscUp e } s
  fabCount 6 1 (s.onLink l (fun x => { x with spillCredit := false }))

/-- Link l takes up its next packet (R278, R280, R291): a waiting Spillway packet in a Spillway turn, then the link-local queue,
the bounce place and the general place. -/
def nextPacket (l : Nat) (s : State) : State :=
  let x := s.link l
  match (if x.turn = 15 then s.spillFor l else none), x.localQ, x.bounce, x.general with
  | some (j, k), _, _, _ => startSpill l j k s
  | none, k :: r, _, _ => startPacket l k (s.setLink l { x with localQ := r })
  | none, [], k :: r, _ => if x.disableAt.isSome then s else startPacket l k (s.setLink l { x with bounce := r })
  | none, [], [], k :: r => if x.disableAt.isSome then s else startPacket l k (s.setLink l { x with general := r })
  | none, [], [], [] => s

/-- SPILLWAY_TURN (R291): at a packet boundary. -/
def execSpillwayTurn (l : Nat) (s : State) : Out := s.live <|
  let x := s.link l
  if x.st != .up || x.sending.isSome || x.turn != 15 then .next s
  else match s.spillFor l with
    | none => .next s
    | some (j, k) => .next (startSpill l j k s)

/-- What a flit's payload holds so far (R249): the packets that end in it, FIRST_PKT, its bytes and how many are left. -/
structure Packing where
  /-- packets that end in the flit -/
  ends : List Packet := []
  /-- FIRST_PKT -/
  first : BitVec 10 := 1023
  /-- bytes packed -/
  bytes : List Byte := []
  /-- bytes left -/
  left : Nat := 628
  deriving DecidableEq, Repr

/-- Pack packets back to back into what is left of a flit (R249, R270). -/
def packFlit (l : Nat) : Nat → Packing → State → Packing × State
  | 0, g, s => (g, s)
  | fuel + 1, g, s =>
    let new := (s.link l).sending.isNone
    let s := if new then nextPacket l s else s
    match (s.link l).sending with
    | none => (g, s)
    | some (k, b) =>
      let n := min b g.left
      let g := { g with
        first := if new && g.first = 1023 && g.left != 0 then BitVec.ofNat 10 (628 - g.left) else g.first
        bytes := g.bytes ++ (k.bytes.drop (k.size - b)).take n
        left := g.left - n }
      if b = n then
        packFlit l fuel { g with ends := g.ends ++ [k] } (packetBoundary l (s.onLink l (fun x => { x with sending := none })))
      else (g, s.onLink l (fun x => { x with sending := some (k, b - n) }))

/-- Put a flit on link l with its present ACK_SEQ and NAK (R249, R250). -/
def putFlit (l : Nat) (type : BitVec 2) (f : TxFlit) (replay : Bool) (s : State) : State :=
  s.onLink l (fun x =>
    let g : Flit := { type, seq := f.seq, ackSeq := x.rxSeq, nak := x.nakOut, firstPkt := f.firstPkt, replay, payload := f.payload }
    { x with txOut := some { g with crc := g.goodCrc } })

/-- TYPE of a flit kept for replay (R249). -/
def TxFlit.type (f : TxFlit) : BitVec 2 := if f.ctl then 1 else 0

/-- A new DATA or CONTROL flit is sent, and kept for replay (R251, R275). -/
def keepFlit (l : Nat) (f : TxFlit) (s : State) : State :=
  let f := { f with seq := (s.link l).txSeq }
  putFlit l f.type f false (s.onLink l (fun x => { x with
    replayBuf := x.replayBuf ++ [f], txSeq := x.txSeq + 1, cnt := listUpd x.cnt 3 (wrapAdd · 1) }))

/-- An IDLE flit is sent (R249, R250). -/
def idleFlit (l : Nat) (s : State) : State := putFlit l 2 {} false s

/-- A DATA flit is sent where there is a packet and no lane switch in progress, and else IDLE (R249, R250, R268). -/
def dataFlit (l : Nat) (s : State) : State :=
  let x := s.link l
  if x.st == .up && x.laneMapNext.isNone then
    let p := packFlit l 18 {} s
    if p.1.left = 628 then idleFlit l p.2
    else keepFlit l { ends := p.1.ends, firstPkt := p.1.first, payload := p.1.bytes } p.2
  else idleFlit l s

/-- A flit of the replay buffer is sent again (R251, R275). -/
def replayFlit (l i : Nat) (s : State) : State :=
  let x := s.link l
  let f := x.replayBuf.getD i {}
  putFlit l f.type f true (s.onLink l (fun x => { x with
    replayAt := if i + 1 < x.replayBuf.length then some (i + 1) else none, cnt := listUpd x.cnt 7 (wrapAdd · 1) }))

/-- FLIT_TRANSMIT (R249, R250, R251, R263, R268): a replayed flit, a CONTROL flit, a DATA flit, or IDLE. -/
def execFlitTransmit (l : Nat) (s : State) : Out := s.live <|
  let x := s.link l
  if !x.st.flits then .next s
  else
    let s := s.onLink l (fun x => { x with slotsSinceCtl := Nat.min 64 (x.slotsSinceCtl + 1) })
    match x.replayAt with
    | some i => .next (replayFlit l i s)
    | none =>
      if 204 ≤ x.replayBuf.length || x.resync then .next (idleFlit l s)
      else match x.ctlQ with
        | (kind, body) :: r =>
          if 63 ≤ x.slotsSinceCtl then
            .next (keepFlit l { ctl := true, payload := kind :: leBytes 32 body.toNat }
              (s.onLink l (fun x => { x with ctlQ := r, slotsSinceCtl := 0 })))
          else .next (dataFlit l s)
        | [] => .next (dataFlit l s)

/-! ### Injection -/

/-- The source's counts of a packet's stream (R297). -/
def State.outStream (s : State) (k : Packet) : Stream4 := s.router.srcStreams.get (streamKey k.cls k.dst) {}

/-- Classes whose streams may carry Batons (R299). -/
def counted (cls : BitVec 3) : Bool := 2 ≤ cls.toNat && cls.toNat ≤ 5

/-- A packet becomes a Baton: by its sender, or to end an epoch before its count would overflow (R297). -/
def State.asBaton (s : State) (k : Packet) : Packet :=
  if counted k.cls && (s.outStream k).sent = 2 ^ 24 - 1 then { k with baton := true } else k

/-- The first packet of an injection queue that no waiting Baton of its stream holds back (R298), and the rest. -/
def State.injGo (s : State) : List Packet → List Packet → Option (Packet × List Packet)
  | _, [] => none
  | held, k :: r =>
    let k' := s.asBaton k
    if held.any (fun h => h.dst = k.dst) || (k'.baton && 3 ≤ (s.outStream k).undelivered) then
      match s.injGo (k :: held) r with
      | some (j, q) => some (j, k :: q)
      | none => none
    else some (k', r)

/-- The packet that a unit's queue of class cls would inject, where a drain does not stop it (R305). -/
def State.injHead (s : State) (cls unit : Nat) : Option (Packet × List Packet) :=
  if s.router.injStopped && cls != 1 && cls != 5 then none else s.injGo [] (s.router.injQ.get (injKey cls unit) [])

/-- The place a packet is injected into (R286, R287): a productive Canal that no transit packet wants. -/
def State.injPick (s : State) (k : Packet) : Option (Nat × Nat) :=
  let e := s.route k.dst.toNat
  let wanted := (List.range 18).filterMap (fun l => (s.choice l).map (·.2.1))
  if rtValid e && !rtLocal e then
    s.pickOf [] k.size ((rtProductive e k.cls.toNat).filter (fun c => !wanted.contains c))
  else none

/-- The header of an injected packet takes its stream's counts and its CRC (R277, R297). -/
def State.stamp (s : State) (k : Packet) : Packet × State :=
  let t := s.outStream k
  let k := { k with epoch := BitVec.ofNat 2 t.batons, bcount := if k.baton then BitVec.ofNat 24 t.sent else 0 }
  let t := if k.baton then { t with sent := 0, batons := t.batons + 1, undelivered := t.undelivered + 1 }
    else { t with sent := t.sent + 1 }
  ({ k with crc := k.goodCrc }, if counted k.cls then
      s.onRouter (fun r => { r with srcStreams := r.srcStreams.put (streamKey k.cls k.dst) t })
    else s)

/-- A packet is injected (R286, R306, R313). -/
def inject (key : Nat) (k : Packet) (rest : List Packet) (put : Packet → State → State) (s : State) : State :=
  let q := (s.onRouter (fun r => { r with
    injQ := r.injQ.put key rest, injWaits := r.injWaits.filter (· != key), out := if k.answered then r.out + 1 else r.out })).stamp k
  fabCount 0 1 (put q.1 q.2)

/-- The request that an answer with a TAG ends, and the others. -/
def State.reqOf (s : State) (t : BitVec 16) : Option (Req × List Req) := takeFirst (fun q => q.tag == t) s.router.reqs

/-- An answer to a request (R156, R294, R361): an ACK, or a refusal, which fails a transfer with REMOTE. -/
def takeAnswer (t : BitVec 16) (refused : Bool) (s : State) : State :=
  match s.reqOf t with
  | none => s
  | some (q, r) =>
    let s := s.onRouter (fun x => { x with reqs := r })
    if q.relay then relayAnswer q.owner q.item refused s else dmaAck q.owner q.item q.bytes (if refused then 5 else 0) s

/-- A packet whose destination has no valid entry is not injected (R287): its unit's transfer fails with REMOTE. -/
def noRoute (key : Nat) (k : Packet) (rest : List Packet) (s : State) : State :=
  let s := s.onRouter (fun r => { r with
    injQ := r.injQ.put key rest, injWaits := r.injWaits.filter (· != key), noRoute := true })
  if k.answered then takeAnswer k.tag true s else s

/-- The head of an injection queue waits for an output (R286): the core cycles until it goes count as INJ_WAIT. -/
def injWait (key : Nat) (s : State) : State :=
  s.onRouter (fun r => { r with injWaits := if r.injWaits.contains key then r.injWaits else key :: r.injWaits })

/-- The heads of the injection queues that want the general place of link m: (class, queue). -/
def State.injRivals (s : State) (m : Nat) : List (Nat × Nat) :=
  s.router.injQ.filterMap (fun q => match s.injHead (q.1 % 8) (q.1 / 8) with
    | some (g, _) => if (s.injPick g).map (·.2) = some m then some (q.1 % 8, q.1) else none
    | none => none)

/-- PACKET_INJECT (R286, R287, R290, R298, R305): the heads that want one place take turns by its Canal's weights; a packet for this
device goes behind the Spillway's. -/
def execPacketInject (cls unit : Nat) (s : State) : Out := s.live <|
  let key := injKey cls unit
  match s.injHead cls unit with
  | none => .next s
  | some (k, rest) =>
    let e := s.route k.dst.toNat
    if !rtValid e then .next (noRoute key k rest s)
    else if rtLocal e then
      let s := spillSteps s
      match s.endsAt 0 (s.stamp k).1 with
      | .eject => .next (inject key k rest (fun k => putEnd 0 k .eject) s)
      | .park => .next (inject key k rest (fun k => putEnd 0 k .park) s)
      | _ => .next (injWait key s)
    else match s.injPick k with
      | none => .next (injWait key s)
      | some (c, m) =>
        let cs := s.injRivals m
        let r := s.contest c (cs.map (fun e => (e.1, 0, e.2)))
        let w := r.1.getD key
        let s := cs.foldl (fun s e => if e.2 = w then s else injWait e.2 s) (s.onRouter (fun q => { q with cur := r.2 }))
        match s.injHead (w % 8) (w / 8) with
        | none => .next s
        | some (k, rest) =>
          .next (inject w k rest (fun k s => s.onLink m (fun x => { x with general := x.general ++ [k] })) s)

/-! ### Ejection and Batons -/

/-- A packet is delivered (R299, R300): packets of COLL go to the Relay, whose commands carry what they say; the others wait to
be served. -/
def deliver (k : Packet) (s : State) : State :=
  let key := streamKey k.cls k.src
  let t := s.router.dstStreams.get key {}
  let put (t : Stream4) (s : State) : State := s.onRouter (fun r => { r with dstStreams := r.dstStreams.put key t })
  let s :=
    if !counted k.cls then s
    else if k.baton then
      enqueue { cls := 5, op := 0xA, dst := k.src, arg := w32 k.cls.toNat }
        (put { t with arrived := t.arrived.set t.expect.toNat 0, expect := t.expect + 1 } s)
    else put { t with arrived := listUpd t.arrived k.epoch.toNat (· + 1) } s
  if k.cls = 3 then s else s.onRouter (fun r => { r with deliv := r.deliv ++ [k] })

/-- Deliver a packet whose CRC holds; one that fails is discarded (R277). -/
def deliverChecked (k : Packet) (s : State) : State := if k.crc = k.goodCrc then deliver k s else fabDiscard 31 256 1 s

/-- EJECTION (R277, R279, R299). -/
def execEjection (die : Nat) (s : State) : Out := s.live <|
  match s.router.eject.get die [] with
  | [] => .next s
  | k :: r => .next (deliverChecked k (s.onRouter (fun q => { q with eject := q.eject.put die r })))

/-- A park entry that frees is reserved for the oldest stream of the turn-away list (R302). -/
def grantPark (s : State) : State :=
  match s.router.turnaway with
  | [] => s
  | e :: r => s.onRouter (fun q => { q with turnaway := r, granted := q.granted ++ [e] })

/-- BATON_PARK_DELIVER (R300, R301). -/
def execBatonParkDeliver (cls src : Nat) (s : State) : Out := s.live <|
  match takeFirst (fun k => k.cls.toNat == cls && k.src.toNat == src && s.batonDue k) s.router.park with
  | none => .next s
  | some (k, r) => .next (deliverChecked k (grantPark (s.onRouter (fun q => { q with park := r }))))

/-! ### What packets do here -/

/-- Serve the oldest delivered packet of an operation, where it can be served now. -/
def serveOp (op : Nat) (ready : Packet → State → Bool) (act : Packet → State → State) (s : State) : Out :=
  match takeFirst (fun k => k.op.toNat == op) s.router.deliv with
  | none => .next s
  | some (k, r) => when (ready k s) (act k (s.onRouter (fun q => { q with deliv := r }))) s

/-- Answer a write-type packet (R294). -/
def answerWrite (k : Packet) (code : Nat) (s : State) : State := if code = 0 then sendAck k s else sendNack k code s

/-- The Plot whose Reservoir window an address of another device names (R145, R154); the own window names none (DESIGN CHOICE,
log 13). -/
def State.farPlot (s : State) (a : Nat) : Option Nat := (s.rsvPlot none (spaceOf a)).map (·.1)

/-- WRITE (R135, R155, R156, R278, R294): DST_RAISE is made with the last packet of a transfer. `ecc` names what SECDED finds in the
words written in part. -/
def execWrite (ecc : List (Nat × EccHit)) (s : State) : Out := s.live <|
  serveOp 0 (fun k s => !s.memWaits k.addr.toNat k.payload.length) (fun k s =>
    let r := devWrite none k.addr.toNat k.payload [] ecc s
    let s := answerWrite k r.1 r.2
    if k.arg.getLsbD 8 && k.arg.getLsbD 7 then
      match s.farPlot k.addr.toNat with
      | some p => raiseLocal p (k.arg.toNat % 64) s
      | none => s
    else s) s

/-- An APPEND packet (R154, R278; ARG as log 13 says). -/
def appendPacket (slot : Bool) (ecc : List (Nat × EccHit)) (k : Packet) (s : State) : State :=
  let a := k.arg.toNat
  let n := a % 4
  let rows := if slot then 1 else field a 9 12
  let rowB := if slot then field a 9 22 * 128 else field a 21 10 * 128
  let rows := if rowB = 0 then 0 else rows
  match s.farPlot k.addr.toNat with
  | none => sendNack k 2 s
  | some p =>
    let tag := remoteTag k.src k.tag
    let r := if k.payload.isEmpty then (if (s.plot p).lostAppends.contains tag then 4 else 0, s)
      else appendBytes p n slot rows rowB tag (k.addr.toNat % rsvBytes) k.payload [] (hitsOf p ecc) s
    let s := answerWrite k r.1 r.2
    if bitOf a 8 then
      let s := appendClose p n tag s
      if bitOf a 31 then raiseLocal p (field a 2 6) s else s
    else s

/-- APPEND_ROW (R154, R278). -/
def execAppendRow (ecc : List (Nat × EccHit)) (s : State) : Out := s.live <| serveOp 1 (fun _ _ => true) (appendPacket false ecc) s

/-- APPEND_SLOT (R154, R278). -/
def execAppendSlot (ecc : List (Nat × EccHit)) (s : State) : Out := s.live <| serveOp 2 (fun _ _ => true) (appendPacket true ecc) s

/-- READ (R137, R278, R294): poisoned words are sent as zeros, as a packet carries no marks (R138). -/
def execRead (ecc : List (Nat × EccHit)) (s : State) : Out := s.live <|
  serveOp 3 (fun k s => !s.memWaits k.addr.toNat (k.arg.toNat % 4096 + 1)) (fun k s =>
    let n := k.arg.toNat % 4096 + 1
    let a := k.addr.toNat
    if 2048 < n then sendNack k 2 s
    else
      let r := devRead none a n ecc s
      if r.1.err != 0 then sendNack k r.1.err r.2
      else enqueue { cls := 1, op := 4, dst := k.src, tag := k.tag, payload := zeroBad a r.1.bytes r.1.bad } r.2) s

/-- An answer returns (R306). -/
def answered (s : State) : State := s.onRouter (fun r => { r with out := r.out - 1 })

/-- READ_DATA (R278, R294, R306): it lands in its requester's reply space. -/
def execReadData (s : State) : Out := s.live <|
  serveOp 4 (fun _ _ => true) (fun k s =>
    let s := answered s
    match s.reqOf k.tag with
    | none => s
    | some (_, r) => s.onRouter (fun q => { q with reqs := r, reply := q.reply ++ [(k.tag, k.payload)] })) s

/-- ACK (R278, R294, R306). -/
def execAck (s : State) : Out := s.live <| serveOp 5 (fun _ _ => true) (fun k s => takeAnswer k.tag false (answered s)) s

/-- NACK (R156, R278, R294, R306): whatever code it carries, the request was refused (log 13). -/
def execNack (s : State) : Out := s.live <|
  serveOp 6 (fun _ _ => true) (fun k s => takeAnswer k.tag true (answered s)) s

/-- CREDIT (R114, R278). -/
def execCredit (s : State) : Out := s.live <|
  serveOp 9 (fun _ _ => true) (fun k s => giveCredit (k.arg.toNat % 256) (k.arg.toNat / 256 % 4) s) s

/-- BATON_DONE (R298). -/
def execBatonDone (s : State) : Out := s.live <|
  serveOp 0xA (fun _ _ => true) (fun k s =>
    let key := streamKey (k.arg.setWidth 3) k.src
    let t := s.router.srcStreams.get key {}
    s.onRouter (fun r => { r with
      srcStreams := r.srcStreams.put key { t with undelivered := t.undelivered - 1 } })) s

/-! ### Routing banks, drain and swap -/

/-- A routing entry carries a reserved encoding: an ESC of 18 to 30 (R304). -/
def rtReserved (v : Nat) : Bool := 17 < field v 18 5 && field v 18 5 != 31

/-- Write entry d of the shadow bank (R9, R303, R304): a value with a reserved encoding is ignored, and reserved bit 31 is kept 0. -/
def writeShadow (d : Nat) (v : BitVec 32) (s : State) : State :=
  let v := v &&& 0x7FFFFFFF
  if rtReserved v.toNat then s
  else s.onRouter (fun r => if r.bank then { r with bank0 := r.bank0.put d v } else { r with bank1 := r.bank1.put d v })

/-- ROUTE_LOAD (R137, R303, R396, R424). -/
def execRouteLoad (w : Win) (addr : BitVec 64) (first count : BitVec 32) (ecc : List (Nat × EccHit)) (s : State) : Out := s.live <|
  command w 0x64 [addr.toNat, first.toNat, count.toNat] (fun _ s =>
    let a := addr.toNat
    let n := count.toNat
    if n = 0 || 16384 < first.toNat + n || a % 4 != 0 || 2 ^ 48 < a + 4 * n then refuse stRange s
    else
      let g := devRead none a (4 * n) ecc s
      if g.1.err != 0 then refuse stRange s
      else if s.cfgSeal.st != .open then refuse stState s
      else done (((chunks 4 g.1.bytes).zipIdx).foldl (fun s e => writeShadow (first.toNat + e.2) (w32 (leNat e.1)) s) g.2)) s

/-- The router holds no packet, and no answer is outstanding (R305). -/
def State.drainedNow (s : State) : Bool :=
  s.router.out = 0 && s.router.eject.all (fun e => e.2.isEmpty) &&
  (List.range 18).all (fun l =>
    let x := s.link l
    x.input.isEmpty && x.spill.isNone && x.general.isEmpty && x.bounce.isEmpty && x.replayBuf.isEmpty && x.sending.isNone)

/-- Injection resumes (R305). -/
def endDrainMode (s : State) : State := s.onRouter (fun r => { r with injStopped := false, drained := false })

/-- The banks swap (R305). -/
def swapBanks (s : State) : State := s.onRouter (fun r => { r with bank := !r.bank, swapAt := none })

/-- A swap that was waited for takes place (R307): n packets were discarded. A DRAIN_END that waits is carried out. -/
def lateSwap (ts : BitVec 64) (e n : Nat) (s : State) : State :=
  let s := (swapBanks s).onRouter (fun r => { r with swapLate := true })
  let s := starterEnd e 2 true s
  let s := event 0x50 (if n = 0 then 0 else 4) 0 [w32 (s.now.toNat - ts.toNat), w32 n] noDseq s
  match s.router.endPending with
  | none => s
  | some f => starterEnd f 2 ((s.ev f).time.toNat < s.now.toNat) (endDrainMode (s.onRouter (fun r => { r with endPending := none })))

/-- DRAIN_BEGIN (R305, R308). -/
def execDrainBegin (e : Nat) (rivals : List Order) (s : State) : Out := s.live <|
  starterEvent e 0x0C rivals (fun _ _ s => (2, s.onRouter (fun r => { r with injStopped := true }))) s

/-- ROUTE_SWAP (R305, R307, R308). -/
def execRouteSwap (e : Nat) (rivals : List Order) (s : State) : Out := s.live <|
  if s.router.swapAt.any (fun t => t.2 == e) then .next s
  else starterEvent e 0x0E rivals (fun v _ s =>
    if !s.router.injStopped then (3, s)
    else if s.router.drained then (2, swapBanks s)
    else (1, s.onRouter (fun r => { r with swapAt := some (v.time, e) }))) s

/-- DRAIN_END (R305, R307, R308). -/
def execDrainEnd (e : Nat) (rivals : List Order) (s : State) : Out := s.live <|
  if s.router.endPending == some e then .next s
  else starterEvent e 0x0D rivals (fun _ _ s =>
    if s.router.swapAt.isSome then (1, s.onRouter (fun r => { r with endPending := some e }))
    else if s.router.drained then (2, endDrainMode s)
    else (2, s)) s

/-- DEVICE_DRAINED (R305, R307). -/
def execDeviceDrained (s : State) : Out := s.live <|
  if !s.router.injStopped || s.router.drained || !s.drainedNow then .next s
  else
    let s := s.onRouter (fun r => { r with drained := true })
    match s.router.swapAt with
    | none => .next s
    | some (t, e) => .next (lateSwap t e 0 s)

/-- Every packet the router holds (R307): those being sent and the parked Batons among them. -/
def State.heldPackets (s : State) : Nat :=
  (s.router.eject.map (fun e => e.2.length)).sum + s.router.park.length +
  ((List.range 18).map (fun l =>
    let x := s.link l
    x.input.length + x.general.length + x.bounce.length + (if x.spill.isSome then 1 else 0) + (if x.sending.isSome then 1 else 0))).sum

/-- SWAP_DEADLINE (R307): 1 ms after T_s. -/
def execSwapDeadline (s : State) : Out := s.live <|
  match s.router.swapAt with
  | none => .next s
  | some (t, e) =>
    let s := s.advanceTo (t.toNat + 1000000)
    let n := s.heldPackets
    let s := (List.range 18).foldl (fun s l => s.onLink l (fun x => { x with
      input := [], lostTo := [], general := [], bounce := [], spill := none, sending := none })) s
    let s := fabCount 7 n (s.onRouter (fun r => { r with
      eject := [], park := [], granted := [], out := 0, drained := true, discard := r.discard || n != 0 }))
    let s := if n = 0 then stepFatal s else s
    .next (lateSwap t e n s)

/-! ### Flow map -/

/-- A count that holds at 65,535 (R310). -/
def hold16 (n : Nat) : Nat := Nat.min n 65535

/-- The flow-map record of the window (R310). -/
def State.flowRecord (s : State) : List Byte :=
  let r := s.router
  leBytes 8 r.winStart.toNat ++ leBytes 2 r.id.toNat ++ leBytes 2 (hold16 r.winEscal) ++ leBytes 2 (hold16 r.winBounce)
    ++ leBytes 2 (hold16 (r.winInjWait / 16)) ++ (List.range 18).flatMap (fun c => leBytes 2 (hold16 (r.winDefl.get c 0)))
    ++ List.replicate 12 0

/-- FLOW_MAP_WINDOW_END (R309, R310, R312). -/
def execFlowMapWindowEnd (s : State) : Out := s.live <|
  let s := s.advanceTo (s.router.winStart.toNat + 1000)
  let r := s.router
  let wr := r.fmapEn && r.fmapDepth != 0 &&
    (r.fmapThresh = 0 || (List.range 18).any (fun c => r.fmapThresh.toNat ≤ r.winDefl.get c 0))
  let s := if wr then
      (devWrite none (r.fmapBase.toNat + 64 * r.fmapPtr.toNat) s.flowRecord [] [] s).2.onRouter (fun r => { r with
        fmapPtr := if r.fmapPtr.toNat + 1 < r.fmapDepth.toNat then r.fmapPtr + 1 else 0 })
    else s
  .next (s.onRouter (fun r => { r with
    winDefl := [], winEscal := 0, winBounce := 0, winInjWait := 0,
    winStart := BitVec.ofNat 64 (s.now.toNat / 1000 * 1000) }))

end Sys2Proof.Machine
end

