-- ==== Sys2Proof/Machine/Spares.lean ====
section
/-! DEFINITION. Plot resets (R11, R41, R507), spare Plots and repair fuses (R481 to R485), the Health Marshal's own repairs
(R480) and the summary of corrections (R476). -/

namespace Sys2Proof.Machine

/-! ### Plot reset -/

/-- A Furrow after a Plot reset (R11, R41): its RWS map and spares stay. -/
def Furrow.cleared (fu : Furrow) : Furrow := { map := fu.map, spares := fu.spares }

/-- The tags of the reservations of a Plot's inboxes that a reset removes (R507). -/
def Pacer.resvTags (q : Pacer) : List Nat := q.inboxes.flatMap (fun b => b.resv.map (·.tag))

/-- A Plot after a Plot reset (R11, R507): step memory, both tables, the Reservoir and the RWS registers stay. The model keeps
counting its issue numbers, so that what its old transfers still have in flight is told apart. -/
def Plot.cleared (x : Plot) : Plot :=
  { furrows := x.furrows.map Furrow.cleared
    pacer := { seq := x.pacer.seq }
    stepMem := x.stepMem
    vtab := x.vtab
    dtab := x.dtab
    resv := x.resv
    resvPoison := x.resvPoison
    repEnts := x.repEnts
    lostAppends := x.lostAppends ++ x.pacer.resvTags
    residueCnt := x.residueCnt }

/-- A Plot reset of physical Plot p (R11, R40, R139): it stops the Pacer, so spare mappings that wait come into force. A word
staged in the Plot's space is discarded (R412). -/
def resetPlot (p : Nat) (ecc : List EccHit) (s : State) : State :=
  let s := (applySpares p ecc s).onPlot p Plot.cleared
  { s with host := { s.host with stage := s.host.stage.del (16 + p) } }

/-- PLOT_RESET (R11, R396). -/
def execPlotReset (w : Win) (pset : BitVec 256) (ecc : List (Nat × EccHit)) (s : State) : Out := s.live <|
  command w 0x12 [pset.toNat] (fun _ s =>
    if s.psetBad pset then refuse stRange s
    else if s.power.st == .retain then refuse stState s
    else done ((psetList pset).foldl (fun s l => match s.phys? l with | some p => resetPlot p (hitsOf p ecc) s | none => s) s)) s

/-! ### Repair fuses -/

/-- KIND 1: a retired Plot (R485). -/
def fuseRetired (p : Nat) : Nat := 1 + 16 * p
/-- KIND 2: a column (R485). -/
def fuseColumn (p f col : Nat) : Nat := 2 + 16 * p + putField 13 f + putField 15 col
/-- KIND 3: a Basin row (R485). -/
def fuseBasin (p f e row : Nat) : Nat := 3 + 16 * p + putField 13 f + putField 15 e + putField 17 row
/-- KIND 4: a Reservoir row; sel is BANK, SUB and SPARE as PLT_RSVREPSEL packs them (R157, R485). -/
def fuseRsv (p sel row : Nat) : Nat := 4 + 16 * p + putField 13 sel + putField 23 row
/-- KIND 5: a Sluice pipe (R485). -/
def fusePipe (k pipe : Nat) : Nat := 5 + 16 * k + putField 13 pipe

/-- The bits of a fuse word that say what it repairs; the others say how (R485). -/
def fuseKeyBits (v : Nat) : Nat :=
  match v % 16 with
  | 2 => 15
  | 3 => 17
  | 4 => 23
  | 5 => 13
  | _ => 32

/-- Two fuse words repair the same thing. -/
def sameFuse (a b : Nat) : Bool := a % 16 == b % 16 && a % 2 ^ fuseKeyBits a == b % 2 ^ fuseKeyBits a

/-- The rows of the valid entries of a spare table. -/
def validRows {n : Nat} (t : Tbl (BitVec n × Bool)) : Tbl (BitVec n) := (t.filter (fun e => e.2.2)).map (fun e => (e.1, e.2.1))

/-- The Basin spare entries of a Furrow as last written (R50): the valid ones with their rows. -/
def Furrow.writtenSpares (fu : Furrow) : Tbl (BitVec 10) :=
  validRows (fu.sparesNext.foldl (fun t e => t.put e.1 e.2) fu.spares)

/-- The Reservoir spare entries of a Plot as last written (R157): the valid ones with their rows. -/
def Plot.writtenReps (x : Plot) : Tbl (BitVec 9) :=
  validRows (x.repNext.foldl (fun t e => t.put e.1 e.2) x.repEnts)

/-- SLC_PIPEMAP's FAILED and SPARE_EN as last written (R218). -/
def Sluice.writtenPipe (x : Sluice) : BitVec 2 × Bool := x.pipeNext.getD (x.pipeFailed, x.pipeSpare)

/-- The fuse words of the repairs in force, in ascending Plot and stack order; of one Plot, by KIND (DESIGN CHOICE, log 33). -/
def State.repairWords (s : State) : List Nat :=
  (List.range 272).flatMap (fun p =>
    let x := s.plot p
    (if s.plotState p == .retired then [fuseRetired p] else [])
    ++ x.furrows.zipIdx.flatMap (fun (fu, f) => if fu.map.spareEn then [fuseColumn p f fu.map.badCol.toNat] else [])
    ++ x.furrows.zipIdx.flatMap (fun (fu, f) => fu.writtenSpares.map (fun e => fuseBasin p f e.1 e.2.toNat))
    ++ x.writtenReps.map (fun e => fuseRsv p e.1 e.2.toNat))
  ++ (List.range 24).flatMap (fun k =>
    let m := (s.sluice k).writtenPipe
    if m.2 then [fusePipe k m.1.toNat] else [])

/-- The repairs not yet fused (R484): the last word for the same thing, if any, says something else. -/
def State.unfused (s : State) : List Nat :=
  s.repairWords.filter (fun v =>
    match (s.ras.fuses.map (·.toNat)).reverse.find? (sameFuse v) with
    | some u => u != v
    | none => true)

/-- SPARE_FUSE (R484): up to four words are burned. -/
def burnSpares (d : BitVec 32) (s : State) : Reply :=
  let left := 1024 - s.ras.fuses.length
  if left = 0 then refuse stExhausted s
  else
    let ws := s.unfused.take (min 4 left)
    let s := { s with ras := { s.ras with fuses := s.ras.fuses ++ ws.map w32 } }
    let left := left - ws.length
    { st := stOk, res := pack [(4, left)], s := note 0x8D 0 [w32 ws.length, w32 left, w32 s.unfused.length] d s }

/-- SPARE_FUSE (R484, R396). -/
def execSpareFuse (w : Win) (s : State) : Out := s.live <| command w 0x84 [] burnSpares s

/-- The physical Plots that the fuses leave enabled, ascending: those that manufacturing test did not make spare (R23), with the
lowest spares in place of the retired ones (R122, R484; DESIGN CHOICE, log 33). -/
def enabledPlots (spare retired : List Nat) : List Nat :=
  let base := (List.range 272).filter (fun p => !spare.contains p && !retired.contains p)
  let extra := ((List.range 272).filter (fun p => spare.contains p && !retired.contains p)).take (256 - base.length)
  (List.range 272).filter (fun p => base.contains p || extra.contains p)

/-- The state of a physical Plot as the fuses hold it (R489). -/
def fusedState (spare retired : List Nat) (p : Nat) : PState :=
  if retired.contains p then .retired else if (enabledPlots spare retired).contains p then .enabled else .spare

/-- The Plots that the repair store retires (R484, R485). -/
def Ras.fusedRetired (r : Ras) : List Nat :=
  (r.fuses.map (·.toNat)).filterMap (fun v => if v % 16 = 1 then some (field v 4 9) else none)

/-- RAS_PLOTSTATp (R489). -/
def State.plotStat (s : State) (p : Nat) : Nat :=
  let st := s.plotState p
  (match st with | .enabled => 0 | .spare => 1 | .retired => 2)
    + putField 2 (if st == .enabled then (s.lplot? p).getD 0 else 0)
    + putField 10 (b2n (fusedState s.ras.spareFused s.ras.fusedRetired p == st))

/-- Spare Plots left (R428, R478). -/
def State.sparePlots (s : State) : Nat := ((List.range 272).filter (fun p => s.plotState p == .spare)).length

/-- One repair fuse word applies (R484, R485). -/
def applyFuse (v : Nat) (s : State) : State :=
  let p := field v 4 9
  match v % 16 with
  | 2 => s.onPlot p (fun x => x.onFurrow (field v 13 2) (fun fu =>
      { fu with map := { badCol := BitVec.ofNat 7 (field v 15 7), spareEn := true } }))
  | 3 => s.onPlot p (fun x => x.onFurrow (field v 13 2) (fun fu =>
      { fu with spares := fu.spares.put (field v 15 2) (BitVec.ofNat 10 (field v 17 10), true) }))
  | 4 => s.onPlot p (fun x => { x with repEnts := x.repEnts.put (field v 13 10) (BitVec.ofNat 9 (field v 23 9), true) })
  | 5 => s.onSluice p (fun x => { x with pipeFailed := BitVec.ofNat 2 (field v 13 2), pipeSpare := true })
  | _ => s

/-- At cold reset the fuse words apply in store order, and the remap table is built from them (R122, R484, R489). -/
def applyFuses (s : State) : State :=
  let ret := s.ras.fusedRetired
  let sp := s.ras.spareFused
  let en := enabledPlots sp ret
  let state (p : Nat) : PState := if ret.contains p then .retired else if en.contains p then .enabled else .spare
  let plotSt : Tbl PState := ((List.range 272).map (fun p => (p, state p))).filter
    (fun e => e.2 != (if sp.contains e.1 then .spare else .enabled))
  let plotMap : Tbl (BitVec 9) := (en.zipIdx.filter (fun e => e.1 != e.2)).map (fun e => (e.2, BitVec.ofNat 9 e.1))
  let unmapped := (List.range 256).filter (fun l => en.length ≤ l)
  (s.ras.fuses.map (·.toNat)).foldl (fun s v => applyFuse v s) { s with ras := { s.ras with plotSt := plotSt, plotMap := plotMap, unmapped := unmapped } }

/-! ### Retiring a Plot -/

/-- An inbox with only its RW registers (R129). -/
def Inbox.setup (b : Inbox) : Inbox :=
  { base := b.base
    cap := b.cap
    slotMode := b.slotMode
    pitch := b.pitch
    slots := b.slots
    srcDevice := b.srcDevice
    srcPlot := b.srcPlot
    srcOutbox := b.srcOutbox }

/-- The Pacer registers that PLOT_REMAP copies (R126, R481). -/
def Pacer.copied (q : Pacer) : Pacer :=
  { startEntry := q.startEntry
    fillMin := q.fillMin
    fillMax := q.fillMax
    fillTo := q.fillTo
    classes := q.classes
    ptime := q.ptime
    scmap := q.scmap
    inboxes := q.inboxes.map Inbox.setup
    outboxes := q.outboxes.map (fun o => { credits := o.credits }) }

/-- Plot p as PLOT_REMAP leaves it (R481): a copy of the old Plot where that answers, else zeros; otherwise as after a Plot
reset, with its own spare mappings (R483). -/
def Plot.takeOver (x old : Plot) (answers : Bool) : Plot :=
  let y := x.cleared
  if answers then
    { y with
      pacer := { old.pacer.copied with seq := x.pacer.seq }
      ovfMode := old.ovfMode
      trap := old.trap
      wexp := old.wexp
      wexpPending := true
      stepMem := old.stepMem
      vtab := old.vtab
      dtab := old.dtab
      resv := old.resv
      resvPoison := old.resvPoison }
  else { y with stepMem := [], vtab := [], dtab := [], resv := [], resvPoison := [] }

/-- Spare mappings that wait on the old Plot are discarded (R483). -/
def Plot.dropPending (x : Plot) : Plot :=
  { x with repNext := [], furrows := x.furrows.map (fun fu => { fu with sparesNext := [], mapPending := false }) }

/-- The old Plot is left RETIRED (R23, R481). -/
def retirePlot (o : Nat) (s : State) : State :=
  let t := s.onPlot o Plot.dropPending
  { t with ras := { t.ras with plotSt := t.ras.plotSt.put o .retired } }

/-- PLOT_REMAP (R122, R481, R483). -/
def remapPlot (l p : Nat) (answers : Bool) (d : BitVec 32) (s : State) : Reply :=
  match s.phys? l with
  | none => refuse stRange s
  | some o =>
    if p != 0x1FF && (272 ≤ p || s.plotState p != .spare) then refuse stRange s
    else if s.power.st == .retain || (s.plot o).pacer.st != .stopped || (p != 0x1FF && (s.plot p).pacer.st != .stopped) then
      refuse stState s
    else if p = 0x1FF then
      let s := retirePlot o s
      done (event 0x84 2 o [w32 l] d { s with ras := { s.ras with unmapped := s.ras.unmapped ++ [l] } })
    else
      let old := s.plot o
      let s := retirePlot o (s.onPlot p (fun x => x.takeOver old answers))
      let s := { s with ras := { s.ras with plotSt := s.ras.plotSt.put p .enabled
                                            plotMap := s.ras.plotMap.put l (BitVec.ofNat 9 p) } }
      done (event 0x83 3 o [w32 l, w32 p, w32 (b2n answers), w32 s.sparePlots] d s)

/-- PLOT_REMAP (R481, R396): `answers` says whether the old Plot answers the copy within 100 µs. -/
def execPlotRemap (w : Win) (lplot phys : BitVec 32) (answers : Bool) (s : State) : Out := s.live <|
  command w 0x80 [lplot.toNat, phys.toNat] (fun d s => remapPlot lplot.toNat phys.toNat answers d s) s

/-! ### The Health Marshal -/

/-- CE_SUMMARY_TIMER (R476): at the next multiple of CE_SUM_MS of Stride Time (log 34), if a correction count has changed. -/
def execCeSummaryTimer (s : State) : Out := s.live <|
  let per := s.ras.ceSumMs.toNat * 1000000
  let s := s.advanceTo ((s.now.toNat / per + 1) * per)
  .next (if s.ras.ceNow.all (· = 0) then s
    else
      let s := post 0x82 1 0 noDseq s.now (s.ras.ceNow.map w32) s
      { s with ras := { s.ras with ceNow := [0, 0, 0, 0, 0, 0] } })

/-- Errors of a row noted within the last 24 h (R480). -/
def State.rowErrors (s : State) (kind obj : Nat) : Nat :=
  (s.ras.auxFaults.filter (fun e => e.1 = kind && e.2.1 = obj && s.now.toNat - e.2.2.toNat < dayNs)).length

/-- A row repair is due (R480): the first double-bit error, or the third single-bit error within 24 h. -/
def State.rowDue (s : State) (kind obj : Nat) : Bool := 1 ≤ s.rowErrors (kind + 1) obj || 3 ≤ s.rowErrors kind obj

/-- Faults of a unit within the last 24 h. -/
def State.within (s : State) (ts : List (BitVec 64)) : Nat := (ts.filter (fun t => s.now.toNat - t.toNat < dayNs)).length

/-- The next DSEQ, for a command of a Marshal's own (R393, R480). -/
def State.takeDseq (s : State) : BitVec 32 × State :=
  (s.host.dseq + 1, { s with host := { s.host with dseq := s.host.dseq + 1 } })

/-- A repair command of the Health Marshal's own (R480): it runs as a PCW command with a DSEQ and no host sequence. -/
def ownCommand (act : BitVec 32 → State → Reply) (s : State) : State :=
  let d := s.takeDseq
  let t := caused s.host.jhead d.1 (act d.1 d.2).s
  { t with host := { t.host with longs := t.host.longs.map (fun l => if l.dseq = d.1 then { l with hseq := 0 } else l) } }

/-- The first of four spare entries that is not in use. -/
def freeSpare (n : Nat) (used : Nat → Bool) : Option Nat := (List.range n).find? (fun e => !used e)

/-- A repair that is due, carried out (R480); with no spare left the Health Marshal can only advise (log 35). -/
def autoRepair (a : Repair) (ecc : List EccHit) (s : State) : State :=
  let on (i : Nat) : Bool := s.ras.auto.getLsbD i
  match a with
  | .column p f col =>
    let x := s.plot p
    if on 0 && col < 65 && 2 ≤ s.within (x.residueCnt.get (f * 1024 + col) []) && !(x.furrow f).map.spareEn && s.plotWritable p then
      ownCommand (fun _ s => done (writeColMap p f (w32 (col + 128)) s)) s
    else s
  | .basinRow p f row =>
    let fu := (s.plot p).furrow f
    if on 1 && row < 1024 && s.rowDue 0 (basinObj p f row) && s.plotWritable p && !fu.writtenSpares.any (fun e => e.2.toNat = row)
    then
      match freeSpare 4 (fun e => (fu.writtenSpares.get? e).isSome) with
      | some e => ownCommand (fun _ s => done (writeBspare p f e (w32 (row + 32768)) s)) s
      | none => s
    else s
  | .rsvRow p bank sub row =>
    let x := s.plot p
    let key (e : Nat) : Nat := bank + 32 * sub + 512 * e
    let used (e : Nat) : Option (BitVec 9) := x.writtenReps.get? (key e)
    if on 1 && bank < 32 && sub < 16 && row < 512 && s.rowDue 2 (rsvObj p bank sub row) && s.plotWritable p
        && !(List.range 2).any (fun e => used e == some (BitVec.ofNat 9 row)) then
      match freeSpare 2 (fun e => (used e).isSome) with
      | some e => ownCommand (fun _ s => done (applyIfStopped p ecc (s.onPlot p (fun x =>
          { x with repNext := x.repNext.put (key e) (BitVec.ofNat 9 row, true) })))) s
      | none => s
    else s
  | .pipe k q =>
    let x := s.sluice k
    if on 2 && k < 24 && q < 4 && 2 ≤ s.within (x.pipeFaults.get q []) && !x.writtenPipe.2 then
      ownCommand (fun _ s => done (s.onSluice k (fun x => { x with pipeNext := some (BitVec.ofNat 2 q, true) }))) s
    else s
  | .ppr k t =>
    let x := s.stack k
    let e := x.rowTrk.get t {}
    if on 3 && x.rowThresh.toNat ≤ e.count.toNat && e.count != 0 then
      ownCommand (fun d s => startPpr .pcw k e.phys.toNat (b2n e.pc) e.sid.toNat e.bg.toNat e.bank.toNat e.row.toNat d s) s
    else s
  | .channel k c =>
    let x := s.stack k
    if on 4 && 8 ≤ (x.rowTrk.filter (fun e => e.2.count != 0 && e.2.phys.toNat = x.physOf c)).length then
      ownCommand (fun d s => startSpare .pcw k c 16 d s) s
    else s
  | .fuse => if on 5 && !s.unfused.isEmpty then ownCommand burnSpares s else s

/-- HEALTH_AUTO_REPAIR (R480): while the Health Marshal runs (R441). -/
def execHealthAutoRepair (a : Repair) (ecc : List EccHit) (s : State) : Out := s.live <|
  when (s.roleUp 4) (autoRepair a ecc s) s

end Sys2Proof.Machine
end

