-- ==== Sys2Proof/Machine/Verdict.lean ====
section
/-! DEFINITION. The Starter events of the commit controller: VERDICT, COMMIT and ROLLBACK (R205 to R209). -/

namespace Sys2Proof.Machine

/-- SEQ_ERR is set (R205, R219). -/
def seqErr (s : State) : State := s.onCommit (fun c => { c with seqErr := true })

/-- A Sluice misses elements of the open step at T_v (R192, R193): a valid segment that is not STATIC has not received all
of them, or a block of the step waits in the inlet. -/
def State.inletShort (s : State) (k : Nat) : Bool :=
  let x := s.sluice k
  x.segs.any (fun e => !e.2.static && (s.segTag k e.1).recv != e.2.count) || x.inlet.any (fun b => !b.next)

/-- A hold count of a Sluice is not zero (R206). -/
def State.held (s : State) (k : Nat) : Bool := (s.sluice k).tags.any (fun e => e.2.hold != 0)

/-- What VERDICT does in OPEN (R205 to R207): it latches the causes that show at T_v, forms the payload, and launches the
verdict all-reduce. -/
def verdictAct (s : State) : State :=
  let ks := List.range 24
  let s := if ks.any s.inletShort then latchCause 1 s else s
  let s := if !s.commit.mode && ks.any s.held then latchCause 4 s else s
  let bad := s.commit.cause != 0
  launchVerdict (s.onCommit (fun c => { c with st := .verdict, ownBad := bad, payload := s.verdictWords bad }))

/-- VERDICT (R205, R233). -/
def execVerdict (e : Nat) (rivals : List Order) (s : State) : Out := s.live <|
  starterEvent e 0x06 rivals (fun _ _ s => if s.commit.st == .open then (2, verdictAct s) else (3, seqErr s)) s

/-- COMMIT (R205, R208, R209, R233). -/
def execCommit (e : Nat) (rivals : List Order) (s : State) : Out := s.live <|
  starterEvent e 0x07 rivals (fun _ _ s =>
    match s.commit.st, s.commit.result with
    | .idle, _ => (3, s)
    | .pending, _ => (3, seqErr s)
    | .open, _ => (2, doRollback 2 none (latchCause 9 s))
    | .verdict, some w => (2, applyResult w s)
    | .verdict, none => (2, s.onCommit (fun c => { c with st := .pending }))) s

/-- ROLLBACK (R205, R209, R233): a held result is discarded. -/
def execRollback (e : Nat) (rivals : List Order) (s : State) : Out := s.live <|
  starterEvent e 0x08 rivals (fun _ _ s =>
    match s.commit.st with
    | .idle => (3, s)
    | .pending => (3, seqErr s)
    | .open => (2, doRollback 2 none s)
    | .verdict => (2, doRollback 2 none s)) s

end Sys2Proof.Machine
end

