-- ==== Sys2Proof/Machine/Registers.lean ====
section
/-! DEFINITION. What every register of BAR0 and BAR2 reads as (R381, R382, R407 to R413, R418): the register map of R408, one
function per block space over 32-bit words. -/

namespace Sys2Proof.Machine

/-- The word of a 64-bit value that lies at a 4 B aligned offset: low word first. -/
def half (v o : Nat) : Nat := if o % 8 = 0 then v % 2 ^ 32 else v / 2 ^ 32 % 2 ^ 32

/-- The word of a wider value at byte offset o within it. -/
def wordAt (v o : Nat) : Nat := v / 2 ^ (8 * (o / 4 * 4)) % 2 ^ 32

/-- The element of a register array that holds offset o: its index and the byte within it. -/
def arr (o base stride n : Nat) : Option (Nat × Nat) :=
  if base ≤ o && o < base + stride * n then some ((o - base) / stride, (o - base) % stride) else none

/-- The first answer of a list. -/
def firstOf : List (Option Nat) → Nat
  | [] => 0
  | some v :: _ => v
  | none :: r => firstOf r

/-- A register at one offset. -/
def at1 (o a v : Nat) : Option Nat := if o = a then some v else none

/-- A 64-bit register at one offset. -/
def at2 (o a v : Nat) : Option Nat := if o = a || o = a + 4 then some (half v (o - a)) else none

/-! ### Plots -/

/-- PLT_PSTAT (R127). -/
def Pacer.stat (q : Pacer) : Nat :=
  (match q.st with
   | .stopped => 0 | .running => 1 | .paused => 2 | .numericHalt => 3 | .faultHalt => 4 | .draining => 5)
  + putField 3 q.pc.toNat + putField 15 q.fault.toNat + putField 20 (b2n q.flagOvf) + putField 21 (b2n q.inboxOvr)
  + putField 22 (b2n q.batchIb.isSome) + putField 23 (q.batchIb.getD 0)

/-- PLT_FSTATUS (R51): STREAMING counts cycles of the core clock that R6 defines since the last row a group took (log 9). -/
def State.fstatus (s : State) (p : Nat) : Nat :=
  ((s.plot p).furrows.zipIdx.map (fun (fu, f) =>
    putField (4 * f) (b2n fu.active.isSome) + putField (4 * f + 1) (b2n fu.loading.isSome)
      + putField (4 * f + 2) (b2n fu.shadow.isSome)
      + putField (4 * f + 3) (b2n (match fu.lastTake with | some t => s.clock.coreCyc < t + 16 | none => false))
      + putField (16 + f) (b2n fu.ce) + putField (20 + f) (b2n fu.ue))).sum

/-- PLT_FCOLMAPf (R49). -/
def Furrow.mapWord (fu : Furrow) : Nat := fu.map.badCol.toNat + putField 7 (b2n fu.map.spareEn) + putField 16 (b2n fu.mapPending)

/-- PLT_BSPAREf_e (R50). -/
def Furrow.spareWord (fu : Furrow) (e : Nat) : Nat :=
  match fu.sparesNext.get? e with
  | some (row, v) => row.toNat + putField 15 (b2n v) + putField 31 1
  | none => match fu.spares.get? e with
    | some (row, v) => row.toNat + putField 15 (b2n v)
    | none => 0

/-- PLT_WEXP (R86). -/
def Plot.wexpWord (x : Plot) : Nat :=
  b2n x.wexp.en + putField 1 (b2n x.wexp.mode) + putField 2 (b2n x.wexp.codeW) + putField 3 x.wexp.group.toNat
    + putField 5 x.wexp.target.toNat + putField 16 (b2n x.wexpPending)

/-- PLT_RSVREPENT as PLT_RSVREPSEL selects it (R157). -/
def Plot.repWord (x : Plot) : Nat :=
  let k := x.repSel.toNat
  match x.repNext.get? k with
  | some (row, v) => row.toNat + putField 9 (b2n v) + putField 31 1
  | none => match x.repEnts.get? k with
    | some (row, v) => row.toNat + putField 9 (b2n v)
    | none => 0

/-- Eight 4-bit fields of a table, from entry 8w (R128). -/
def nibbles (t : Tbl (BitVec 4)) (w : Nat) : Nat := ((List.range 8).map (fun i => putField (4 * i) (t.get (8 * w + i) 0).toNat)).sum

/-- PLT_PIBn_CFG, _GEOM, _STAT and _SRC (R129). -/
def Pacer.inboxWord (q : Pacer) (n i : Nat) : Nat :=
  let b := q.inbox n
  match i with
  | 0 => b.base.toNat + putField 17 b.cap.toNat + putField 30 (b2n b.slotMode)
  | 1 => b.pitch.toNat + putField 10 b.slots.toNat + putField 14 (if q.batchIb == some n then q.batchB else 0)
  | 2 => b.present + putField 13 b.head + putField 26 (b2n b.overrun)
  | _ => b.srcDevice.toNat + putField 14 b.srcPlot.toNat + putField 22 b.srcOutbox.toNat

/-- The transfer moves data (R156, R157): taken up, not failed, and not every byte of it is acknowledged. -/
def DmaCmd.moving (c : DmaCmd) : Bool :=
  c.started && c.err.isNone && (!c.allIssued || c.outReads != 0 || c.outWrites != 0)

/-- A word of the space of physical Plot p (R49 to R52, R85 to R89, R126 to R130, R157, R428). -/
def State.plotWord (s : State) (p o : Nat) : Nat :=
  let x := s.plot p
  let q := x.pacer
  firstOf [
    (arr o 0x400 4 4).map (fun a => (x.furrow a.1).mapWord),
    (arr o 0x420 4 16).map (fun a => (x.furrow (a.1 / 4)).spareWord (a.1 % 4)),
    at1 o 0x460 (s.fstatus p),
    (arr o 0x480 0x18 4).map (fun a =>
      let fu := x.furrow a.1
      half ([fu.feedStall, fu.loadWait, fu.drainStall].getD (a.2 / 8) 0).toNat a.2),
    at1 o 0x500 (b2n x.ovfMode + putField 1 (b2n x.trap)),
    at1 o 0x504 x.wexpWord,
    (arr o 0x510 4 4).map (fun a => (x.numev.words.getD a.1 0).toNat),
    at2 o 0x520 x.numev.time.toNat,
    at1 o 0x528 x.cntSat.toNat,
    at1 o 0x52C x.cntMore.toNat,
    at1 o 0x600 q.stat,
    at1 o 0x604 q.startEntry.toNat,
    at1 o 0x608 (q.fillMin.toNat + putField 16 q.fillMax.toNat),
    at1 o 0x60C q.fillTo.toNat,
    (arr o 0x610 4 4).map (fun a => (q.loops.getD a.1 0).toNat),
    (arr o 0x620 4 4).map (fun a => (q.ix.getD a.1 0).toNat),
    (arr o 0x630 4 8).map (fun a => nibbles q.flags a.1),
    (arr o 0x650 4 8).map (fun a => nibbles q.classes a.1),
    (arr o 0x680 8 4).map (fun a => half (q.ptime.getD a.1 0).toNat a.2),
    (arr o 0x6A0 8 4).map (fun a =>
      let m := q.scmap.getD a.1 {}
      half (m.dbase.toNat + putField 32 m.sbase.toNat) a.2),
    (arr o 0x6C0 0x10 4).map (fun a => q.inboxWord a.1 (a.2 / 4)),
    (arr o 0x700 4 4).map (fun a => let b := q.outboxes.getD a.1 {}; b.credits.toNat + putField 4 (b2n b.ovf)),
    (arr o 0x800 8 11).map (fun a => half (q.pcnt.getD a.1 0).toNat a.2),
    at1 o 0x900 (b2n x.rsvCe + putField 1 (b2n x.rsvUe) + putField 2 (b2n (!x.repNext.isEmpty))),
    at1 o 0x904 x.rsvCeCnt.toNat,
    at1 o 0x908 x.rsvUeAddr.toNat,
    at1 o 0x910 x.repSel.toNat,
    at1 o 0x914 x.repWord,
    at1 o 0x980 (x.dmaQ.length + putField 3 (b2n (x.dmaQ.any (·.moving))) + putField 4 (b2n x.dErr)
      + putField 5 x.dErrCode.toNat + putField 8 x.dErrSlot.toNat),
    at2 o 0x988 x.dBytes.toNat,
    at1 o 0x7FF8 x.swcnt.toNat]

/-! ### Stacks -/

/-- HBM_CHMAPc (R179). -/
def Stack.chWord (x : Stack) (c : Nat) : Nat :=
  x.physOf c + putField 8 (if x.offline.contains c then 2
    else match x.spare with | some k => b2n (k.lch == c) | none => 0)

/-- A word of the space of stack k (R179, R217 to R219, R428). -/
def State.stackWord (s : State) (k o : Nat) : Nat :=
  let x := s.stack k
  let y := x.sluice
  let c := s.commit
  let tags := s.tagWords k y.tagSel.toNat
  let ctl : List (Option Nat) := if k != 0 then [] else [
    at1 o 0x30000 (b2n c.mode + putField 1 (b2n c.stalePolicy)),
    at1 o 0x30004 c.stat.toNat,
    at1 o 0x30008 c.step.toNat,
    at1 o 0x3000C (b2n c.veto),
    at1 o 0x30010 c.cause.toNat,
    at1 o 0x30014 c.lastCause.toNat,
    (arr o 0x30020 4 8).map (fun a => (c.clipNorm.get a.1 0).toNat)]
  firstOf ([
    at1 o 0x0 (b2n x.ue + putField 1 (b2n x.scrubUe) + putField 2 (b2n x.partialPoison) + putField 3 (b2n x.throttle)
      + putField 4 (b2n x.refresh2x) + putField 5 (b2n x.selfRefresh)),
    at2 o 0x8 (x.ueCa.toNat + putField 31 x.uePhys.toNat),
    at1 o 0x10 (x.scrubPos.toNat + putField 26 x.scrubPasses.toNat),
    at1 o 0x14 (x.scrubInterval.toNat + putField 16 x.rowThresh.toNat),
    at1 o 0x18 x.temp.toNat,
    at1 o 0x1C x.failed.toNat,
    at1 o 0x20 (x.spareLch.toNat + putField 5 x.spareTarget.toNat + putField 10 (b2n x.spare.isSome)
      + putField 11 (b2n ((x.spare.map (·.paused)).getD false)) + putField 12 x.spareRate.toNat),
    at1 o 0x24 x.spareWm.toNat,
    at1 o 0x30 (x.pprPhys.toNat + putField 5 (x.pprAvail x.pprPhys.toNat) + putField 11 (b2n (!x.pprs.isEmpty))),
    (arr o 0x100 4 30).map (fun a => x.chWord a.1),
    (arr o 0x200 4 32).map (fun a => (x.chCe.get a.1 0).toNat + putField 16 (x.chUe.get a.1 0).toNat
      + putField 24 (if a.1 = 0 then x.linkRetry.toNat else 0)),
    (arr o 0x300 8 16).map (fun a => half (x.rowTrk.get a.1 {}).word a.2),
    at1 o 0x10000 (y.cfg.smapCount.toNat + putField 19 y.cfg.factCount.toNat),
    at2 o 0x10008 y.cfg.smapBase.toNat,
    at2 o 0x10010 y.cfg.grpBase.toNat,
    at2 o 0x10018 y.cfg.factBase.toNat,
    at2 o 0x10020 (y.cfg.ledgerBase.toNat + putField 48 y.cfg.ledgerDepth.toNat),
    at1 o 0x10028 y.cfg.holdWait.toNat,
    at1 o 0x10030 (b2n y.segErr + putField 1 (b2n y.stale) + putField 2 (b2n y.holdErr) + putField 3 (b2n y.inletErr)
      + putField 4 (b2n y.evalBusy) + putField 5 (b2n (!y.inlet.isEmpty))),
    at1 o 0x10034 (y.writtenPipe.1.toNat + putField 2 (b2n y.writtenPipe.2) + putField 3 (b2n y.pipeSpareBad)
      + putField 4 (b2n y.pipeNext.isSome)),
    at2 o 0x10040 y.updCnt.toNat,
    at1 o 0x10048 y.nonfin.toNat,
    at1 o 0x1004C y.satCnt.toNat,
    at1 o 0x10050 y.stale0.toNat,
    at1 o 0x10054 y.stale1.toNat,
    at1 o 0x10058 y.stale2.toNat,
    at1 o 0x10060 y.tagSel.toNat,
    at2 o 0x10068 tags.1,
    at1 o 0x10070 tags.2,
    at1 o 0x3FFF8 x.hbmSwcnt.toNat] ++ ctl)

/-! ### Time, power, security and RAS -/

/-- A word of the space of Stride Time and the Starter (R244, R428). -/
def State.strWord (s : State) (o : Nat) : Nat :=
  let c := s.clock
  let q := s.starter
  firstOf [
    at2 o 0x0 c.ns.toNat,
    at1 o 0x8 (c.role.toNat + putField 2 (b2n c.refEn) + putField 3 c.parent.toNat + putField 8 c.altParent.toNat
      + putField 13 (b2n c.loadArm) + putField 14 c.syncPeriod.toNat),
    at1 o 0xC (c.masterDev.toNat + putField 14 c.masterGen.toNat),
    at1 o 0x10 (c.lock.code + putField 2 (b2n c.refOk) + putField 3 (b2n c.syncSeen) + putField 4 (b2n c.onAlt)
      + putField 5 (b2n c.stepped) + putField 6 (b2n c.parentLost) + putField 7 (b2n c.foreign)
      + putField 8 (b2n c.loadRefused)),
    at1 o 0x14 c.offset.toNat,
    at1 o 0x18 c.pathDly.toNat,
    at1 o 0x1C c.rate.toNat,
    at2 o 0x20 c.load.toNat,
    at2 o 0x28 c.syncCap.toNat,
    (arr o 0x40 4 18).map (fun a => (c.asym.get a.1 0).toNat),
    at1 o 0x100 ((q.evs.filter (·.2.valid)).length + putField 9 (b2n q.sLate) + putField 10 (b2n q.sSup)
      + putField 11 (b2n q.sRef)),
    at1 o 0x104 q.cntLate.toNat,
    at1 o 0x108 q.cntSup.toNat,
    at1 o 0x10C q.cntRef.toNat,
    (arr o 0x200 0x20 16).map (fun a => wordAt (q.psets.get a.1 0).toNat a.2),
    (arr o 0x1000 0x20 256).map (fun a => wordAt (s.ev a.1).word a.2),
    at1 o 0xFFFF8 c.swcnt.toNat]

/-- PWR_ISLi (R446). -/
def State.islWord (s : State) (i : Nat) : Nat :=
  let d := s.power.islands.getD i {}
  d.grant + putField 12 (s.ceilEff i) + putField 24 d.therm + putField 36 d.temp.toNat

/-- A word of the power space (R446, R470, R428). -/
def State.pwrWord (s : State) (o : Nat) : Nat :=
  let q := s.power
  firstOf [
    at1 o 0x0 (b2n q.hold + putField 1 (b2n q.limited) + putField 2 (b2n q.thermHw) + putField 3 (b2n q.droopF)),
    at1 o 0x4 (q.p1us.toNat + putField 16 q.p1ms.toNat),
    at1 o 0x8 (q.capEff + putField 16 q.tdp.toNat),
    (arr o 0x10 4 4).map (fun a => ([q.capBmc, q.capPcw, q.capStr, if q.hold then q.capHold else 0].getD a.1 0).toNat),
    (arr o 0x40 8 16).map (fun a => half (s.islWord a.1) a.2),
    at1 o 0x100 (q.st.code + putField 3 q.target.code + putField 6 (b2n q.busy) + putField 7 (b2n q.refused)),
    at1 o 0xFFFF8 q.swcnt.toNat]

/-- TAINT (R458). -/
def Sec.taint (c : Sec) : Bool := c.lc = 0 || c.lc = 1 || c.debugMax = 2

/-- SEC_STAT (R470). -/
def Sec.stat (c : Sec) : Nat :=
  c.lc.toNat + putField 2 (b2n c.lcPending) + putField 3 c.lcTarget.toNat + putField 5 c.dbg.toNat
    + putField 7 c.debugMax.toNat + putField 9 (b2n c.taint) + putField 10 (b2n c.signOk)
    + putField 11 (b2n (!c.devid.isEmpty && !c.devidGone)) + putField 12 (b2n c.clearing)

/-- A word of the security space (R470, R428). -/
def State.secWord (s : State) (o : Nat) : Nat :=
  let c := s.sec
  firstOf [
    at1 o 0x0 c.stat,
    at2 o 0x8 c.nonce.toNat,
    at1 o 0x10 (c.revoke.toNat + putField 16 (b2n (!c.rootHash.isEmpty)) + putField 17 c.lcBits.toNat),
    at2 o 0x18 c.svn.toNat,
    at1 o 0x20 (c.bootErr.toNat + putField 4 (b2n c.bootErrSlot)),
    at1 o 0x24 (b2n c.tokReject + putField 1 c.tokCause.toNat),
    at1 o 0xFFFF8 c.swcnt.toNat]

/-- A word of the RAS space (R123, R489, R428). -/
def State.rasWord (s : State) (o : Nat) : Nat :=
  let r := s.ras
  firstOf [
    at1 o 0x0 (b2n r.fatal + putField 1 (b2n r.pllAlt) + putField 2 (b2n r.refLost) + putField 3 (b2n r.fuseCorr)),
    at1 o 0x4 (r.auto.toNat + putField 16 r.ceSumMs.toNat),
    at1 o 0x8 ((1024 - r.fuses.length) + putField 11 s.unfused.length),
    at1 o 0xC r.fatalWord.toNat,
    (arr o 0x10 8 5).map (fun a => half (r.classCnt.getD a.1 0).toNat a.2),
    (arr o 0x100 4 272).map (fun a => s.plotStat a.1),
    (arr o 0x1000 4 256).map (fun a => (r.plotMap.get a.1 (BitVec.ofNat 9 a.1)).toNat
      + putField 31 (b2n (!r.unmapped.contains a.1))),
    at1 o 0xFFFF8 r.swcnt.toNat]

/-! ### Links, router and Relay -/

/-- A word of the space of link l (R272 to R275, R331, R428). -/
def State.linkWord (s : State) (l o : Nat) : Nat :=
  let x := s.link l
  firstOf [
    at1 o 0x0 x.stat.toNat,
    at1 o 0x4 (b2n x.enable + putField 1 x.medium.toNat + putField 3 (b2n x.autoSpare) + putField 4 x.minWidth.toNat
      + putField 7 x.replayLimit.toNat + putField 11 x.laneThresh.toNat),
    at1 o 0x8 x.tx.word.toNat,
    at1 o 0xC x.rx.word.toNat,
    (arr o 0x20 4 8).map (fun a => wordAt x.bibTx.toNat (4 * a.1)),
    (arr o 0x40 4 8).map (fun a => wordAt x.bibRx.toNat (4 * a.1)),
    at1 o 0x60 (x.members.toNat + putField 18 (b2n x.canalEn)),
    at1 o 0x64 (s.canalStat l).toNat,
    (arr o 0x80 8 9).map (fun a => half (x.cnt.getD a.1 0).toNat a.2),
    at1 o 0xD0 x.disc.toNat,
    (arr o 0x100 4 5).map (fun a => (x.sym.getD a.1 0).toNat),
    at1 o 0xFFF8 x.swcnt.toNat]

/-- Word d of a routing bank (R303). -/
def Router.bankWord (r : Router) (one : Bool) (d : Nat) : Nat := ((if one then r.bank1 else r.bank0).get d 0).toNat

/-- A word of the router and discovery space (R312, R313, R331, R428). -/
def State.fabWord (s : State) (o : Nat) : Nat :=
  let r := s.router
  firstOf [
    at1 o 0x0 (b2n r.fmapEn + putField 8 r.fmapThresh.toNat),
    at1 o 0x4 (b2n r.bank + putField 1 (b2n r.injStopped) + putField 2 (b2n r.drained) + putField 3 (b2n r.swapLate)
      + putField 4 (b2n r.discard) + putField 5 (b2n r.escErr) + putField 6 (b2n r.noRoute) + putField 7 (b2n r.overflow)
      + putField 8 (b2n r.crcErr)),
    at1 o 0x8 (r.out % 2 ^ 24),
    at1 o 0xC (r.park.length + putField 7 r.turnaway.length),
    at2 o 0x10 (r.fmapBase.toNat + putField 48 r.fmapDepth.toNat),
    at1 o 0x18 r.fmapPtr.toNat,
    (arr o 0x100 8 18).map (fun a => half (r.wgt.get a.1 0x1040204020).toNat a.2),
    (arr o 0x200 8 10).map (fun a => half (r.cnt.getD a.1 0).toNat a.2),
    at1 o 0x400 (r.id.toNat + putField 14 (b2n r.idSrc) + putField 15 (b2n r.strapDiff)),
    at1 o 0x404 s.hsGen,
    at1 o 0x408 (b2n (!r.hs.isEmpty) + putField 1 (b2n r.hsReject) + putField 2 r.hsRejCode.toNat + putField 5 (b2n r.hsChange)),
    at1 o 0x40C r.settle.toNat,
    at1 o 0xFFF8 r.swcnt.toNat]

/-- A word of the Relay space (R365, R366, R428). -/
def State.colWord (s : State) (o : Nat) : Nat :=
  let r := s.relay
  firstOf [
    at1 o 0x0 (b2n r.sMismatch + putField 1 (b2n r.sStall) + putField 2 (b2n r.sPoison) + putField 3 (b2n r.sRemote)
      + putField 4 (b2n r.sAborted) + putField 5 (b2n r.sRefused)),
    at1 o 0x4 r.timeout.toNat,
    at2 o 0x8 r.missBase.toNat,
    at1 o 0x10 (b2n r.errValid + putField 1 r.errCtx.toNat + putField 8 r.errCode.toNat + putField 12 r.errRank.toNat
      + putField 26 (b2n r.errPartial)),
    at2 o 0x18 r.errOwn.toNat,
    at2 o 0x20 r.errOther.toNat,
    (arr o 0x28 4 4).map (fun a => s.storeFree a.1 / 1024),
    (arr o 0x40 8 8).map (fun a => half (r.cnt.getD a.1 0).toNat a.2),
    (arr o 0x100 4 128).map (fun a => (s.ctx a.1).word),
    (arr o 0x400 4 128).map (fun a => (s.ctx a.1).d.seq % 2 ^ 32),
    (arr o 0x800 0x20 64).map (fun a => wordAt (r.rdy.get a.1 0).toNat a.2),
    at1 o 0xFFF8 r.swcnt.toNat]

/-- A word of the region table (R149, R428). -/
def State.rgnWord (s : State) (o : Nat) : Nat :=
  let g := s.regions
  firstOf [
    (arr o 0x0 0x20 64).map (fun a =>
      let r := g.tbl.get a.1 {}
      match a.2 / 4 with
      | 0 => r.base.toNat % 2 ^ 32
      | 1 => r.base.toNat / 2 ^ 32
      | 2 => r.size.toNat % 2 ^ 32
      | 3 => r.size.toNat / 2 ^ 32
      | 4 => r.soff.toNat
      | 5 => r.mode.toNat + putField 2 r.side.toNat + putField 4 r.stack.toNat + putField 9 (b2n r.sluice)
          + putField 10 (b2n r.valid)
      | _ => 0),
    at1 o 0x800 (b2n g.overlap + putField 1 g.region.toNat + putField 7 (b2n g.range)),
    at1 o 0xFF8 g.swcnt.toNat]

/-! ### Global registers, windows and the Journal -/

/-- A directory entry of the config seal (R421). -/
structure DirE where
  /-- OFFSET -/
  offset : Nat
  /-- MASK -/
  mask : Nat
  /-- COUNT -/
  count : Nat
  /-- STRIDE -/
  stride : Nat
  /-- KIND -/
  kind : Nat := 0
  deriving DecidableEq, Repr

/-- The seal directory of revision A1 (R421): register runs in ascending order of OFFSET, then the routing banks. -/
def sealDir : List DirE :=
  [{ offset := 0x02000014, mask := 0x000FFFFF, count := 24, stride := 0x40000 },
   { offset := 0x02010000, mask := 0x1FFFFFFF, count := 24, stride := 0x40000 },
   { offset := 0x02010008, mask := 0xFFFFFFFF, count := 24, stride := 0x40000 },
   { offset := 0x0201000C, mask := 0x0000FFFF, count := 24, stride := 0x40000 },
   { offset := 0x02010010, mask := 0xFFFFFFFF, count := 24, stride := 0x40000 },
   { offset := 0x02010014, mask := 0x0000FFFF, count := 24, stride := 0x40000 },
   { offset := 0x02010018, mask := 0xFFFFFFFF, count := 24, stride := 0x40000 },
   { offset := 0x0201001C, mask := 0x0000FFFF, count := 24, stride := 0x40000 },
   { offset := 0x02010020, mask := 0xFFFFFFFF, count := 24, stride := 0x40000 },
   { offset := 0x02010024, mask := 0xFFFFFFFF, count := 24, stride := 0x40000 },
   { offset := 0x02010028, mask := 0xFFFFFFFF, count := 24, stride := 0x40000 },
   { offset := 0x02030000, mask := 0x00000003, count := 1, stride := 4 },
   { offset := 0x02600000, mask := 0xFFFFFFFF, count := 64, stride := 0x20 },
   { offset := 0x02600004, mask := 0x0000000F, count := 64, stride := 0x20 },
   { offset := 0x02600008, mask := 0xFFFFFFFF, count := 64, stride := 0x20 },
   { offset := 0x0260000C, mask := 0x0000000F, count := 64, stride := 0x20 },
   { offset := 0x02600010, mask := 0x00FFFFFF, count := 64, stride := 0x20 },
   { offset := 0x02600014, mask := 0x000007FF, count := 64, stride := 0x20 }]
  ++ [{ offset := 0x02800004, mask := 0x0007FFFF, count := 18, stride := 0x10000 },
   { offset := 0x02800060, mask := 0x0007FFFF, count := 18, stride := 0x10000 },
   { offset := 0x02920000, mask := 0x0000FF01, count := 1, stride := 4 },
   { offset := 0x02920010, mask := 0xFFFFFFFF, count := 1, stride := 4 },
   { offset := 0x02920014, mask := 0xFFFFFFFF, count := 1, stride := 4 },
   { offset := 0x02920100, mask := 0xFFFFFFFF, count := 18, stride := 8 },
   { offset := 0x02920104, mask := 0x000000FF, count := 18, stride := 8 },
   { offset := 0x0292040C, mask := 0x000003FF, count := 1, stride := 4 },
   { offset := 0x02950004, mask := 0xFFFFFFFF, count := 1, stride := 4 },
   { offset := 0x02950008, mask := 0xFFFFFFFF, count := 1, stride := 4 },
   { offset := 0x0295000C, mask := 0x0000FFFF, count := 1, stride := 4 },
   { offset := 0x02930000, mask := 0x7FFFFFFF, count := 16384, stride := 4, kind := 1 }]

/-- The 16 bytes of a directory entry (R421). -/
def DirE.word (e : DirE) : Nat :=
  e.offset + putField 32 e.mask + putField 64 e.count + putField 80 e.stride + putField 112 e.kind

/-- Window state code (R386). -/
def WinSt.code : WinSt → Nat
  | .idle => 0
  | .busy => 1
  | .done => 2
  | .offline => 3

/-- CMD_WSTATE (R406). -/
def Window.wstate (q : Window) : Nat :=
  q.st.code + putField 2 (b2n q.reqIgnored) + putField 3 (b2n q.commitIgnored) + putField 4 (b2n q.irqEn)

/-- A word of a command window (R385). -/
def State.winWord (s : State) (w : Win) (o : Nat) : Nat :=
  let q := s.window w
  if o < 0x400 then q.req.le o 4
  else if o < 0x800 then leNat ((q.reply.drop (o - 0x400)).take 4)
  else firstOf [at1 o 0x804 q.wstate, at1 o 0x808 q.lastHseq.toNat, at1 o 0x80C s.host.dseq.toNat]

/-- Boot state code (R446). -/
def BootSt.code : BootSt → Nat
  | .init => 0
  | .ready => 1
  | .loading => 2
  | .running => 3
  | .rejected => 4

/-- Marshal state code (R446). -/
def MState.code : MState → Nat
  | .off => 0
  | .starting => 1
  | .running => 2
  | .handover => 3
  | .restarting => 4
  | .failed => 5

/-- Crashes of a role over the last 3,600 s of Stride Time (R439, R446). -/
def State.crashCount (s : State) (role : Nat) : Nat :=
  (s.boot.crashes.filter (fun c => c.1 = role && s.now.toNat - c.2.toNat ≤ 3600000000000)).length

/-- GEN_MSTATm (R446); CRASHES is two bits wide. -/
def State.mstat (s : State) (m : Nat) : Nat :=
  let x := s.boot.marshals.getD m {}
  x.role.toNat + putField 3 x.st.code + putField 6 (min 3 (s.crashCount x.role.toNat)) + putField 8 x.cause.toNat
    + putField 12 (b2n x.slot) + putField 13 x.drop.toNat

/-- GEN_CAPS (R428): an OFFLINE channel takes 2 GiB. -/
def State.caps (s : State) : Nat :=
  (256 - s.ras.unmapped.length) + putField 9 s.sparePlots
    + putField 14 (1440 - 2 * ((List.range 24).map (fun k => (s.stack k).offline.length)).sum)

/-- GEN_REV (R428). -/
def State.rev (s : State) : Nat := 1 + putField 4 0xA + putField 8 (b2n s.power.orderCode)

/-- CMD_HSTAT (R406). -/
def HostPort.hstat (h : HostPort) : Nat :=
  b2n h.bar4Err + putField 1 (b2n h.bar2Write) + putField 2 h.speed.toNat + putField 5 h.width.toNat + putField 9 (b2n h.flit)

/-- GEN_SEALSTAT (R428). -/
def Seal.stat (c : Seal) : Nat :=
  (match c.st with | .open => 0 | .sealed => 1 | .broken => 2)
    + putField 2 (b2n c.brk) + putField 3 c.firstBad.toNat + putField 11 (b2n c.commitFail)

/-- A word of the first 1 MiB of BAR0: identity, boot, windows, Journal, host port, seal and MSI-X (R406, R428, R446, R500). -/
def State.genWord (s : State) (o : Nat) : Nat :=
  let h := s.host
  let b := s.boot
  if 0x1000 ≤ o && o < 0x2000 then s.winWord .pcw (o - 0x1000)
  else if 0x2000 ≤ o && o < 0x3000 then s.winWord .jcw (o - 0x2000)
  else if 0x8000 ≤ o && o < 0x8400 then h.msixTable.le (o - 0x8000) 4
  else if 0x10000 ≤ o && o < 0x11000 then
    ((sealDir[(o - 0x10000) / 16]?).map (fun e => wordAt e.word (o % 16))).getD 0
  else firstOf [
    at1 o 0x0 0x010024,
    at1 o 0x4 s.rev,
    at2 o 0x8 s.sec.serial.toNat,
    at1 o 0x10 s.caps,
    at1 o 0x14 s.power.slowSeq.toNat,
    at1 o 0x18 (b.strap.toNat + putField 18 (b2n b.refB)),
    at2 o 0x100 b.addr.toNat,
    at1 o 0x108 b.len.toNat,
    at1 o 0x110 (b.st.code + putField 3 b.code.toNat + putField 11 (b2n b.slot)),
    at2 o 0x118 (b.active.toNat + putField 32 b.staged.toNat),
    at1 o 0x120 ((b.roleMap.zipIdx.map (fun e => putField (3 * e.2) e.1)).sum + putField 12 b.mFailed.toNat),
    (arr o 0x200 4 6).map (fun a => s.mstat a.1),
    at2 o 0x3000 h.jbase.toNat,
    at2 o 0x3008 h.jheadWb.toNat,
    at1 o 0x3010 (b2n h.jen + putField 1 h.jsize.toNat + putField 16 h.jmod.toNat),
    at1 o 0x3014 (b2n h.jfull + putField 1 (b2n h.jgap)),
    at2 o 0x3018 h.jtail.toNat,
    at2 o 0x3020 h.jhead.toNat,
    at2 o 0x3028 h.jwritten.toNat,
    at1 o 0x3100 h.hstat,
    at1 o 0x3104 h.bar2Cnt.toNat,
    at2 o 0x3108 (putField 30 h.bar4Base.toNat),
    at2 o 0x3110 h.bar4ErrAddr.toNat,
    at1 o 0x4000 s.cfgSeal.stat,
    at1 o 0x4004 s.cfgSeal.ref.toNat,
    at1 o 0x4008 s.cfgSeal.cur.toNat,
    at1 o 0x400C s.cfgSeal.cnt.toNat,
    at1 o 0x4010 sealDir.length,
    at2 o 0x9000 h.msixPba.toNat,
    at1 o 0xFFFF8 h.swcnt.toNat]

/-- A word of the Marshal-internal range (R409, R463): it reads 0 below FULL. -/
def State.sramWord (s : State) (o : Nat) : Nat :=
  if s.sec.dbg = 2 then leNat ((List.range 4).map (fun i => s.host.marshalSram.get (o + i) 0)) else 0

/-- The 32-bit word at a 4 B aligned offset of BAR0 (R408, R409); in RETAIN the Plot spaces read 0 (R465). -/
def State.word0 (s : State) (o : Nat) : Nat :=
  if o < 0x100000 then s.genWord o
  else if o < 0x200000 then s.strWord (o - 0x100000)
  else if o < 0x300000 then s.pwrWord (o - 0x200000)
  else if o < 0x400000 then s.secWord (o - 0x300000)
  else if o < 0x500000 then s.rasWord (o - 0x400000)
  else if 0x1000000 ≤ o && o < 0x1000000 + 272 * 0x8000 then
    if s.power.st == .retain then 0 else s.plotWord ((o - 0x1000000) / 0x8000) (o % 0x8000)
  else if 0x2000000 ≤ o && o < 0x2600000 then s.stackWord ((o - 0x2000000) / 0x40000) (o % 0x40000)
  else if 0x2600000 ≤ o && o < 0x2601000 then s.rgnWord (o - 0x2600000)
  else if 0x2800000 ≤ o && o < 0x2920000 then s.linkWord ((o - 0x2800000) / 0x10000) (o % 0x10000)
  else if 0x2920000 ≤ o && o < 0x2930000 then s.fabWord (o - 0x2920000)
  else if 0x2930000 ≤ o && o < 0x2940000 then s.router.bankWord s.router.bank ((o - 0x2930000) / 4)
  else if 0x2940000 ≤ o && o < 0x2950000 then s.router.bankWord (!s.router.bank) ((o - 0x2940000) / 4)
  else if 0x2950000 ≤ o && o < 0x2960000 then s.colWord (o - 0x2950000)
  else if 0x3000000 ≤ o && o < 0x4000000 then s.sramWord o
  else 0

/-- The 32-bit word at a 4 B aligned offset of BAR2 (R382); an unmapped logical Plot's mirrors read 0. -/
def State.word2 (s : State) (o : Nat) : Nat :=
  let viaPlot (l r : Nat) : Nat := match s.phys? l with | some p => s.word0 (0x1000000 + p * 0x8000 + r) | none => 0
  if o < 0x1000 then s.winWord .jcw o
  else firstOf [
    at2 o 0x1000 s.clock.ns.toNat,
    at1 o 0x1008 (s.strWord 0x10),
    at2 o 0x2000 s.host.jhead.toNat,
    at2 o 0x2008 s.host.jwritten.toNat,
    at1 o 0x2010 (s.genWord 0x3014),
    (arr o 0x4000 4 256).map (fun a => viaPlot a.1 0x600),
    at1 o 0x4400 (s.stackWord 0 0x30004),
    at1 o 0x4404 (s.stackWord 0 0x30008),
    at1 o 0x4408 (s.stackWord 0 0x30014),
    (arr o 0x4800 8 128).map (fun a => s.colWord ((if a.2 = 0 then 0x100 else 0x400) + 4 * a.1)),
    (arr o 0x8000 0x58 256).map (fun a => viaPlot a.1 (0x800 + a.2)),
    (arr o 0xD800 8 10).map (fun a => s.fabWord (0x200 + 8 * a.1 + a.2)),
    (arr o 0xD900 8 8).map (fun a => s.colWord (0x40 + 8 * a.1 + a.2))]

/-! ### Reads -/

/-- The register wider than 64 bits that holds an offset of BAR0 (R413): its address. -/
def wideReg (o : Nat) : Option Nat :=
  match arr o 0x100200 0x20 16, arr o 0x101000 0x20 256, arr o 0x2950800 0x20 64 with
  | some a, _, _ => some (0x100200 + 0x20 * a.1)
  | _, some a, _ => some (0x101000 + 0x20 * a.1)
  | _, _, some a => some (0x2950800 + 0x20 * a.1)
  | _, _, _ => none

/-- An access of an accepted form (R410). -/
def accessOk (o n : Nat) : Bool := (n = 4 || n = 8) && o % n = 0

/-- The n bytes at an offset, word by word. -/
def wordsBytes (f : Nat → Nat) (o n : Nat) : List Byte := ((List.range (n / 4)).map (fun i => leBytes 4 (f (o + 4 * i)))).flatten

/-- A register as one 256-bit value. -/
def State.wideVal (s : State) (a : Nat) : BitVec 256 := BitVec.ofNat 256 (leNat (wordsBytes s.word0 a 32))

/-- A read of BAR0 (R410, R411, R413): what it returns, and the capture of a wide register. -/
def readBar0 (o n : Nat) (s : State) : List Byte × State :=
  if !accessOk o n || 0x4000000 ≤ o then (List.replicate n 0, s)
  else match wideReg o with
    | none => (wordsBytes s.word0 o n, s)
    | some a =>
      let s := if o = a then { s with host := { s.host with bar0Cap := some (a, s.wideVal a) } } else s
      match s.host.bar0Cap with
      | some (b, v) => if b = a then (wordsBytes (fun o => wordAt v.toNat (o - a)) o n, s) else (wordsBytes s.word0 o n, s)
      | none => (wordsBytes s.word0 o n, s)

/-- A read of BAR2 (R382, R410); it has no register wider than 64 bits. -/
def readBar2 (o n : Nat) (s : State) : List Byte :=
  if !accessOk o n || 0x100000 ≤ o then List.replicate n 0 else wordsBytes s.word2 o n

/-- WIDE_REGISTER_READ (R410, R411, R413): a read of a BAR's registers; nothing answers in D3hot or OFF (R380, R465). -/
def execWideRegisterRead (bar2 : Bool) (off size : Nat) (s : State) : Out := s.live <|
  if !s.barsOpen then .next s
  else
    let r := if bar2 then (readBar2 off size s, s) else readBar0 off size s
    .next { r.2 with host := { r.2.host with rdData := r.1 } }

end Sys2Proof.Machine
end

