-- ==== Sys2Proof/Machine/Windows.lean ====
section
/-! DEFINITION. The command windows themselves (R386 to R392), ECHO and IDENTIFY (R396), the Event Journal's host ring (R401 to
R403), BAR2 writes (R383) and the BAR4 window (R384). -/

namespace Sys2Proof.Machine

/-! ### Committing a packet -/

/-- Bytes of a packet that no field holds are zero (R390). -/
def Window.padOk (q : Window) (fs : List (Nat × Nat)) (len : Nat) : Bool :=
  (q.req.bytes 0 len).zipIdx.all (fun e => e.2 < 16 || e.1 = 0 || fs.any (fun f => f.1 ≤ e.2 && e.2 < f.1 + f.2))

/-- The header's reserved bits and bytes are zero (R390). -/
def Window.headOk (q : Window) : Bool :=
  field (q.req.le 0 4) 8 8 = 0 && field (q.req.le 0 4) 27 5 = 0 && q.req.le 8 8 = 0

/-- A reserved encoding in the header or the parameters that no opcode's own check sees (R10, R390, R395). A packet too short for
its parameters counts as one (log 36). -/
def Window.reserved (q : Window) (op len : Nat) (sizes : List Nat) : Bool :=
  let fs := place 16 sizes
  !q.headOk || len < placeEnd fs || (op != 0 && !q.padOk fs len)
    || (op = 0x52 && 1 < (q.params sizes).getD 0 0) || (op = 0x11 && 3 < (q.params sizes).getD 1 0)

/-- A reply to a packet that was not consumed: no DSEQ is given (R391, R392). -/
def turnAway (w : Win) (st : Nat) (res : List Byte) (s : State) : State :=
  let q := s.window w
  sendReply w (replyBytes (q.req.le 0 1) (BitVec.ofNat 32 (q.req.le 4 4)) noDseq st 0 res) s

/-- The cached reply of the last packet consumed, as DUPLICATE (R391, R392). -/
def Window.again (q : Window) : List Byte :=
  q.cache.take 12 ++ leBytes 2 stDuplicate ++ (q.cache.drop 12).take 2 ++ q.cache.drop 16

/-- SEC_NONCE is drawn again (R453, R462). -/
def newNonce (s : State) : State :=
  let r := s.draw
  { r.2 with sec := { r.2.sec with nonce := r.1 } }

/-- A consumed DEBUG_TOKEN or LIFECYCLE draws a new nonce, whatever comes of it (R462). -/
def spendNonce (op : Nat) (s : State) : State := if op = 0xA2 || op = 0xA3 then newNonce s else s

/-- The checks of a consumed packet that stand before its command (R395, R396): the command then waits to be carried out. -/
def checkOp (w : Win) (d : BitVec 32) (s : State) : State :=
  let q := s.window w
  let op := q.req.le 0 1
  match opInfo op with
  | none => answer w d stUnknownOp [] s
  | some (both, sizes) =>
    if !both && winJcw w then answer w d stDenied [] (spendNonce op s)
    else if q.reserved op (field (q.req.le 0 4) 16 11) sizes then answer w d stRsvEnc [] (spendNonce op s)
    else s

/-- The Command Marshal reads a committed packet (R387, R392, R393): v is the value that CMD_COMMIT took. -/
def consume (w : Win) (v : BitVec 32) (s : State) : State :=
  let q := s.window w
  let len := field (q.req.le 0 4) 16 11
  let h := BitVec.ofNat 32 (q.req.le 4 4)
  if v != h || len < 16 || 1024 < len || len % 4 != 0 then turnAway w stBadPacket [] s
  else if h = q.lastHseq + 1 then
    let d := s.takeDseq
    checkOp w d.1 (d.2.onWindow w (fun q => { q with lastHseq := h, cur := some d.1 }))
  else if h = q.lastHseq && !q.cache.isEmpty then sendReply w q.again s
  else turnAway w stGap (leBytes 4 q.lastHseq.toNat) s

/-- A write of CMD_COMMIT (R386, R387, R398): while the Command role is down a COMMIT is latched. -/
def commitWrite (w : Win) (v : BitVec 32) (s : State) : State :=
  match (s.window w).st with
  | .offline => s
  | .busy => s.onWindow w (fun q => { q with commitIgnored := true })
  | _ =>
    let s := s.onWindow w (fun q => { q with st := .busy, reply := [] })
    if s.roleUp 1 then consume w v s else s.onWindow w (fun q => { q with latched := some v })

/-- CMD_COMMIT (R386, R387). -/
def execCmdCommit (w : Win) (v : BitVec 32) (s : State) : Out := s.busWrite <| .next (commitWrite w v s)

/-- The Command Marshal that has come back takes up the COMMITs latched meanwhile, the PCW's first (R389, R398). -/
def serveLatched (s : State) : State :=
  [Win.pcw, Win.jcw].foldl (fun s w =>
    match (s.window w).latched with
    | some v => consume w v (s.onWindow w (fun q => { q with latched := none }))
    | none => s) s

/-- The packets consumed before a restart and not answered get a reply of RESTARTED, long commands end so, and latched COMMITs are
executed (R398). -/
def commandBack (s : State) : State :=
  let s := [Win.pcw, Win.jcw].foldl (fun s w =>
    match (s.window w).cur with
    | some d => answer w d stRestarted [] (spendNonce ((s.window w).req.le 0 1) s)
    | none => s) s
  serveLatched (restartLongs s)

/-! ### ECHO and IDENTIFY -/

/-- ECHO (R396): its data comes back. -/
def execEcho (w : Win) (data : List Byte) (s : State) : Out := s.live <|
  let q := s.window w
  if data == q.req.bytes 16 (field (q.req.le 0 4) 16 11 - 16) then
    command w 0x00 [] (fun _ s => { st := stOk, res := data, s }) s
  else .next s

/-- Lanes of all links that carry data (R396): active transmit lanes (log 37). -/
def State.activeLanes (s : State) : Nat :=
  ((List.range 18).map (fun l => ((s.link l).tx.st.filter (fun p => p == LaneSt.active)).length)).sum

/-- The result of IDENTIFY (R396, log 37). -/
def identity (s : State) : List Byte :=
  pack [(8, s.sec.serial.toNat), (4, s.rev), (4, b2n s.power.orderCode), (8, s.boot.active.toNat + putField 32 s.boot.staged.toNat),
    (4, 256 - s.ras.unmapped.length), (4, 720 - ((List.range 24).map (fun k => (s.stack k).offline.length)).sum),
    (4, s.activeLanes), (4, s.fabWord 0x400)]

/-- IDENTIFY (R396). -/
def execIdentify (w : Win) (s : State) : Out := s.live <| command w 0x01 [] (fun _ s => { st := stOk, res := identity s, s }) s

/-! ### The Journal -/

/-- The 64 bytes of a record (R399). -/
def Rec.bytes (r : Rec) : List Byte :=
  leBytes 8 r.jseq.toNat ++ leBytes 8 r.time.toNat ++ leBytes 4 (r.type.toNat + 65536 * r.cls.toNat) ++ leBytes 4 r.index.toNat
    ++ leBytes 4 r.dseq.toNat ++ leBytes 4 0 ++ ((r.payload ++ List.replicate 8 0).take 8).flatMap (fun v : BitVec 32 => leBytes 4 v.toNat)

/-- The first JSEQ held (R401). -/
def HostPort.firstHeld (h : HostPort) : Nat := h.jhead.toNat - h.recs.length

/-- Write bytes of host memory. -/
def State.hostPut (s : State) (a : Nat) (bs : List Byte) : State :=
  { s with host := { s.host with hostMem := s.host.hostMem.write a bs } }

/-- The held records from a JSEQ on, oldest first (R401). -/
def HostPort.held (h : HostPort) (from_ n : Nat) : List Rec := ((h.recs.reverse).drop (from_ - h.firstHeld)).take n

/-- JOURNAL_FETCH (R396, R401). A command that moves host data waits in D3hot (R380). -/
def execJournalFetch (w : Win) (first : BitVec 64) (count : BitVec 32) (host : BitVec 64) (s : State) : Out := s.live <|
  if s.host.d3hot then .next s
  else command w 0x02 [first.toNat, count.toNat, host.toNat] (fun _ s =>
    if count = 0 || 65536 < count.toNat then refuse stRange s
    else
      let f := s.host.firstHeld
      let rs := if s.host.jhead.toNat < first.toNat then [] else s.host.held (max first.toNat f) count.toNat
      { st := stOk, res := pack [(8, f), (4, rs.length)], s := s.hostPut host.toNat (rs.flatMap Rec.bytes) }) s

/-- MSI-X vector 2 (R402). -/
def signalRing (s : State) : State :=
  signalMsix 2 { s with host := { s.host with jsignalled := s.host.jwritten } }

/-- Records that are no longer held are skipped (R403): JWRITTEN moves on, GAP is set and a JOURNAL_GAP record names them. The
record itself takes a place, so it counts in what is still held. -/
def skipLost (s : State) : State :=
  let h := s.host
  let upto := h.jhead.toNat + 1 - 65536
  if h.jwritten.toNat < h.jhead.toNat - 65536 then
    let s := note 0xF1 0 [lo32 h.jwritten, hi32 h.jwritten, w32 (upto - h.jwritten.toNat), w32 ((upto - h.jwritten.toNat) / 2 ^ 32)]
      noDseq s
    { s with host := { s.host with jwritten := BitVec.ofNat 64 upto, jgap := true } }
  else s

/-- The ring's end: the first JSEQ that it has no room for (R402). -/
def HostPort.ringEnd (h : HostPort) : Nat := h.jtail.toNat + 2 ^ h.jsize.toNat

/-- The ring holds all the unconsumed records that it has room for (R403). -/
def HostPort.ringFull (h : HostPort) : Bool := h.ringEnd ≤ h.jwritten.toNat

/-- The records that can be written are written, and JWRITTEN after them (R402, R403); a full ring takes none. -/
def ringWrite (s : State) : State :=
  let s := if s.host.ringFull then s else skipLost s
  let h := s.host
  let upto := min h.jhead.toNat h.ringEnd
  let full := h.ringEnd ≤ max upto h.jwritten.toNat
  if upto ≤ h.jwritten.toNat then { s with host := { h with jfull := full } }
  else
    let rs := h.held h.jwritten.toNat (upto - h.jwritten.toNat)
    let s := rs.foldl (fun s r => s.hostPut (h.jbase.toNat + 64 * (r.jseq.toNat % 2 ^ h.jsize.toNat)) r.bytes) s
    let s := { s with host := { s.host with jwritten := BitVec.ofNat 64 upto, jfull := full } }
    let s := if h.jheadWb = 0 then s else s.hostPut h.jheadWb.toNat (leBytes 8 upto)
    if h.jmod = 0 then signalRing s else s

/-- JOURNAL_RING_WRITE (R402, R403). -/
def execJournalRingWrite (s : State) : Out := s.live <| when (s.host.jen && s.barsOpen) (ringWrite s) s

/-- CMD_JTAIL_WRITE (R403). -/
def writeJtail (v : BitVec 64) (s : State) : State :=
  let h := { s.host with jtail := v }
  let s := { s with host := { h with jfull := h.jfull && h.ringFull } }
  if h.jen && !h.ringFull then skipLost s else s

/-- CMD_JTAIL_WRITE (R402, R403, R412). -/
def execCmdJtailWrite (v : BitVec 64) (s : State) : Out :=
  s.live <| when s.barsOpen (writeJtail v (dropStage 0 0x3018 s)) s

/-- A write of CMD_JCFG (R402, R406): SIZE_LOG2 takes writes only while EN is 0, and setting EN sets JWRITTEN. -/
def writeJcfg (v : Nat) (s : State) : State :=
  let h := s.host
  let en := bitOf v 0
  let size := field v 1 5
  let h := { h with jmod := BitVec.ofNat 16 (field v 16 16)
                    jsize := if !h.jen && 6 ≤ size && size ≤ 20 then BitVec.ofNat 5 size else h.jsize
                    jwritten := if en && !h.jen then h.jtail else h.jwritten
                    jsignalled := if en && !h.jen then h.jtail else h.jsignalled
                    jen := en }
  { s with host := h }

/-- CMD_JCFG_WRITE (R402, R406). -/
def execCmdJcfgWrite (v : BitVec 32) (s : State) : Out := s.live <| when s.barsOpen (writeJcfg v.toNat s) s

/-- JOURNAL_MOD_TIMER (R402): at the next multiple of MOD µs of Stride Time (log 34), if JWRITTEN has advanced. -/
def execJournalModTimer (s : State) : Out := s.live <|
  let per := s.host.jmod.toNat * 1000
  if per = 0 then .next s
  else
    let s := s.advanceTo ((s.now.toNat / per + 1) * per)
    .next (if s.host.jwritten != s.host.jsignalled then signalRing s else s)

/-! ### BAR2 and BAR4 -/

/-- A BAR2 write outside the JCW (R383). -/
def strayBar2 (off : Nat) (s : State) : State :=
  let first := !s.host.bar2Write
  let s := { s with host := { s.host with bar2Cnt := satAdd s.host.bar2Cnt 1, bar2Write := true } }
  if first then note 0xF3 0 [w32 off] noDseq s else s

/-- BAR2_WRITE (R383): a write at an offset of the JCW is REGISTER_WRITE's. -/
def execBar2Write (off : Nat) (s : State) : Out := s.live <|
  when (s.barsOpen && 0x1000 ≤ off && off < 0x100000) (strayBar2 off s) s

/-- A BAR4 access fails (R384, R406, R415): BAR4_ERR is set and the first address is kept. -/
def bar4Fail (a : Nat) (s : State) : State :=
  let h := s.host
  { s with host := { h with bar4Err := true, bar4ErrAddr := if h.bar4Err then h.bar4ErrAddr else BitVec.ofNat 48 a } }

/-- Why an access of BAR4 fails: an address beyond 2^48, unmapped or reserved, or a Reservoir while the Plots are off (R145, R384,
R465). -/
def State.bar4Bad (s : State) (a n : Nat) : Bool :=
  2 ^ 48 < a + n || s.memErr none a n != 0
    || (s.power.st == .retain && (spaces a n).any (fun q => spaceOf q.1 != .hbm))

/-- The 32 B units of a run that lie in HBM are read as demand reads, with what the ECC finds in each (R163). -/
def demandUnits (a n : Nat) (errs : List (Nat × UnitErr)) (s : State) : State :=
  (pieces 32 a n).zipIdx.foldl (fun s (q, i) =>
    if spaceOf q.1 != .hbm then s
    else match s.hbmAt (q.1 / 32 * 32) with
      | none => s
      | some (k, sb) => readUnit k ((s.stack k).serve (lchOf sb) (caOf sb)) (caOf sb) sb (errOf errs i) (.demand none) s) s

/-- Device address of BAR4 offset 0 (R384). -/
def HostPort.bar4At (h : HostPort) (off : Nat) : Nat := h.bar4Base.toNat * 2 ^ 30 + off

/-- The size selected for BAR4 (R381): 1 to 64 GiB. -/
def HostPort.bar4Size (h : HostPort) : Nat := 2 ^ (30 + min 6 h.bar4Log.toNat)

/-- BAR4_READ (R137, R384): `errs` names what the ECC finds in the 32 B units of the run, `ecc` what SECDED finds in Reservoirs. -/
def execBar4Read (off len : Nat) (errs : List (Nat × UnitErr)) (ecc : List (Nat × EccHit)) (s : State) : Out := s.live <|
  let a := s.host.bar4At off
  if !s.barsOpen || s.host.bar4Size < off + len || len = 0 then .next s
  else if s.bar4Bad a len then
    let s := bar4Fail a s
    .next { s with host := { s.host with bar4Data := [], bar4Status := 2 } }
  else if s.memWaits a len then .next s
  else
    let r := devRead none a len ecc (demandUnits a len errs s)
    .next { r.2 with host := { r.2.host with
      bar4Data := r.1.bytes, bar4Status := if r.1.bad.isEmpty then 0 else 1
      aerPoisoned := r.2.host.aerPoisoned || !r.1.bad.isEmpty } }

/-- BAR4_WRITE (R135, R384). -/
def execBar4Write (off : Nat) (data : List Byte) (ecc : List (Nat × EccHit)) (s : State) : Out := s.live <|
  let a := s.host.bar4At off
  if !s.barsOpen || s.host.bar4Size < off + data.length || data.isEmpty then .next s
  else if s.bar4Bad a data.length then .next (bar4Fail a s)
  else if s.memWaits a data.length then .next s
  else .next (devWrite none a data [] ecc s).2

/-- CMD_BAR4_BASE_WRITE (R384, R406): the commands of the block are taken one at a time, so earlier requests have completed. -/
def writeBar4Base (v : Nat) (s : State) : State :=
  { s with host := { s.host with bar4Base := BitVec.ofNat 18 (field v 30 18) } }

/-- CMD_BAR4_BASE_WRITE (R384, R412). -/
def execCmdBar4BaseWrite (v : BitVec 64) (s : State) : Out :=
  s.live <| when s.barsOpen (writeBar4Base v.toNat (dropStage 0 0x3108 s)) s

end Sys2Proof.Machine
end

