-- ==== Sys2Proof/Machine/HostDma.lean ====
section
/-! DEFINITION. The host's Plot commands PLAN_LOAD, RUN_CONTROL and FLAG_RAISE (R91, R106, R115, R396) and the host transfers
(R396, R397). -/

namespace Sys2Proof.Machine

/-! ### Plot commands -/

/-- Bytes of one entry, and entries, of a table that PLAN_LOAD loads (R98, R115, R150, R396). -/
def planTable (kind : Nat) : Nat × Nat := if kind = 0 then (16, 4096) else (32, 256)

/-- A table of a Plot with bytes put at entry `first`. -/
def Plot.loadTable (x : Plot) (kind first : Nat) (bs : List Byte) : Plot :=
  let a := first * (planTable kind).1
  match kind with
  | 0 => { x with stepMem := x.stepMem.write a bs }
  | 1 => { x with vtab := x.vtab.write a bs }
  | _ => { x with dtab := x.dtab.write a bs }

/-- PLAN_LOAD (R115, R137, R396): SRC is a device address (DEDUCED, log 38). Poisoned data is not loaded: the Plots are refused. -/
def planLoad (pset : BitVec 256) (kind first count src : Nat) (ecc : List (Nat × EccHit)) (s : State) : Reply :=
  let t := planTable kind
  let n := count * t.1
  if 2 < kind then refuse stRsvEnc s
  else if s.psetBad pset || t.2 < first + count || 2 ^ 48 < src + n || s.memErr none src n != 0 then refuse stRange s
  else if s.power.st == .retain then refuse stState s
  else
    let g := devRead none src n ecc s
    let ps := s.psetPhys pset
    if !g.1.bad.isEmpty then { st := stFailed, res := pack [(4, 3)], s := g.2 }
    else
      let no := ps.filter (fun e => (s.plot e.2).pacer.st != .stopped)
      let s := (ps.filter (fun e => (s.plot e.2).pacer.st == .stopped)).foldl
        (fun s e => s.onPlot e.2 (fun x => x.loadTable kind first g.1.bytes)) g.2
      { st := stOk, res := pack [(32, (psetOf (no.map (·.1))).toNat)], s }

/-- PLAN_LOAD (R115, R396): it waits for HBM that cannot be read yet. -/
def execPlanLoad (w : Win) (pset : BitVec 256) (kind first count : BitVec 32) (src : BitVec 64) (ecc : List (Nat × EccHit)) (s : State) : Out := s.live <|
  if s.power.st != .retain && s.memWaits src.toNat (count.toNat * (planTable kind.toNat).1) then .next s
  else command w 0x10 [pset.toNat, kind.toNat, first.toNat, count.toNat, src.toNat]
    (fun _ s => planLoad pset kind.toNat first.toNat count.toNat src.toNat ecc s) s

/-- A run control reaches each Plot of its set in logical order (R91, R242, R396): the STATUS is that of the first Plot that does
not carry it out. -/
def runControl (pset lost : BitVec 256) (act : Nat → Nat → State → Option State) (s : State) : Reply :=
  let go (acc : List Nat × List Nat × State) (e : Nat × Nat) : List Nat × List Nat × State :=
    if lost.getLsbD e.1 then (acc.1, acc.2.1 ++ [e.1], acc.2.2)
    else match act e.1 e.2 acc.2.2 with
      | some t => (acc.1, acc.2.1, t)
      | none => (acc.1 ++ [e.1], acc.2.1, acc.2.2)
  let r := (s.psetPhys pset).foldl go ([], [], s)
  let st := match r.1.head?, r.2.1.head? with
    | none, none => stOk
    | some _, none => stRefused
    | none, some _ => stSuperseded
    | some a, some b => if a < b then stRefused else stSuperseded
  { st, res := pack [(32, (psetOf r.1).toNat), (32, (psetOf r.2.1).toNat)], s := r.2.2 }

/-- The checks that stand before a run control (R396, R467, R481): starts and resumes are refused with STATE while the Plots are
off. `rivals` are the other orders on each logical Plot in its cycle (R242). -/
def runControlCmd (w : Win) (pset : BitVec 256) (control : Nat) (entry : BitVec 32) (rivals : List (Nat × Order))
    (act : Nat → Nat → State → Option State) (s : State) : Out :=
  command w 0x11 [pset.toNat, control, entry.toNat] (fun _ s =>
    if s.psetBad pset || (control = 0 && entry != 0xFFFFFFFF && 4095 < entry.toNat) then refuse stRange s
    else if s.power.st == .retain || ((control = 0 || control = 3) && s.plotsOff) then refuse stState s
    else runControl pset (s.lostAt (winOrder w) rivals) act s) s

/-- RUN_CONTROL start (R91, R396). -/
def execRunControlStart (w : Win) (pset : BitVec 256) (entry : BitVec 32) (rivals : List (Nat × Order)) (s : State) : Out :=
  s.live <|
  runControlCmd w pset 0 entry rivals
    (fun _ p s => tryStart p (if entry = 0xFFFFFFFF then none else some (BitVec.ofNat 12 entry.toNat)) s) s

/-- RUN_CONTROL stop (R91, R92, R396). -/
def execRunControlStop (w : Win) (pset : BitVec 256) (entry : BitVec 32) (rivals : List (Nat × Order)) (trapped : BitVec 256)
    (ecc : List (Nat × EccHit)) (s : State) : Out := s.live <|
  runControlCmd w pset 1 entry rivals (fun l p s => unlessTrapped trapped l p (tryStop p (hitsOf p ecc)) s) s

/-- RUN_CONTROL pause (R91, R92, R396). -/
def execRunControlPause (w : Win) (pset : BitVec 256) (entry : BitVec 32) (rivals : List (Nat × Order)) (trapped : BitVec 256)
    (s : State) : Out := s.live <|
  runControlCmd w pset 2 entry rivals (fun l p s => unlessTrapped trapped l p (tryPause p) s) s

/-- RUN_CONTROL resume (R91, R396). -/
def execRunControlResume (w : Win) (pset : BitVec 256) (entry : BitVec 32) (rivals : List (Nat × Order)) (s : State) : Out :=
  s.live <| runControlCmd w pset 3 entry rivals (fun _ p s => tryResume p s) s

/-- FLAG_RAISE (R106, R396). -/
def execFlagRaise (w : Win) (pset : BitVec 256) (flag : BitVec 32) (s : State) : Out := s.live <|
  command w 0x13 [pset.toNat, flag.toNat] (fun _ s =>
    if s.psetBad pset || 63 < flag.toNat then refuse stRange s
    else if s.power.st == .retain then refuse stState s
    else done ((s.psetPhys pset).foldl (fun s e => raiseLocal e.2 flag.toNat s) s)) s

/-! ### Host transfers -/

/-- Start a host transfer (R394, R397). -/
def startHostDma (w : Win) (kind : HostKind) (d : BitVec 32) (list count : Nat) (pattern : BitVec 32) (s : State) : Reply :=
  let h := BitVec.ofNat 32 ((s.window w).req.le 4 4)
  let t : HostDma := { kind, win := w, hseq := h, dseq := d, list, count, pattern }
  { st := stAccepted, s := { s with host := { s.host with dmas := s.host.dmas ++ [t] } } }

/-- A list transfer (R396, R397). -/
def listDma (w : Win) (op : Nat) (kind : HostKind) (list : BitVec 64) (count : BitVec 32) (s : State) : Out :=
  command w op [list.toNat, count.toNat] (fun d s =>
    if count = 0 || 4096 < count.toNat then refuse stRange s
    else startHostDma w kind d list.toNat count.toNat 0 s) s

/-- DMA_TO_DEVICE (R396, R397). -/
def execDmaToDevice (w : Win) (list : BitVec 64) (count : BitVec 32) (s : State) : Out := s.live <| listDma w 0x20 .toDevice list count s

/-- DMA_TO_HOST (R396, R397). -/
def execDmaToHost (w : Win) (list : BitVec 64) (count : BitVec 32) (s : State) : Out := s.live <| listDma w 0x21 .toHost list count s

/-- DMA_FILL (R396): DST and its bytes must be mapped. -/
def execDmaFill (w : Win) (dst bytes : BitVec 64) (pattern : BitVec 32) (s : State) : Out := s.live <|
  command w 0x22 [dst.toNat, bytes.toNat, pattern.toNat] (fun d s =>
    if bytes = 0 || 2 ^ 48 < dst.toNat + bytes.toNat || s.memErr none dst.toNat bytes.toNat != 0 then refuse stRange s
    else startHostDma w .fill d dst.toNat bytes.toNat pattern s) s

/-- A list entry (R397). -/
structure ListE where
  /-- HOST -/
  host : Nat
  /-- DEVICE -/
  dev : Nat
  /-- BYTES -/
  bytes : Nat
  /-- RAISE -/
  raise : Nat
  /-- a reserved field is not 0, or BYTES is out of range -/
  bad : Bool

/-- Read list entry i of a transfer from host memory (R397). -/
def listEntry (m : Mem) (a : Nat) : ListE :=
  let n := m.le (a + 16) 8
  let r := m.le (a + 24) 4
  { host := m.le a 8, dev := m.le (a + 8) 6, bytes := n, raise := r,
    bad := n = 0 || 2 ^ 32 < n || m.le (a + 14) 2 != 0 || m.le (a + 28) 4 != 0 || field r 0 7 != 0 || field r 22 10 != 0 }

/-- An entry's RAISE (R106, R397): one that names an unmapped Plot is dropped (log 39). -/
def listRaise (r : Nat) (s : State) : State :=
  if bitOf r 7 then
    match s.phys? (field r 14 8) with
    | some p => raiseLocal p (field r 8 6) s
    | none => s
  else s

/-- A host transfer leaves, with its CMD_DONE (R394, R397). -/
def endHostDma (k : Nat) (t : HostDma) (st : Nat) (res : List (BitVec 32)) (s : State) : State :=
  let op := match t.kind with | .toDevice => 0x20 | .toHost => 0x21 | .fill => 0x22
  cmdDone t.win t.hseq op t.dseq st res { s with host := { s.host with dmas := s.host.dmas.eraseIdx k } }

/-- The destination bytes of a device run after an entry that failed: what landed of it is not defined, so they are free values
(R397, log 2). -/
def freeRun (a n : Nat) (s : State) : State :=
  (pieces 256 a n).foldl (fun s q =>
    if s.memErr none q.1 q.2 != 0 then s
    else
      let b := s.drawBytes q.2
      (devWrite none q.1 b.1 [] [] b.2).2) s

/-- Why an entry's device run fails (R156, R397): 0, 1 UNMAPPED or 2 RANGE. -/
def State.listErr (s : State) (e : ListE) : Nat :=
  if e.bad || 2 ^ 48 < e.dev + e.bytes then 2 else s.memErr none e.dev e.bytes

/-- The data of a list entry moves (R135, R137, R397): 0, or the cause of its failure. -/
def moveEntry (t : HostDma) (e : ListE) (ecc : List (Nat × EccHit)) (s : State) : Nat × State :=
  let c := s.listErr e
  if c != 0 then (c, if t.kind == .toDevice && !e.bad then freeRun e.dev e.bytes s else s)
  else if t.kind == .toDevice then (0, (devWrite none e.dev (s.host.hostMem.bytes e.host e.bytes) [] ecc s).2)
  else
    let g := devRead none e.dev e.bytes ecc s
    if g.1.bad.isEmpty then (0, g.2.hostPut e.host g.1.bytes)
    else
      let b := g.2.drawBytes e.bytes
      (3, b.2.hostPut e.host b.1)

/-- The next list entry of transfer k completes or fails (R397). -/
def nextEntry (k : Nat) (t : HostDma) (e : ListE) (ecc : List (Nat × EccHit)) (s : State) : State :=
  let r := moveEntry t e ecc s
  if r.1 != 0 then endHostDma k t stFailed [w32 t.next, w32 r.1] r.2
  else
    let n := t.bytes + e.bytes
    let s := listRaise e.raise r.2
    if t.next + 1 = t.count then endHostDma k t stOk [w32 n, w32 (n / 2 ^ 32)] s
    else { s with host := { s.host with dmas := s.host.dmas.set k { t with next := t.next + 1, bytes := n } } }

/-- HOST_DMA_ENTRY_COMPLETE (R380, R397): host data does not move in D3hot, and the Command role posts CMD_DONE (R398). -/
def execHostDmaEntryComplete (k : Nat) (ecc : List (Nat × EccHit)) (s : State) : Out := s.live <|
  match s.host.dmas[k]? with
  | none => .next s
  | some t =>
    let e := listEntry s.host.hostMem (t.list + 32 * t.next)
    if t.kind == .fill || !s.barsOpen || !s.roleUp 1 || (s.listErr e = 0 && s.memWaits e.dev e.bytes) then .next s
    else .next (nextEntry k t e ecc s)

/-- The bytes of a fill (R396): the pattern repeats from DST. -/
def fillBytes (pattern : BitVec 32) (n : Nat) : List Byte :=
  let p := leBytes 4 pattern.toNat
  (List.range n).map (fun i => p.getD (i % 4) 0)

/-- DMA_FILL_COMPLETE (R135, R396): a region changed meanwhile fails the command. -/
def execDmaFillComplete (k : Nat) (ecc : List (Nat × EccHit)) (s : State) : Out := s.live <|
  match s.host.dmas[k]? with
  | none => .next s
  | some t =>
    if t.kind != .fill || !s.roleUp 1 || (s.memErr none t.list t.count = 0 && s.memWaits t.list t.count) then
      .next s
    else
      let r := devWrite none t.list (fillBytes t.pattern t.count) [] ecc s
      .next (if r.1 = 0 then endHostDma k t stOk [] r.2 else endHostDma k t stFailed [0, w32 r.1] (freeRun t.list t.count r.2))

end Sys2Proof.Machine
end

