-- ==== Sys2Proof/Machine/Boot.lean ====
section
/-! DEFINITION. Key manifests and firmware images (R449 to R452), the boot window (R431, R432), the Marshals' crashes, restarts and
takeovers (R438 to R442) and firmware replaced in service (R443, R444). -/

namespace Sys2Proof.Machine

/-! ### Manifests, images and the checks of R451 -/

/-- Change the boot block. -/
def State.onBoot (s : State) (f : Boot → Boot) : State := { s with boot := f s.boot }

/-- Change the security block. -/
def State.onSec (s : State) (f : Sec → Sec) : State := { s with sec := f s.sec }

/-- n bytes from offset o. -/
def cut (b : List Byte) (o n : Nat) : List Byte := (b.drop o).take n

/-- A little-endian word of n bytes at offset o. -/
def leAt (b : List Byte) (o n : Nat) : Nat := leNat (cut b o n)

/-- Every byte of a run is zero. -/
def zeroAt (b : List Byte) (o n : Nat) : Bool := (cut b o n).all (· = 0)

/-- Bits burned in the SVN fuses: the minimum security version (R448). -/
def Sec.svnMin (c : Sec) : Nat := ((List.range 64).filter (fun i => c.svn.getLsbD i)).length

/-- A manifest's MAGIC and reserved fields (R449). -/
def manifestOk (b : List Byte) : Bool := leAt b 0 4 = 0x314D4B56 && field (leAt b 4 4) 11 21 = 0 && zeroAt b 0x48 0x18

/-- KEY_ID of a manifest (R449). -/
def keyId (b : List Byte) : Nat := field (leAt b 4 4) 0 4

/-- Checks 2 to 6 of R451 on a manifest and what it signs, for a PURPOSE bit and an LC_MASK of the signed part: the first that
fails. The signed bytes are 0xA0 to 0x1BF. -/
def keyStep (c : Sec) (b : List Byte) (purpose lcMask : Nat) : Option Nat :=
  let pub := cut b 8 32
  let key := cut b 0x28 32
  let w := leAt b 4 4
  if sha512 pub != c.rootHash then some 2
  else if !edVerify pub (cut b 0 0x60) (cut b 0x60 64) then some 3
  else if c.revoke.getLsbD (keyId b) then some 4
  else if !bitOf w purpose || !bitOf w (7 + c.lc.toNat) || !bitOf lcMask c.lc.toNat then some 5
  else if !edVerify key (cut b 0xA0 0x120) (cut b 0x1C0 64) then some 6
  else none

/-- VERSION of an image (R450). -/
def imgVersion (b : List Byte) : Nat := leAt b 0xA4 4
/-- SVN of an image (R450). -/
def imgSvn (b : List Byte) : Nat := field (leAt b 0xA8 4) 0 7
/-- STATE_VER of an image (R450). -/
def imgStateVer (b : List Byte) : Nat := leAt b 0xAC 4
/-- BODY_HASH of an image (R450). -/
def imgBodyHash (b : List Byte) : List Byte := cut b 0xD8 64
/-- OFFSET and LENGTH of the sections of roles 1 to 4 (R450). -/
def imgSections (b : List Byte) : List (Nat × Nat) := (List.range 4).map (fun r => (leAt b (0xB8 + 8 * r) 4, leAt b (0xBC + 8 * r) 4))

/-- MAGIC and reserved fields of an image's header, and its BYTES (R450, R451 step 1). -/
def imgHeadOk (b : List Byte) : Bool :=
  manifestOk b && leAt b 0xA0 4 = 0x31484956 && field (leAt b 0xA8 4) 8 24 = 0 && field (leAt b 0xB0 4) 4 28 = 0
    && zeroAt b 0x118 0xA8 && leAt b 0xB4 4 = b.length

/-- Two sections do not overlap. -/
def apart (p q : Nat × Nat) : Bool := p.1 + p.2 ≤ q.1 || q.1 + q.2 ≤ p.1 || p.2 = 0 || q.2 = 0

/-- The sections of an image lie right (R451 step 9). -/
def sectionsOk (b : List Byte) : Bool :=
  let ss := imgSections b
  ss.all (fun p => p.1 % 4096 = 0 && 0x1000 ≤ p.1 && p.1 + p.2 ≤ b.length)
    && ss.zipIdx.all (fun p => (ss.drop (p.2 + 1)).all (apart p.1))

/-- The first check of R451 that an image fails. -/
def imageStep (c : Sec) (b : List Byte) : Option Nat :=
  if !imgHeadOk b then some 1
  else match keyStep c b 4 (leAt b 0xB0 4) with
    | some k => some k
    | none =>
      if imgSvn b < c.svnMin then some 7
      else if imgBodyHash b != sha512 (b.drop 0x200) then some 8
      else if !sectionsOk b then some 9
      else none

/-- The lowest SVN fuses not burned are burned until n are (R452). -/
def burnSvn (n : Nat) (c : Sec) : Sec :=
  (List.range 64).foldl (fun c i => if c.svnMin < n then { c with svn := c.svn ||| (1 <<< i) } else c) c

/-- An image becomes the active slot with every role running from it (R452). -/
def commitSvn (img : List Byte) (s : State) : State :=
  let n := imgSvn img
  if bitOf (leAt img 0xA8 4) 7 && s.sec.lc = 2 && s.sec.svnMin < n then
    note 0xC5 0 [w32 n] noDseq (s.onSec (burnSvn n))
  else s

/-- The image in a slot (R431). -/
def Boot.image (b : Boot) (slot : Bool) : List Byte := if slot then b.slotB else b.slotA

/-- Put an image into a slot, with the hash recorded at its verification (R431, R433). -/
def Boot.setImage (b : Boot) (slot : Bool) (img hash : List Byte) : Boot :=
  if slot then { b with slotB := img, hashB := hash } else { b with slotA := img, hashA := hash }

/-- A rejected image (R399, R451, R471): SEC_BOOTERR and IMAGE_REJECT; d is the DSEQ of the command that staged it. -/
def rejectImage (step : Nat) (slot : Bool) (img : List Byte) (d : BitVec 32) (s : State) : State :=
  note 0xC4 (b2n slot) [w32 step, w32 (imgVersion img), w32 (imgSvn img)] d
    (s.onSec (fun c => { c with bootErr := BitVec.ofNat 4 step, bootErrSlot := slot }))

/-! ### The boot window -/

/-- Image lengths (R446). -/
def imgLenOk (n : Nat) : Bool := 4096 ≤ n && n ≤ 12582912

/-- The bytes of an image in device memory, none where they are unmapped or poisoned (R137, R432, R446). -/
def readImage (a n : Nat) (ecc : List (Nat × EccHit)) (s : State) : Option (List Byte) × State :=
  if !imgLenOk n || 2 ^ 48 < a + n || s.memErr none a n != 0 then (none, s)
  else
    let g := devRead none a n ecc s
    (if g.1.bad.isEmpty then some g.1.bytes else none, g.2)

/-- GO (R431, R432): the image is copied into slot A. -/
def bootGo (ecc : List (Nat × EccHit)) (s : State) : State :=
  if s.boot.st == .ready || s.boot.st == .rejected then
    let r := readImage s.boot.addr.toNat s.boot.len.toNat ecc s
    r.2.onBoot (fun b => { b.setImage false (r.1.getD []) [] with st := .loading, code := 0 })
  else s

/-- BOOT_GO (R432). -/
def execBootGo (ecc : List (Nat × EccHit)) (s : State) : Out := s.busWrite <| .next (bootGo ecc s)

/-- Marshal m. -/
def State.marshal (s : State) (m : Nat) : Marshal := s.boot.marshals.getD m {}

/-- Change Marshal m. -/
def State.onMarshal (s : State) (m : Nat) (f : Marshal → Marshal) : State :=
  s.onBoot (fun b => { b with marshals := listUpd b.marshals m f })

/-- The Marshal that holds a role (R429, R446). -/
def State.holder (s : State) (role : Nat) : Option Nat :=
  (List.range 6).find? (fun m => (s.marshal m).role.toNat = role)

/-- Marshal m is a usable spare (R429, R439): it holds no role, is in reset and has not failed. -/
def State.spareMarshal (s : State) (m : Nat) : Bool :=
  (s.marshal m).role = 0 && (s.marshal m).st == .off && !s.boot.mFailed.getLsbD m

/-- The first usable spare. -/
def State.firstSpare (s : State) : Option Nat := (List.range 6).find? s.spareMarshal

/-- Usable spares left. -/
def State.sparesLeft (s : State) : Nat := ((List.range 6).filter s.spareMarshal).length

/-- The Marshals that hold roles start from a slot (R431, R433). -/
def startRoles (slot : Bool) (s : State) : State :=
  s.onBoot (fun b => { b with marshals := b.marshals.map (fun m =>
    if m.role = 0 then m else { m with st := .running, slot := slot, wdog := s.now }) })

/-- Both windows read IDLE (R386, R431). -/
def openWindows (s : State) : State :=
  let f (q : Window) : Window := if q.st == .offline then { q with st := .idle } else q
  (s.onWindow .pcw f).onWindow .jcw f

/-- A spare that fails its self-test is marked FAILED (R431). -/
def failSpare (s : State) (m : Nat) : State :=
  if s.spareMarshal m then (s.onBoot (fun b => { b with mFailed := b.mFailed ||| (1 <<< m) })).onMarshal m (fun x => { x with st := .failed })
  else s

/-- The loaded image is rejected (R432, R446). -/
def bootReject (code : Nat) (s : State) : State := s.onBoot (fun b => { b with st := .rejected, code := BitVec.ofNat 8 code })

/-- Verification ends under GO (R431, R451, R452). -/
def bootVerified (spareFails : List Nat) (s : State) : State :=
  let img := s.boot.slotA
  if img.isEmpty then bootReject (if imgLenOk s.boot.len.toNat then 2 else 1) s
  else match imageStep s.sec img with
    | some k => bootReject 3 (rejectImage k false img noDseq (s.onBoot (fun b => b.setImage false [] [])))
    | none =>
      let s := spareFails.foldl failSpare s
      let s := s.onBoot (fun b =>
        { b.setImage false img (sha512 img) with st := .running, code := 0, slot := false,
                                                 active := BitVec.ofNat 32 (imgVersion img), staged := 0 })
      let s := openWindows (startRoles false s)
      commitSvn img (note 0x70 0 [w32 (imgVersion img), 0] noDseq s)

/-- BOOT_VERIFY_COMPLETE (R431, R451). -/
def execBootVerifyComplete (spareFails : List Nat) (s : State) : Out := s.live <|
  when (s.boot.st == .loading) (bootVerified spareFails s) s

/-! ### The hold governor -/

/-- POWER_HOLD (R445). -/
def powerHold (entry cap ns : Nat) (s : State) : State := note 0x75 0 [w32 entry, w32 cap, w32 ns, w32 (ns / 2 ^ 32)] noDseq s

/-- The hold governor engages (R440). -/
def engageHold (s : State) : State :=
  if s.power.hold then s
  else
    let cap := s.power.capAtGrant * 95 / 100
    powerHold 1 cap 0 (s.onPower (fun q =>
      { q with hold := true, capHold := BitVec.ofNat 16 cap, holdSince := s.now,
               islands := q.islands.map (fun d => { d with fLast := d.grant, wanted := 0 }) }))

/-! ### Crashes -/

/-- A Marshal stops to be restarted (R439): the time is kept for MARSHAL_UP. -/
def stopMarshal (m : Nat) (st : MState) (s : State) : State := s.onMarshal m (fun x => { x with st := st, wdog := s.now, halted := false })

/-- A role moves from one Marshal to another (R439, R444). -/
def moveRole (role from_ dest : Nat) (slot : Bool) (st : MState) (s : State) : State :=
  let s := s.onMarshal dest (fun x => { x with role := BitVec.ofNat 3 role, st := st, slot := slot, wdog := s.now, drop := 0 })
  s.onBoot (fun b => { b with roleMap := b.roleMap.set (role - 1) dest
                              marshals := listUpd b.marshals from_ (fun x => { x with role := 0 }) })

/-- A role's third crash within 3,600 s (R439): a usable spare takes the role, or MARSHAL_NOSPARE is posted once in that time and
the role restarts in place. -/
def takeover (role m : Nat) (s : State) : State :=
  match s.firstSpare with
  | some n =>
    let slot := (s.marshal m).slot
    let s := (moveRole role m n slot .starting s).onMarshal m (fun x => { x with st := .failed })
    let s := s.onBoot (fun b => { b with roleFuse := b.roleFuse.set (role - 1) n, mFailed := b.mFailed ||| (1 <<< m) })
    event 0x73 3 n [w32 role, w32 m, w32 s.sparesLeft] noDseq s
  | none =>
    let s := stopMarshal m .restarting s
    let due : Bool := match s.boot.noSpare.get? role with
      | some t => 3600000000000 < s.now.toNat - t.toNat
      | none => true
    if due then event 0x74 2 m [w32 role] noDseq (s.onBoot (fun b => { b with noSpare := b.noSpare.put role s.now })) else s

/-- The windows are not served while the Command role stays down after a failed hash check (R386). -/
def closeWindows (s : State) : State :=
  let f (q : Window) : Window := { q with st := .offline, latched := none, cur := none }
  (s.onWindow .pcw f).onWindow .jcw f

/-- Marshal m has crashed (R438 to R440). -/
def crash (m cause : Nat) (pc : BitVec 64) (hashOk : Bool) (s : State) : State :=
  let role := (s.marshal m).role.toNat
  let keep := s.boot.crashes.filter (fun c => s.now.toNat - c.2.toNat ≤ 3600000000000)
  let s := (s.onBoot (fun b => { b with crashes := (role, s.now) :: keep })).onMarshal m (fun x =>
    { x with cause := BitVec.ofNat 4 cause })
  let n := s.crashCount role
  let s := event 0x71 1 m [w32 role, w32 cause, w32 n, lo32 pc, hi32 pc] noDseq s
  let s := if role = 2 then engageHold s else s
  if !hashOk then
    let s := (stopMarshal m .off s).onMarshal m (fun x => { x with cause := 4 })
    deviceFatal 1 m (if role = 1 then closeWindows s else s)
  else if 3 ≤ n then takeover role m s
  else stopMarshal m .restarting s

/-- Marshal m holds a role and runs, so it can crash. -/
def State.crashable (s : State) (m : Nat) : Bool :=
  m < 6 && (s.marshal m).role != 0 && (s.marshal m).st == .running

/-- WATCHDOG_EXPIRY (R438, R439): 10,000,000 Stride ns after the last watchdog write. -/
def execWatchdogExpiry (m : Nat) (hashOk : Bool) (s : State) : Out := s.live <|
  if s.crashable m then
    .next (crash m 1 0 hashOk (s.advanceTo ((s.marshal m).wdog.toNat + 10000000)))
  else .next s

/-- MARSHAL_FAULT (R438, R439): a trap, an uncorrectable SRAM error or a bad access, CAUSE 2, 3 or 5. -/
def execMarshalFault (m : Nat) (cause : BitVec 4) (pc : BitVec 64) (hashOk : Bool) (s : State) : Out := s.live <|
  when (s.crashable m && (cause = 2 || cause = 3 || cause = 5)) (crash m cause.toNat pc hashOk s) s

/-- A MARSHAL_RESTART command in progress for a role. -/
def State.restartDseq (s : State) (role : Nat) : BitVec 32 := longDseq s (fun l => l.op = 0xF3 && l.arg = role)

/-- A role runs again (R398, R439). -/
def roleUpAgain (role m : Nat) (s : State) : State :=
  let d := s.restartDseq role
  let us := (s.now.toNat - (s.marshal m).wdog.toNat) / 1000
  let s := s.onMarshal m (fun x => { x with st := .running, wdog := s.now })
  let s := note 0x72 m [w32 role, w32 (b2n (s.marshal m).slot), w32 us] d s
  let s := if role = 1 then commandBack s else s
  finishLong d stOk [] s

/-- MARSHAL_RESTART_COMPLETE (R439, R442). -/
def execMarshalRestartComplete (role : Nat) (s : State) : Out := s.live <|
  match s.holder role with
  | some m => when (role != 0 && ((s.marshal m).st == .restarting || (s.marshal m).st == .starting)) (roleUpAgain role m s) s
  | none => .next s

/-- MARSHAL_RESTART (R396, R442). -/
def execMarshalRestart (w : Win) (role : BitVec 32) (s : State) : Out := s.live <|
  command w 0xF3 [role.toNat] (fun d s =>
    if role = 0 || 4 < role.toNat then refuse stRange s
    else match s.holder role.toNat with
      | some m => if s.roleUp role.toNat then accept w 0xF3 d role.toNat (stopMarshal m .restarting s) else refuse stState s
      | none => refuse stState s) s

/-- GRANT_MISSING (R438, R440): 20 loop periods pass without a grant. -/
def execGrantMissing (s : State) : Out := s.live <|
  when (s.boot.st == .running && !s.power.hold) (engageHold (s.advanceTo (s.power.lastGrant.toNat + 20000))) s

/-! ### Firmware replaced in service -/

/-- The slot that holds no image a Marshal runs from (R443): the one that is not active. -/
def State.freeSlot (s : State) : Bool := !s.boot.slot

/-- Roles run from both slots (R444). -/
def State.bothSlots (s : State) : Bool := s.boot.marshals.any (fun m => m.role != 0 && m.slot == s.freeSlot)

/-- A firmware command in progress, with its object. -/
def State.fwLong (s : State) (op : Nat) : Option Long := s.host.longs.find? (fun l => l.op.toNat = op)

/-- FW_STAGE (R443, R444): the image is copied into the free slot, and its verification runs. -/
def fwStage (w : Win) (addr n : Nat) (ecc : List (Nat × EccHit)) (d : BitVec 32) (s : State) : Reply :=
  if s.bothSlots || (s.fwLong 0xF0).isSome || (s.fwLong 0xF1).isSome then refuse stState s
  else if !imgLenOk n || 2 ^ 48 < addr + n || s.memErr none addr n != 0 then refuse stRange s
  else match readImage addr n ecc s with
    | (none, t) => { st := stFailed, res := pack [(4, 3)], s := t }
    | (some img, t) => accept w 0xF0 d 0 (t.onBoot (fun b => { b.setImage s.freeSlot img [] with staged := 0 }))

/-- FW_STAGE (R443, R396): it waits for HBM that cannot be read yet. -/
def execFwStage (w : Win) (addr : BitVec 64) (bytes : BitVec 32) (ecc : List (Nat × EccHit)) (s : State) : Out := s.live <|
  if imgLenOk bytes.toNat && s.memWaits addr.toNat bytes.toNat then .next s
  else command w 0xF0 [addr.toNat, bytes.toNat] (fun d s => fwStage w addr.toNat bytes.toNat ecc d s) s

/-- FW_STAGE_COMPLETE (R443, R451). -/
def execFwStageComplete (s : State) : Out := s.live <|
  match s.fwLong 0xF0 with
  | none => .next s
  | some l =>
    let slot := s.freeSlot
    let img := s.boot.image slot
    if !s.roleUp 1 then .next s
    else match imageStep s.sec img with
      | some k =>
        .next (finishLong l.dseq stFailed [w32 k] (rejectImage k slot img l.dseq (s.onBoot (fun b => b.setImage slot [] []))))
      | none =>
        .next (finishLong l.dseq stOk [] (s.onBoot (fun b =>
          { b.setImage slot img (sha512 img) with staged := BitVec.ofNat 32 (imgVersion img) })))

/-- FW_ACTIVATE (R443, R444): ROLES names roles 1 to 4; its object keeps the roles still to move and, above, those moved. -/
def execFwActivate (w : Win) (roles : BitVec 32) (s : State) : Out := s.live <|
  command w 0xF1 [roles.toNat] (fun d s =>
    let n := roles.toNat
    if n % 2 != 0 || 31 < n || n = 0 then refuse stRsvEnc s
    else if (if s.freeSlot then s.boot.hashB else s.boot.hashA).isEmpty || (s.fwLong 0xF0).isSome || (s.fwLong 0xF1).isSome then
      refuse stState s
    else accept w 0xF1 d n s) s

/-- The next role to move (R444): Health, Fabric, Power, Command. -/
def nextRole (mask : Nat) : Nat := if bitOf mask 4 then 4 else if bitOf mask 3 then 3 else if bitOf mask 2 then 2 else 1

/-- Every role runs from a slot. -/
def State.allFrom (s : State) (slot : Bool) : Bool :=
  s.boot.marshals.all (fun m => m.role = 0 || m.slot == slot)

/-- The last role of an FW_ACTIVATE has moved (R444, R452). -/
def activated (l : Long) (roles : Nat) (s : State) : State :=
  let slot := s.freeSlot
  let s :=
    if s.allFrom slot then
      let img := s.boot.image slot
      let v := imgVersion img
      let s := s.onBoot (fun b => { b.setImage (!slot) [] [] with slot := slot, active := BitVec.ofNat 32 v, staged := 0 })
      commitSvn img (note 0x78 0 [w32 roles, w32 v] l.dseq s)
    else s
  finishLong l.dseq stOk [] s

/-- A role moves to a spare, or FW_ACTIVATE ends FAILED (R444). -/
def roleMove (l : Long) (crashed : Bool) (s : State) : State :=
  let left := l.arg % 32
  let moved := l.arg / 32
  let slot := s.freeSlot
  let role := nextRole left
  match s.firstSpare, s.holder role with
  | none, _ => finishLong l.dseq stFailed [1, w32 moved] s
  | _, none => s
  | some n, some m =>
    if imgStateVer (s.boot.image slot) != imgStateVer (s.boot.image (!slot)) then finishLong l.dseq stFailed [2, w32 moved] s
    else if crashed then finishLong l.dseq stFailed [3, w32 moved] s
    else
      let drop := (s.marshal m).drop
      let s := (moveRole role m n slot .running s).onMarshal n (fun x => { x with drop := if role = 3 then drop else 0 })
      let s := s.onMarshal m (fun x => { x with st := .off, slot := false, drop := 0, halted := false })
      let roles := moved + 2 ^ role
      if left = 2 ^ role then activated l roles s
      else { s with host := { s.host with longs := s.host.longs.map (fun k =>
        if k.dseq = l.dseq then { k with arg := (left - 2 ^ role) + 32 * roles } else k) } }

/-- FW_ROLE_MOVE (R444): a role moves at its next boundary, Command when no packet is being executed. A crash in a handover ends
the command; the crash itself is MARSHAL_FAULT's or WATCHDOG_EXPIRY's. -/
def execFwRoleMove (crashed : Bool) (s : State) : Out := s.live <|
  match s.fwLong 0xF1 with
  | none => .next s
  | some l =>
    let role := nextRole (l.arg % 32)
    when (s.roleUp role && s.roleUp 1 && (role != 1 || (s.host.pcw.cur.isNone && s.host.jcw.cur.isNone))) (roleMove l crashed s) s

/-- DEVICE_RESET (R396): the reset follows 10 µs later. -/
def execDeviceReset (w : Win) (s : State) : Out := s.live <|
  command w 0xF2 [] (fun _ s => done (s.onBoot (fun b => { b with resetAt := some (s.now + 10000, 1) }))) s

end Sys2Proof.Machine
end

