-- ==== Sys2Proof/Machine/Loops.lean ====
section
/-! DEFINITION. The Power Marshal's loops (R434, R435), the hold governor (R440), the hardware responses (R436), VDD_CORE (R493),
the power states (R465, R466), the pins and clocks of the package (R479, R494, R503) and the slow domain (R418). -/

namespace Sys2Proof.Machine

/-! ### Grants -/

/-- A grant lies on the 25 MHz grid from 400 MHz (R434). -/
def gridMhz (f : Nat) : Nat := max 400 (f / 25 * 25)

/-- One step of a loop on a grant (R434, R440): p is the power, cap the cap in force, pct the share of it below which a grant
rises, and hi the ceiling. -/
def stepGrant (p cap pct hi f : Nat) : Nat :=
  let g := if cap < p then f - 25 else if p * 100 < pct * cap then f + 25 else f
  gridMhz (min g hi)

/-- The grid clocks whose curve voltage a voltage meets (R493): the highest, at least 400 MHz. -/
def curveCap (bin mv : Nat) : Nat :=
  ((List.range (bin / 25 + 1)).map (· * 25)).foldl (fun a f => if 400 ≤ f && Config.vfMv f ≤ mv then max a f else a) 400

/-- A new grant for an island (R493): a raise that needs more voltage waits for the regulator. -/
def Island.give (d : Island) (f mv : Nat) : Island :=
  if f ≤ d.grant then { d with grant := f, wanted := 0 }
  else if Config.vfMv f ≤ mv then { d with grant := f, wanted := 0 }
  else { d with wanted := f }

/-- Device power as the loops read it (R434, R446). -/
def setPower (p1us p1ms : BitVec 16) (s : State) : State :=
  s.onPower (fun q => { q with p1us := p1us, p1ms := p1ms, p1usLive := p1us, p1msLive := p1ms })

/-- The ceiling of an island's grant in the power loop (R434, R493). -/
def State.hiGrant (s : State) (i : Nat) : Nat :=
  capMin (min (s.ceilEff i) (s.power.islands.getD i {}).therm) s.power.avsCap

/-- One run of the power loop (R434, R440): the first after a hold removes cap_hold. -/
def powerLoop (s : State) : State :=
  let s :=
    if s.power.hold then
      powerHold 0 s.power.capHold.toNat (s.now.toNat - s.power.holdSince.toNat) (s.onPower (fun q => { q with hold := false, capHold := 0 }))
    else s
  let p := s.power.p1us.toNat
  let cap := s.power.capEff
  let new := s.power.islands.zipIdx.map (fun (d, i) => d.give (stepGrant p cap 98 (s.hiGrant i) d.grant) s.power.mv)
  let limited := 98 * cap ≤ p * 100 && new.zipIdx.any (fun (d, i) => d.grant < s.hiGrant i)
  s.onPower (fun q => { q with islands := new, limited := limited, capAtGrant := q.capBase, lastGrant := s.now })

/-- Stride Time of the next run of a loop of a period. -/
def State.nextPeriod (s : State) (per : Nat) : Nat := (s.now.toNat / per + 1) * per

/-- POWER_LOOP (R434): once every 1,000 Stride ns while the Power role runs; the operands are what PWR_POWER shows. -/
def execPowerLoop (p1us p1ms : BitVec 16) (s : State) : Out := s.live <|
  when (s.roleUp 2) (powerLoop (setPower p1us p1ms (s.advanceTo (s.nextPeriod 1000)))) s

/-- One run of the hold governor (R440): the voltage stays as it is (R493). -/
def holdLoop (s : State) : State :=
  let p := s.power.p1us.toNat
  let cap := s.power.capEff
  s.onPower (fun q => { q with islands := q.islands.zipIdx.map (fun (d, i) =>
    { d with grant := stepGrant p cap 97 (min (s.ceilEff i) d.fLast) d.grant }) })

/-- HOLD_GOVERNOR_LOOP (R440). -/
def execHoldGovernorLoop (p1us p1ms : BitVec 16) (s : State) : Out := s.live <|
  when s.power.hold (holdLoop (setPower p1us p1ms (s.advanceTo (s.nextPeriod 1000)))) s

/-- The thermal ceiling of an island after a run of the thermal loop (R435). -/
def nextTherm (bin temp therm : Nat) : Nat :=
  if 95 ≤ temp then therm - 50 else if temp ≤ 92 then min bin (therm + 25) else therm

/-- THERMAL_LOOP (R435): once every 1 ms while the Power role runs; `temps` are the islands' hottest sensors. -/
def execThermalLoop (temps : List Byte) (s : State) : Out := s.live <|
  let t := s.advanceTo (s.nextPeriod 1000000)
  when (s.roleUp 2 && temps.length = 16) (t.onPower (fun q => { q with islands := q.islands.zipIdx.map (fun (d, i) =>
    let c := temps.getD i 0
    { d with temp := c, tempLive := c, therm := nextTherm s.binMhz c.toNat d.therm }) })) s

/-! ### Hardware responses -/

/-- THERMAL_THROTTLE (R436, R445): a sensor of island i reaches 100 °C, or all fall to 97 °C. -/
def execThermalThrottle (i : Nat) (temp : BitVec 8) (s : State) : Out := s.live <|
  let d := s.power.islands.getD i {}
  let s := s.onIsland i (fun d => { d with tempLive := temp })
  if 16 ≤ i then .next s
  else if 100 ≤ temp.toNat && !d.hwThrottle then
    let s := (s.onIsland i (fun d => { d with hwThrottle := true })).onPower (fun q => { q with thermHw := true })
    .next (note 0x76 i [w32 temp.toNat, w32 (s.ceilHw i)] noDseq s)
  else if temp.toNat ≤ 97 && d.hwThrottle then .next (s.onIsland i (fun d => { d with hwThrottle := false }))
  else .next s

/-- DROOP (R436): the clock of island i is halved while its voltage is low. -/
def execDroop (i : Nat) (low : Bool) (s : State) : Out := s.live <|
  .next ((s.onIsland i (fun d => { d with droop := low })).onPower (fun q => { q with droopF := q.droopF || (low && i < 16) }))

/-- TELEMETRY_POST (R437, R441, R445). -/
def execTelemetryPost (s : State) : Out := s.live <|
  match s.power.snaps with
  | [] => .next s
  | (t, payload) :: rest =>
    when (s.roleUp 2) (post 0x77 0 0 noDseq t payload (s.onPower (fun q => { q with snaps := rest }))) s

/-- AVS_VOLTAGE_REACHED (R493): a voltage is reached and releases the raised grants that it meets; a lower one only once every
grant meets it. The third failure in a row holds the voltage, caps the grants and is DEVICE_FATAL. -/
def execAvsVoltageReached (ok : Bool) (mv : Nat) (s : State) : Out := s.live <|
  let q := s.power
  if ok then
    if mv < q.mv && q.islands.any (fun d => mv < Config.vfMv d.grant) then .next s
    else .next (s.onPower (fun q => { q with mv := mv, avsFails := 0, islands := q.islands.map (fun d =>
      if d.wanted != 0 && Config.vfMv d.wanted ≤ mv then { d with grant := d.wanted, wanted := 0 } else d) }))
  else if q.avsFails < 2 then .next (s.onPower (fun q => { q with avsFails := q.avsFails + 1 }))
  else
    let top := curveCap s.binMhz q.mv
    .next (deviceFatal 5 0 (s.onPower (fun q =>
      { q with avsFails := 0, avsCap := top, islands := q.islands.map (fun d => { d with grant := min d.grant top, wanted := 0 }) })))

/-! ### Power states -/

/-- The debug level changes (R464, R471). -/
def setDebug (level key : Nat) (d : BitVec 32) (s : State) : State :=
  let old := s.sec.dbg.toNat
  if old = level then s
  else
    let top := max level s.sec.debugMax.toNat
    note 0xC0 0 [w32 old, w32 level, w32 key, w32 top] d
      (s.onSec (fun c => { c with dbg := BitVec.ofNat 2 level, debugMax := BitVec.ofNat 2 top }))

/-- A Plot after the exit from RETAIN (R466): as after a Plot reset, with its memories and tables zero. -/
def Plot.wiped (x : Plot) : Plot :=
  { x.cleared with stepMem := [], vtab := [], dtab := [], resv := [], resvPoison := [] }

/-- A link that carries flits narrows or widens with the device's power state, and tells the far end (R266). -/
def followPower (s : State) (l : Nat) : State := if (s.link l).st.flits then sendWidth l (fitWidth l s) else s

/-- Lanes of a direction that have not failed. -/
def Lanes.usable (n : Lanes) : List Nat := (List.range 5).filter (fun p => n.at p != .failed)

/-- On exit from RETAIN a link's width is restored, or the link FAILED (R266). -/
def widenLink (s : State) (l : Nat) : State :=
  let x := s.link l
  if x.st.flits && (x.tx.usable.length < x.minWidth.toNat || x.rx.usable.length < x.minWidth.toNat) then failLink l s
  else followPower s l

/-- Entry to RETAIN (R177, R266, R465). -/
def enterRetain (s : State) : State :=
  let s := (List.range 24).foldl (fun s k => s.onStack k (fun x =>
    { x with selfRefresh := true, spare := x.spare.map (fun c => { c with paused := true }) })) s
  (List.range 18).foldl followPower s

/-- Exit from RETAIN (R266, R464, R466). -/
def leaveRetain (s : State) : State :=
  let s := (List.range 24).foldl (fun s k => s.onStack k (fun x =>
    { x with selfRefresh := false, spare := x.spare.map (fun c => { c with paused := false }) })) s
  let s := (List.range 18).foldl widenLink s
  let s := (List.range 272).foldl (fun s p => (applySpares p [] s).onPlot p Plot.wiped) s
  setDebug 0 0 noDseq s

/-- Stride ns from a request to its state (R466). -/
def pwrTime (old new : PwrSt) : Nat :=
  match old, new with
  | _, .retain => 100000
  | .retain, _ => 1200000
  | .idle, .run => 1000
  | _, .idle => 2000
  | _, _ => 50000

/-- VDD_CORE in a power state (R465, R493), in mV. -/
def State.pwrMv (s : State) : PwrSt → Nat
  | .trim => 650
  | .retain => 600
  | _ => max s.power.mv ((s.power.islands.map (fun d => Config.vfMv d.grant)).foldl max 0)

/-- The target state is reached (R465, R466, R471). -/
def powerReached (s : State) : State :=
  let old := s.power.st
  let new := s.power.target
  let d := longDseq s (fun l => l.op = 0x72)
  let s := s.onPower (fun q => { q with st := new, busy := false, mv := s.pwrMv new })
  let s := if new == .retain then enterRetain s else s
  let s := if new == .idle then s else { s with stks := s.stks.mapVals (fun _ x => { x with asleep := [] }) }
  let s := if old == .retain then leaveRetain s else s
  let s := note 0xC6 0 [w32 old.code, w32 new.code, w32 ((s.now.toNat - s.power.reqAt.toNat) / 1000)] d s
  finishLong d stOk [] s

/-- POWER_STATE_REACHED (R466): a repair that runs completes before RETAIN (R171). -/
def execPowerStateReached (s : State) : Out := s.live <|
  let q := s.power
  when (q.busy && s.roleUp 2 && (q.target != .retain || (List.range 24).all (fun k => (s.stack k).pprs.isEmpty)))
    (powerReached (s.advanceTo (q.reqAt.toNat + pwrTime q.st q.target))) s

/-- POWER_STATE (R466, R468, R396): it waits while a FULL clear or a lifecycle burn runs; `rivals` are the other orders on the power
state at the same instant (R242). -/
def execPowerState (w : Win) (st : BitVec 32) (rivals : List Order) (s : State) : Out := s.live <|
  if s.sec.clearing || s.host.longs.any (fun l => l.op = 0xA3) then .next s
  else command w 0x72 [st.toNat] (fun d s =>
    if 3 < st.toNat then refuse stRsvEnc s
    else if s.loses (winOrder w) rivals then refuse stSuperseded s
    else
      let r := powerRequest (pwrOf st.toNat) s
      if !r.1 then refuse stState r.2
      else if r.2.power.busy then accept w 0x72 d st.toNat r.2
      else done r.2) s

/-! ### Pins, clocks and the slow domain -/

/-- THERMAL_TRIP (R176, R503): a sensor at 115 °C, or a stack at 105 °C, stops every clock until a cold reset. -/
def execThermalTrip (stack : Option Nat) (temp : BitVec 8) (s : State) : Out := s.live <|
  when (match stack with | some k => k < 24 && 105 ≤ temp.toNat | none => 115 ≤ temp.toNat)
    (s.onPower (fun q => { q with tripped := true })) s

/-- RAIL_UNDERVOLTAGE (R494). -/
def execRailUndervoltage (rail : BitVec 8) (s : State) : Out := s.live <| .next (deviceFatal 5 rail.toNat s)

/-- The core clock reference in use: 0 A, 1 B (R479, R498). -/
def State.refInUse (s : State) : Nat := if s.boot.refB || s.ras.onDup then 1 else 0

/-- Both core references are lost (R475, R478, R479): CLOCK_REF is the event's record, and the core clock stops. -/
def coreClockLost (s : State) : State :=
  let ras := { s.ras with fatal := true, refLost := true, fatalCause := 3, fatalIndex := 0 }
  let s := stopAll (event 0x8B 5 0 [w32 s.refInUse] noDseq { s with ras := ras })
  s.onPower (fun q => { q with clockLost := true })

/-- CORE_REF_LOSS (R479): the reference in use is lost for 100 ns. On the duplicate there is none left to switch to. -/
def execCoreRefLoss (otherPresent : Bool) (s : State) : Out := s.live <|
  if otherPresent && !s.ras.onDup then
    let s := { s with ras := { s.ras with pllAlt := true, onDup := true, refLost := true } }
    .next (event 0x8B 3 0 [w32 s.refInUse] noDseq s)
  else .next (coreClockLost s)

/-- The highest PCIe rate of BOOT_STRAP (R499), in SPEED codes. -/
def Boot.maxSpeed (b : Boot) : Nat :=
  match field b.strap.toNat 14 2 with
  | 1 => 5
  | 2 => 4
  | _ => 6

/-- PCIE_LINK_CHANGE (R379, R406, R499): SPEED 0 is a link that is down. -/
def execPcieLinkChange (speed : BitVec 3) (width : BitVec 4) (flit : Bool) (s : State) : Out := s.live <|
  when (speed.toNat ≤ s.boot.maxSpeed && (speed = 0 || width = 1 || width = 2 || width = 4 || width = 8))
    { s with host := { s.host with speed := speed, width := if speed = 0 then 0 else width, flit := flit && speed != 0 } } s

/-- D3HOT_ENTRY (R380). -/
def execD3hotEntry (s : State) : Out := s.live <| .next { s with host := { s.host with d3hot := true } }

/-- D0_RETURN (R380): the BARs are as before; vectors that waited are signalled (log 6). -/
def execD0Return (s : State) : Out := s.live <| .next (deliverMsix { s with host := { s.host with d3hot := false } })

/-- SLOW_CLOCK_EDGE (R418, R419, R428): every RSC copy is refreshed; in RETAIN the copies of the Plots' sensors hold. -/
def execSlowClockEdge (s : State) : Out := s.live <|
  let keep := s.power.st == .retain
  let s := (List.range 24).foldl (fun s k =>
    let x := s.stack k
    if x.temp = x.tempLive then s else s.setStack k { x.heat x.tempLive with temp := x.tempLive }) s
  .next (s.onPower (fun q => { q with slowSeq := q.slowSeq + 1, p1us := q.p1usLive, p1ms := q.p1msLive,
                                      islands := if keep then q.islands else q.islands.map (fun d => { d with temp := d.tempLive }) }))

end Sys2Proof.Machine
end

