-- ==== Sys2Proof/Machine/RegWrites.lean ====
section
/-! DEFINITION. What a write to every register of BAR0 and BAR2 does (R8 to R10, R407 to R413): 32-bit registers one word at a
time, 64-bit registers through the staging buffer of their block space. -/

namespace Sys2Proof.Machine

/-- A W1C bit after a write of v. -/
def w1c (v i : Nat) (old : Bool) : Bool := old && !bitOf v i

/-- The seal is open, so RWL fields take writes (R8). -/
def State.sealOpen (s : State) : Bool := s.cfgSeal.st == .open

/-! ### 32-bit registers -/

/-- CMD_REQ (R385, R386, R410). -/
def writeReq (w : Win) (o : Nat) (data : List Byte) (s : State) : State :=
  match (s.window w).st with
  | .offline => s
  | .busy => s.onWindow w (fun q => { q with reqIgnored := true })
  | _ => s.onWindow w (fun q => { q with req := q.req.write o data })

/-- CMD_WSTATE (R386, R406): writes are ignored in OFFLINE. -/
def writeWstate (w : Win) (v : Nat) (s : State) : State :=
  s.onWindow w (fun q =>
    if q.st == .offline then q
    else { q with reqIgnored := w1c v 2 q.reqIgnored, commitIgnored := w1c v 3 q.commitIgnored, irqEn := bitOf v 4 })

/-- A word of a window outside CMD_REQ. -/
def writeWin (w : Win) (o : Nat) (v : BitVec 32) (s : State) : State :=
  if o = 0x800 then commitWrite w v s else if o = 0x804 then writeWstate w v.toNat s else s

/-- A word of the MSI-X table (R405): of the vector control only the mask bit is kept (log 6). -/
def writeMsix (o : Nat) (v : Nat) (s : State) : State :=
  let v := if o % 16 = 12 then v % 2 else v
  deliverMsix { s with host := { s.host with msixTable := s.host.msixTable.write o (leBytes 4 v) } }

/-- A word of the first 1 MiB (R406, R428, R446). -/
def writeGen (o : Nat) (v : BitVec 32) (ecc : List (Nat × EccHit)) (s : State) : State :=
  let n := v.toNat
  if 0x1000 ≤ o && o < 0x2000 then writeWin .pcw (o - 0x1000) v s
  else if 0x2000 ≤ o && o < 0x3000 then writeWin .jcw (o - 0x2000) v s
  else if 0x8000 ≤ o && o < 0x8400 then writeMsix (o - 0x8000) n s
  else match o with
    | 0x108 => s.onBoot (fun b => { b with len := BitVec.ofNat 24 n })
    | 0x10C => if bitOf n 0 then bootGo ecc s else s
    | 0x3010 => writeJcfg n s
    | 0x3014 => { s with host := { s.host with jgap := w1c n 1 s.host.jgap } }
    | 0x3100 => { s with host := { s.host with bar4Err := w1c n 0 s.host.bar4Err, bar2Write := w1c n 1 s.host.bar2Write } }
    | 0x4000 => { s with cfgSeal := { s.cfgSeal with brk := w1c n 2 s.cfgSeal.brk, commitFail := w1c n 11 s.cfgSeal.commitFail } }
    | _ => s

/-- A link number field of STR_CFG (R10, R244): 18 to 30 are reserved encodings. -/
def parentField (old : BitVec 5) (v : Nat) : BitVec 5 := if 18 ≤ v && v < 31 then old else BitVec.ofNat 5 v

/-- A word of Stride Time and the Starter (R244). -/
def writeStr (o : Nat) (n : Nat) (s : State) : State :=
  if o = 0x8 then s.onClock (fun c =>
    { c with role := if 2 ≤ field n 0 2 then c.role else BitVec.ofNat 2 n
             refEn := bitOf n 2
             parent := parentField c.parent (field n 3 5)
             altParent := parentField c.altParent (field n 8 5)
             loadArm := c.loadArm || bitOf n 13
             syncPeriod := BitVec.ofNat 18 (field n 14 18) })
  else if o = 0xC then s.onClock (fun c => { c with masterDev := BitVec.ofNat 14 n, masterGen := BitVec.ofNat 8 (field n 14 8) })
  else if o = 0x10 then s.onClock (fun c =>
    { c with stepped := w1c n 5 c.stepped, parentLost := w1c n 6 c.parentLost, foreign := w1c n 7 c.foreign,
             loadRefused := w1c n 8 c.loadRefused })
  else if o = 0x100 then s.onStarter (fun q => { q with sLate := w1c n 9 q.sLate, sSup := w1c n 10 q.sSup, sRef := w1c n 11 q.sRef })
  else match arr o 0x40 4 18 with
    | some (l, _) => s.onClock (fun c => { c with asym := c.asym.put l (BitVec.ofNat 32 n) })
    | none => s

/-- A word of the power space (R446, R470). -/
def writePwr (o : Nat) (n : Nat) (s : State) : State :=
  if o = 0 then s.onPower (fun q => { q with thermHw := w1c n 2 q.thermHw, droopF := w1c n 3 q.droopF })
  else if o = 0x100 then s.onPower (fun q => { q with refused := w1c n 7 q.refused })
  else s

/-- A word of the security space (R470). -/
def writeSec (o : Nat) (n : Nat) (s : State) : State :=
  if o = 0x24 then s.onSec (fun c => { c with tokReject := w1c n 0 c.tokReject }) else s

/-- A word of the RAS space (R489). -/
def writeRas (o : Nat) (n : Nat) (s : State) : State :=
  let r := s.ras
  if o = 0 then { s with ras := { r with refLost := w1c n 2 r.refLost, fuseCorr := w1c n 3 r.fuseCorr } }
  else if o = 4 then
    { s with ras := { r with auto := BitVec.ofNat 6 n, ceSumMs := if field n 16 16 = 0 then r.ceSumMs else BitVec.ofNat 16 (field n 16 16) } }
  else s

/-- PLT_PFILL (R10, R127). -/
def Pacer.writeFill (q : Pacer) (n : Nat) : Pacer :=
  { q with fillMin := if field n 0 12 = 0 then q.fillMin else BitVec.ofNat 12 n
           fillMax := if field n 16 12 = 0 then q.fillMax else BitVec.ofNat 12 (field n 16 12) }

/-- PLT_PFCLSw (R10, R108): the classes of flags 8w to 8w + 7 take the fields of n; 5 to 15 are reserved encodings. -/
def putClasses (t : Tbl (BitVec 4)) (w n : Nat) : Tbl (BitVec 4) :=
  (List.range 8).foldl (fun t i =>
    let c := field n (4 * i) 4
    if 4 < c then t else t.put (8 * w + i) (BitVec.ofNat 4 c)) t

/-- A word of an inbox's registers (R126, R129): CFG, GEOM and SRC take writes only in STOPPED. -/
def Pacer.writeInbox (q : Pacer) (i r n : Nat) : Pacer :=
  let stop := q.st == .stopped
  { q with inboxes := listUpd q.inboxes i (fun b =>
      if r = 2 then { b with overrun := w1c n 26 b.overrun }
      else if !stop then b
      else if r = 0 then { b with base := BitVec.ofNat 17 n, cap := BitVec.ofNat 13 (field n 17 13), slotMode := bitOf n 30 }
      else if r = 1 then { b with pitch := BitVec.ofNat 10 n, slots := BitVec.ofNat 4 (field n 10 4) }
      else { b with srcDevice := BitVec.ofNat 14 n, srcPlot := BitVec.ofNat 8 (field n 14 8), srcOutbox := BitVec.ofNat 2 (field n 22 2) }) }

/-- PLT_POBn (R126, R129). -/
def Pacer.writeOutbox (q : Pacer) (i n : Nat) : Pacer :=
  let stop := q.st == .stopped
  { q with outboxes := listUpd q.outboxes i (fun b =>
      { b with ovf := w1c n 4 b.ovf, credits := if stop then BitVec.ofNat 4 n else b.credits }) }

/-- A word of the Pacer's registers (R126 to R130). -/
def Pacer.writeReg (q : Pacer) (o n : Nat) : Pacer :=
  let stop := q.st == .stopped
  match o with
  | 0x600 => { q with flagOvf := w1c n 20 q.flagOvf, inboxOvr := w1c n 21 q.inboxOvr }
  | 0x604 => if stop then { q with startEntry := BitVec.ofNat 12 n } else q
  | 0x608 => if stop then q.writeFill n else q
  | 0x60C => if stop then { q with fillTo := BitVec.ofNat 32 n } else q
  | _ =>
    match arr o 0x650 4 8, arr o 0x6C0 0x10 4, arr o 0x700 4 4 with
    | some (w, _), _, _ => if stop then { q with classes := putClasses q.classes w n } else q
    | _, some (i, r), _ => q.writeInbox i (r / 4) n
    | _, _, some (i, _) => q.writeOutbox i n
    | _, _, _ => q

/-- PLT_FSTATUS (R51). -/
def Plot.writeFstatus (x : Plot) (n : Nat) : Plot :=
  { x with furrows := x.furrows.zipIdx.map (fun (fu, f) => { fu with ce := w1c n (16 + f) fu.ce, ue := w1c n (20 + f) fu.ue }) }

/-- PLT_NUMCTL (R84, R85). -/
def Plot.writeNumctl (x : Plot) (n : Nat) : Plot :=
  let x := { x with ovfMode := bitOf n 0, trap := bitOf n 1 }
  if bitOf n 2 then x.cntClr else x

/-- A word of the space of physical Plot p (R49 to R52, R85 to R89, R126 to R130, R157). -/
def writePlotReg (p o : Nat) (v : BitVec 32) (ecc : List EccHit) (s : State) : State :=
  let n := v.toNat
  let on (f : Plot → Plot) : State := s.onPlot p f
  match o with
  | 0x460 => on (·.writeFstatus n)
  | 0x500 => on (·.writeNumctl n)
  | 0x504 => on (·.writeWexp n)
  | 0x510 => on (fun x => { x with numev := { x.numev with valid := w1c n 0 x.numev.valid } })
  | 0x670 => raiseLocal p (n % 64) s
  | 0x860 => if bitOf n 0 then on Plot.pcntClr else s
  | 0x900 => on (fun x => { x with rsvCe := w1c n 0 x.rsvCe, rsvUe := w1c n 1 x.rsvUe })
  | 0x910 => on (fun x => { x with repSel := BitVec.ofNat 10 n })
  | 0x914 => writeRsvRep p v ecc s
  | 0x980 => on (fun x => { x with dErr := w1c n 4 x.dErr })
  | _ =>
    match arr o 0x400 4 4, arr o 0x420 4 16 with
    | some (f, _), _ => writeColMap p f v s
    | _, some (i, _) => writeBspare p (i / 4) (i % 4) v s
    | _, _ => on (fun x => x.onPacer (·.writeReg o n))

/-- A word of the space of physical Plot p: a RETIRED Plot, and any in RETAIN, ignores it (R465, R483). -/
def writePlot (p o : Nat) (v : BitVec 32) (ecc : List EccHit) (s : State) : State :=
  if s.plotWritable p then writePlotReg p o v ecc s else s

/-- An RWL write to the Sluice of stack k: it counts at once where no step is open (R180). -/
def writeSlcCfg (k : Nat) (f : SluiceCfg → SluiceCfg) (s : State) : State :=
  if s.sealOpen then sampleIdle k (s.onSluice k (fun y => { y with cfg := f y.cfg })) else s

/-- HBM_STAT (R179): once the three flags are all clear, HBM_UEADDR takes the next unit found uncorrectable. -/
def Stack.writeStat (x : Stack) (n : Nat) : Stack :=
  let x := { x with ue := w1c n 0 x.ue, scrubUe := w1c n 1 x.scrubUe, partialPoison := w1c n 2 x.partialPoison }
  { x with ueNoted := x.ueNoted && (x.ue || x.scrubUe || x.partialPoison) }

/-- HBM_SCRUBCFG (R10, R179). -/
def Stack.writeScrub (x : Stack) (n : Nat) : Stack :=
  { x with scrubInterval := if field n 0 16 < 80 then x.scrubInterval else BitVec.ofNat 16 n
           rowThresh := if field n 16 4 = 0 then x.rowThresh else BitVec.ofNat 4 (field n 16 4) }

/-- A word of the commit controller (R219). -/
def writeCommitReg (o n : Nat) (s : State) : State :=
  match o with
  | 0x30000 => if s.sealOpen then s.onCommit (fun c => { c with mode := bitOf n 0, stalePolicy := bitOf n 1 }) else s
  | 0x30004 => s.onCommit (fun c => { c with late := w1c n 5 c.late, seqErr := w1c n 6 c.seqErr })
  | 0x30008 => s.onCommit (fun c => if c.st == .idle then { c with step := BitVec.ofNat 31 n } else c)
  | 0x3000C => if bitOf n 0 then setVeto s else s
  | _ => s

/-- A word of the space of stack k (R179, R218, R219). -/
def writeStack (k o : Nat) (v : BitVec 32) (s : State) : State :=
  let n := v.toNat
  match o with
  | 0x0 => s.onStack k (·.writeStat n)
  | 0x14 => if s.sealOpen then s.onStack k (·.writeScrub n) else s
  | 0x10000 => writeSlcCfg k (fun c =>
      { c with smapCount := if 262144 < field n 0 19 then c.smapCount else BitVec.ofNat 19 n, factCount := BitVec.ofNat 10 (field n 19 10) }) s
  | 0x10028 => writeSlcCfg k (fun c => { c with holdWait := v }) s
  | 0x10030 => s.onSluice k (fun y => { y with segErr := w1c n 0 y.segErr, stale := w1c n 1 y.stale, holdErr := w1c n 2 y.holdErr,
                                               inletErr := w1c n 3 y.inletErr })
  | 0x10034 => s.onSluice k (fun y => { y with pipeNext := some (v.truncate 2, v.getLsbD 2) })
  | 0x10060 => s.onSluice k (fun y => { y with tagSel := v.truncate 18 })
  | _ => if k = 0 then writeCommitReg o n s else s

/-- A word of the region table (R149). -/
def writeRgn (o : Nat) (v : BitVec 32) (s : State) : State :=
  let n := v.toNat
  if o = 0x800 then
    { s with regions := { s.regions with overlap := w1c n 0 s.regions.overlap, range := w1c n 7 s.regions.range } }
  else match arr o 0x0 0x20 64 with
    | some (r, b) =>
      if !s.sealOpen then s
      else if b = 0x10 then regionSet r .soff (v.zeroExtend 64) s
      else if b = 0x14 then regionSet r .cfg (v.zeroExtend 64) s
      else s
    | none => s

/-- A word of the space of link l (R272, R274). -/
def writeLink (l o : Nat) (v : BitVec 32) (s : State) : State :=
  let n := v.toNat
  match o with
  | 0x0 => s.onLink l (fun x =>
      { x with bibBad := w1c n 5 x.bibBad, bibChg := w1c n 6 x.bibChg, laneFail := w1c n 7 x.laneFail, spareIn := w1c n 8 x.spareIn,
               degraded := w1c n 9 x.degraded, retrained := w1c n 10 x.retrained, discard := w1c n 11 x.discard })
  | 0x4 => if s.sealOpen then writeLnkCfg l v s else s
  | 0x60 => if s.sealOpen then writeCanal l v s else s
  | 0x64 => s.onLink l (fun x => { x with canalOverlap := w1c n 25 x.canalOverlap, canalMismatch := w1c n 26 x.canalMismatch })
  | _ => s

/-- A word of the router and discovery space (R312, R331). -/
def writeFab (o n : Nat) (s : State) : State :=
  match o with
  | 0x0 => if s.sealOpen then s.onRouter (fun r => { r with fmapEn := bitOf n 0, fmapThresh := BitVec.ofNat 8 (field n 8 8) }) else s
  | 0x4 => s.onRouter (fun r =>
      { r with swapLate := w1c n 3 r.swapLate, discard := w1c n 4 r.discard, escErr := w1c n 5 r.escErr, noRoute := w1c n 6 r.noRoute,
               overflow := w1c n 7 r.overflow, crcErr := w1c n 8 r.crcErr })
  | 0x400 => s.onRouter (fun r => { r with strapDiff := w1c n 15 r.strapDiff })
  | 0x408 => s.onRouter (fun r => { r with hsReject := w1c n 1 r.hsReject, hsChange := w1c n 5 r.hsChange })
  | 0x40C => if s.sealOpen && field n 0 10 != 0 then s.onRouter (fun r => { r with settle := BitVec.ofNat 10 n }) else s
  | _ => s

/-- A word of the Relay space (R365). -/
def writeCol (o n : Nat) (s : State) : State :=
  match o with
  | 0x0 => s.onRelay (fun r =>
      { r with sMismatch := w1c n 0 r.sMismatch, sStall := w1c n 1 r.sStall, sPoison := w1c n 2 r.sPoison,
               sRemote := w1c n 3 r.sRemote, sAborted := w1c n 4 r.sAborted, sRefused := w1c n 5 r.sRefused })
  | 0x4 => if s.sealOpen && n != 0 then s.onRelay (fun r => { r with timeout := BitVec.ofNat 32 n }) else s
  | 0x10 => s.onRelay (fun r => { r with errValid := w1c n 0 r.errValid })
  | _ => s

/-- Marshal SRAM at debug level FULL (R409, R463). -/
def writeSram (o : Nat) (v : BitVec 32) (s : State) : State :=
  if s.sec.dbg = 2 then
    { s with host := { s.host with marshalSram :=
        (leBytes 4 v.toNat).zipIdx.foldl (fun t e => t.put (o + e.2) e.1) s.host.marshalSram } }
  else s

/-- A write of one 32-bit word of BAR0 that is no part of a 64-bit register (R408). `ecc` names what SECDED finds in Reservoirs that
the write has read (R137). -/
def write32 (o : Nat) (v : BitVec 32) (ecc : List (Nat × EccHit)) (s : State) : State :=
  let n := v.toNat
  if o < 0x100000 then writeGen o v ecc s
  else if o < 0x200000 then writeStr (o - 0x100000) n s
  else if o < 0x300000 then writePwr (o - 0x200000) n s
  else if o < 0x400000 then writeSec (o - 0x300000) n s
  else if o < 0x500000 then writeRas (o - 0x400000) n s
  else if 0x1000000 ≤ o && o < 0x1000000 + 272 * 0x8000 then
    let p := (o - 0x1000000) / 0x8000
    writePlot p (o % 0x8000) v (hitsOf p ecc) s
  else if 0x2000000 ≤ o && o < 0x2600000 then writeStack ((o - 0x2000000) / 0x40000) (o % 0x40000) v s
  else if 0x2600000 ≤ o && o < 0x2601000 then writeRgn (o - 0x2600000) v s
  else if 0x2800000 ≤ o && o < 0x2920000 then writeLink ((o - 0x2800000) / 0x10000) (o % 0x10000) v s
  else if 0x2920000 ≤ o && o < 0x2930000 then writeFab (o - 0x2920000) n s
  else if 0x2940000 ≤ o && o < 0x2950000 then if s.sealOpen then writeShadow ((o - 0x2940000) / 4) v s else s
  else if 0x2950000 ≤ o && o < 0x2960000 then writeCol (o - 0x2950000) n s
  else if 0x3000000 ≤ o && o < 0x4000000 then writeSram o v s
  else s

/-! ### Set-wins -/

/-- The W1C bits of the 32-bit register at an offset of BAR0 (R8, R414). -/
def w1cMask (o : Nat) : Nat :=
  if 0x1000000 ≤ o && o < 0x1000000 + 272 * 0x8000 then
    match o % 0x8000 with
    | 0x460 => 0xFF0000
    | 0x510 => 0x1
    | 0x600 => 0x300000
    | 0x6C8 | 0x6D8 | 0x6E8 | 0x6F8 => 0x4000000
    | 0x700 | 0x704 | 0x708 | 0x70C => 0x10
    | 0x900 => 0x3
    | 0x980 => 0x10
    | _ => 0
  else if 0x2000000 ≤ o && o < 0x2600000 then
    match o % 0x40000 with
    | 0x0 => 0x7
    | 0x10030 => 0xF
    | 0x30004 => if o = 0x2030004 then 0x60 else 0
    | _ => 0
  else if 0x2800000 ≤ o && o < 0x2920000 then
    match o % 0x10000 with
    | 0x0 => 0xFE0
    | 0x64 => 0x6000000
    | _ => 0
  else match o with
    | 0x1804 | 0x2804 => 0xC
    | 0x3014 => 0x2
    | 0x3100 => 0x3
    | 0x4000 => 0x804
    | 0x100010 => 0x1E0
    | 0x100100 => 0xE00
    | 0x200000 => 0xC
    | 0x200100 => 0x80
    | 0x300024 => 0x1
    | 0x400000 => 0xC
    | 0x2600800 => 0x81
    | 0x2920004 => 0x1F8
    | 0x2920400 => 0x8000
    | 0x2920408 => 0x22
    | 0x2950000 => 0x3F
    | 0x2950010 => 0x1
    | _ => 0

/-- n collisions of a set and a clear in the flag group of the register at o (R414). -/
def countSetWins (o n : Nat) (s : State) : State :=
  if n = 0 then s
  else if o < 0x100000 then { s with host := { s.host with swcnt := wrapAdd s.host.swcnt n } }
  else if o < 0x200000 then s.onClock (fun c => { c with swcnt := wrapAdd c.swcnt n })
  else if o < 0x300000 then s.onPower (fun q => { q with swcnt := wrapAdd q.swcnt n })
  else if o < 0x400000 then s.onSec (fun c => { c with swcnt := wrapAdd c.swcnt n })
  else if o < 0x500000 then { s with ras := { s.ras with swcnt := wrapAdd s.ras.swcnt n } }
  else if o < 0x2000000 then s.onPlot ((o - 0x1000000) / 0x8000) (fun x => { x with swcnt := wrapAdd x.swcnt n })
  else if o < 0x2600000 then s.onStack ((o - 0x2000000) / 0x40000) (fun x => { x with hbmSwcnt := wrapAdd x.hbmSwcnt n })
  else if o < 0x2601000 then { s with regions := { s.regions with swcnt := wrapAdd s.regions.swcnt n } }
  else if o < 0x2920000 then s.onLink ((o - 0x2800000) / 0x10000) (fun x => { x with swcnt := wrapAdd x.swcnt n })
  else if o < 0x2930000 then s.onRouter (fun r => { r with swcnt := wrapAdd r.swcnt n })
  else { s with relay := { s.relay with swcnt := wrapAdd s.relay.swcnt n } }

/-- Bits set in a word. -/
def bitCount (v : Nat) : Nat := ((List.range 32).filter (bitOf v)).length

/-- The W1C bits that a write of v to the register at o clears, taking s to t (R8). -/
def clearedBits (o v : Nat) (s t : State) : Nat := v &&& w1cMask o &&& s.word0 o &&& (0xFFFFFFFF ^^^ t.word0 o)

/-- A write of one 32-bit word (R8, R83, R414, R415): `race` names the W1C fields that the event taken just before set in the cycle of
this write, which stay 1 (log 25). -/
def writeOne (o : Nat) (v race : BitVec 32) (ecc : List (Nat × EccHit)) (s : State) : State :=
  let hit := race.toNat &&& clearedBits o v.toNat s (write32 o v ecc s)
  countSetWins o (bitCount hit) (write32 o (v &&& ~~~w32 hit) ecc s)

/-- Writes to two 32-bit registers in one cycle, the register at o first (R8, R410): a W1C bit of it that is cleared and that the other
write sets stays 1, and is counted. -/
def writeTwo (o q : Nat) (v w rv rw : BitVec 32) (ecc : List (Nat × EccHit)) (s : State) : State :=
  let a := writeOne o v rv ecc s
  let b := writeOne q w rw ecc a
  countSetWins o (bitCount (clearedBits o v.toNat s a &&& b.word0 o)) b

/-- An aligned 8 B write of two 32-bit registers acts on both in one cycle (R8, R147, R410): what it clears comes before what it sets,
and a region is checked once, as it stands after both. -/
def writeBoth (o : Nat) (v race : BitVec 64) (ecc : List (Nat × EccHit)) (s : State) : State :=
  if 0x2600000 ≤ o && o < 0x2600800 then
    let n := (o - 0x2600000) / 0x20
    if s.sealOpen && o % 0x20 = 0x10 then
      regionPut n (((s.regions.tbl.get n {}).set .soff ((lo32 v).zeroExtend 64)).set .cfg ((hi32 v).zeroExtend 64)) s
    else s
  else if w1cMask o != 0 then writeTwo o (o + 4) (lo32 v) (hi32 v) (lo32 race) (hi32 race) ecc s
  else writeTwo (o + 4) o (hi32 v) (lo32 v) (hi32 race) (lo32 race) ecc s

/-! ### 64-bit registers -/

/-- The staging buffer of the block space and whether the register takes a write now, for the 64-bit register with writable
fields at an 8 B aligned offset of BAR0 (R412). -/
def State.reg64 (s : State) (a : Nat) : Option (Nat × Bool) :=
  if a = 0x100 || a = 0x3018 || a = 0x3108 then some (0, true)
  else if a = 0x3000 || a = 0x3008 then some (0, !s.host.jen)
  else if a = 0x100020 then some (1, true)
  else if 0x1000000 ≤ a && a < 0x1000000 + 272 * 0x8000 then
    let p := (a - 0x1000000) / 0x8000
    let o := a % 0x8000
    if 0x680 ≤ o && o < 0x6C0 then some (16 + p, s.plotWritable p && (s.plot p).pacer.st == .stopped) else none
  else if 0x2000000 ≤ a && a < 0x2600000 then
    let o := a % 0x40000
    if 0x10008 ≤ o && o < 0x10028 then some (512 + (a - 0x2000000) / 0x40000, s.sealOpen) else none
  else if 0x2600000 ≤ a && a < 0x2600800 then if a % 0x20 < 0x10 then some (600, s.sealOpen) else none
  else if a = 0x2920010 || (0x2920100 ≤ a && a < 0x2920190) then some (700, s.sealOpen)
  else if a = 0x2950008 then some (702, s.sealOpen)
  else none

/-- The 64-bit registers of stack k (R218). -/
def SluiceCfg.write64 (c : SluiceCfg) (o : Nat) (v : BitVec 64) : SluiceCfg :=
  match o with
  | 0x10008 => { c with smapBase := v.truncate 48 }
  | 0x10010 => { c with grpBase := v.truncate 48 }
  | 0x10018 => { c with factBase := v.truncate 48 }
  | _ => { c with ledgerBase := v.truncate 48, ledgerDepth := (v >>> 48).truncate 16 }

/-- PLT_PTIMEn and PLT_PSCMAPm (R128). -/
def Pacer.write64 (q : Pacer) (o : Nat) (v : BitVec 64) : Pacer :=
  if o < 0x6A0 then { q with ptime := q.ptime.set ((o - 0x680) / 8) v }
  else { q with scmap := q.scmap.set ((o - 0x6A0) / 8) { dbase := v.truncate 24, sbase := (v >>> 32).truncate 24 } }

/-- Both words of the 64-bit register at a take a value (R412). -/
def commit64 (a : Nat) (v : BitVec 64) (s : State) : State :=
  let h := s.host
  match a with
  | 0x100 => s.onBoot (fun b => { b with addr := v.truncate 48 })
  | 0x3000 => { s with host := { h with jbase := v &&& ~~~0xFFF } }
  | 0x3008 => { s with host := { h with jheadWb := v &&& ~~~7 } }
  | 0x3018 => writeJtail v s
  | 0x3108 => writeBar4Base v.toNat s
  | 0x100020 => s.onClock (fun c => { c with load := v })
  | 0x2920010 => s.onRouter (fun r => { r with fmapBase := v.truncate 48, fmapDepth := (v >>> 48).truncate 16 })
  | 0x2950008 => s.onRelay (fun r => { r with missBase := v.truncate 48 })
  | _ =>
    if a < 0x2000000 then s.onPlot ((a - 0x1000000) / 0x8000) (fun x => x.onPacer (·.write64 (a % 0x8000) v))
    else if a < 0x2600000 then writeSlcCfg ((a - 0x2000000) / 0x40000) (·.write64 (a % 0x40000) v) s
    else if a < 0x2600800 then regionSet ((a - 0x2600000) / 0x20) (if a % 0x20 = 0 then .base else .size) v s
    else s.onRouter (fun r => { r with wgt := r.wgt.put ((a - 0x2920100) / 8) (v.truncate 40) })

/-- An aligned 4 B write of BAR0 (R412). -/
def writeWord (o : Nat) (v race : BitVec 32) (ecc : List (Nat × EccHit)) (s : State) : State :=
  let a := o / 8 * 8
  match s.reg64 a with
  | none => writeOne o v race ecc s
  | some (key, open_) =>
    if !open_ then s
    else if o = a then s.onStage (·.put key (a, v))
    else
      let low := (s.staged key a).getD (w32 (s.word0 a))
      commit64 a (v ++ low) (dropStage key a s)

/-- An aligned 8 B write of BAR0 (R410, R412). -/
def writePair (o : Nat) (v race : BitVec 64) (ecc : List (Nat × EccHit)) (s : State) : State :=
  match s.reg64 o with
  | none => writeBoth o v race ecc s
  | some (key, open_) => if open_ then commit64 o v (dropStage key o s) else s

/-- The window and the offset in it that an offset of BAR0 lies at (R408). -/
def winAt (o : Nat) : Option (Win × Nat) :=
  if 0x1000 ≤ o && o < 0x2000 then some (.pcw, o - 0x1000)
  else if 0x2000 ≤ o && o < 0x3000 then some (.jcw, o - 0x2000)
  else none

/-- A write of n bytes at o lies in CMD_REQ in a form it accepts (R410). -/
def reqForm (o n : Nat) : Bool := 4 ≤ n && n ≤ 64 && n % 4 = 0 && o % 4 = 0 && o + n ≤ 0x400

/-- A write of BAR0 (R409, R410). -/
def writeBar0 (o : Nat) (data : List Byte) (race : BitVec 64) (ecc : List (Nat × EccHit)) (s : State) : State :=
  let n := data.length
  let plain (s : State) : State :=
    if !accessOk o n || 0x4000000 ≤ o then s
    else if n = 4 then writeWord o (BitVec.ofNat 32 (leNat data)) (lo32 race) ecc s
    else writePair o (BitVec.ofNat 64 (leNat data)) race ecc s
  match winAt o with
  | some (w, q) => if reqForm q n then writeReq w q data s else plain s
  | none => plain s

/-- A write of BAR2 (R382, R383, R407): only the JCW lies open. -/
def writeBar2 (o : Nat) (data : List Byte) (race : BitVec 64) (ecc : List (Nat × EccHit)) (s : State) : State :=
  if o < 0x1000 then writeBar0 (o + 0x2000) data race ecc s else if o < 0x100000 then strayBar2 o s else s

/-- REGISTER_WRITE (R8 to R10, R407, R410, R412, R414): `race` names the W1C bits of the two words at off that the event taken just
before set in the same cycle, and `ecc` what SECDED finds in Reservoirs that the write has read. -/
def execRegisterWrite (bar2 : Bool) (off : Nat) (data : List Byte) (race : BitVec 64) (ecc : List (Nat × EccHit)) (s : State) :
    Out := s.busWrite <|
  .next (if bar2 then writeBar2 off data race ecc s else writeBar0 off data race ecc s)

/-! ### PACER_SET -/

/-- The registers that PACER_SET writes by their offset in the Plot's space (R126, R396): true for a 64-bit one. -/
def pacerSetReg (o : Nat) : Option Bool :=
  if o = 0x500 || o = 0x504 || o = 0x604 || o = 0x608 || o = 0x60C then some false
  else match arr o 0x650 4 8, arr o 0x680 8 8, arr o 0x6C0 0x10 4, arr o 0x700 4 4 with
    | some (_, b), _, _, _ => if b = 0 then some false else none
    | _, some (_, b), _, _ => if b = 0 then some true else none
    | _, _, some (_, b), _ => if b = 0 || b = 4 || b = 0xC then some false else none
    | _, _, _, some (_, b) => if b = 0 then some false else none
    | _, _, _, _ => none

/-- A value holds a reserved encoding of the register (R85, R86, R108, R127, R395). -/
def pacerSetBad (o : Nat) (wide : Bool) (v : BitVec 64) : Bool :=
  let n := v.toNat
  (!wide && 2 ^ 32 ≤ n) || (o = 0x504 && (field n 3 2 = 3 || field n 5 2 = 3)) || (o = 0x608 && (field n 0 12 = 0 || field n 16 12 = 0))
  || (0x650 ≤ o && o < 0x670 && (List.range 8).any (fun i => 4 < field n (4 * i) 4))

/-- One Plot takes the value. -/
def pacerSetOne (o : Nat) (wide : Bool) (v : BitVec 64) (p : Nat) (s : State) : State :=
  if wide then s.onPlot p (fun x => x.onPacer (·.write64 o v)) else writePlotReg p o (lo32 v) [] s

/-- PACER_SET (R126, R395, R396): a Plot whose Pacer is not STOPPED refuses it. -/
def execPacerSet (w : Win) (pset : BitVec 256) (offset : BitVec 32) (value : BitVec 64) (s : State) : Out := s.live <|
  command w 0x14 [pset.toNat, offset.toNat, value.toNat] (fun _ s =>
    match pacerSetReg offset.toNat with
    | none => refuse stRange s
    | some wide =>
      if pacerSetBad offset.toNat wide value then refuse stRsvEnc s
      else if s.psetBad pset then refuse stRange s
      else if s.power.st == .retain then refuse stState s
      else
        let ps := s.psetPhys pset
        let bad := ps.filter (fun e => (s.plot e.2).pacer.st != .stopped)
        let ok := ps.filter (fun e => (s.plot e.2).pacer.st == .stopped)
        { st := stOk
          res := pack [(32, (psetOf (bad.map (·.1))).toNat)]
          s := ok.foldl (fun s e => pacerSetOne offset.toNat wide value e.2 s) s }) s

end Sys2Proof.Machine
end

