-- ==== Sys2Proof/Machine/Seal.lean ====
section
/-! DEFINITION. The config seal (R420 to R427): the sealed set, its CRCs, the seal commands and the passes. -/

namespace Sys2Proof.Machine

/-- Change the seal. -/
def State.onSeal (s : State) (f : Seal → Seal) : State := { s with cfgSeal := f s.cfgSeal }

/-- The (offset, sealed value) of every word of a directory entry, in stream order (R421, R422). -/
def State.sealWords (s : State) (e : DirE) : List (Nat × Nat) :=
  if e.kind = 1 then
    (List.range 32768).map (fun k =>
      (e.offset + k / 16384 * 0x10000 + 4 * (k % 16384), Nat.land (s.router.bankWord (16384 ≤ k) (k % 16384)) e.mask))
  else (List.range e.count).map (fun k => (e.offset + k * e.stride, Nat.land (s.word0 (e.offset + k * e.stride)) e.mask))

/-- stream(e) of R422. -/
def State.sealStream (s : State) (e : DirE) : List Byte := (s.sealWords e).flatMap (fun p => leBytes 4 p.1 ++ leBytes 4 p.2)

/-- The CRC of every entry (R422). -/
def State.entryCrcs (s : State) : List (BitVec 32) := sealDir.map (fun e => crc32c (s.sealStream e))

/-- REF over the whole directory (R422). -/
def State.sealRef (s : State) : BitVec 32 := crc32c (sealDir.flatMap s.sealStream)

/-! ### Commands -/

/-- SEAL_OPEN (R423). -/
def execSealOpen (w : Win) (s : State) : Out := s.live <|
  command w 0x90 [] (fun _ s => done (s.onSeal (fun c => { c with st := .open, cur := 0 }))) s

/-- SEAL_COMMIT (R423). -/
def execSealCommit (w : Win) (ref : BitVec 32) (s : State) : Out := s.live <|
  command w 0x91 [ref.toNat] (fun _ s =>
    match s.cfgSeal.st with
    | .open =>
      if s.sealRef = ref then done (s.onSeal (fun c => { c with st := .sealed, ref := ref, crcs := s.entryCrcs }))
      else { st := stFailed, res := pack [(4, 1)], s := s.onSeal (fun c => { c with commitFail := true }) }
    | .sealed => if s.cfgSeal.ref = ref then done s else refuse stState s
    | .broken => refuse stState s) s

/-- SEAL_STATUS (R423, R396). -/
def execSealStatus (w : Win) (s : State) : Out := s.live <|
  command w 0x92 [] (fun _ s =>
    { st := stOk, res := pack [(4, s.cfgSeal.stat), (4, s.cfgSeal.firstBad.toNat)], s }) s

/-! ### Upsets -/

/-- One half of a 64-bit value is replaced by a word. -/
def setHalf (old : BitVec 64) (hi : Bool) (v : BitVec 32) : BitVec 64 := if hi then v ++ lo32 old else hi32 old ++ v

/-- A sealed word of stack k changes without a write. -/
def upsetStack (k o : Nat) (v : BitVec 32) (s : State) : State :=
  let n := v.toNat
  let slc (f : SluiceCfg → SluiceCfg) : State := sampleIdle k (s.onSluice k (fun y => { y with cfg := f y.cfg }))
  match o with
  | 0x14 => s.onStack k (fun x => { x with scrubInterval := v.truncate 16, rowThresh := BitVec.ofNat 4 (field n 16 4) })
  | 0x10000 => slc (fun c => { c with smapCount := v.truncate 19, factCount := BitVec.ofNat 10 (field n 19 10) })
  | 0x10028 => slc (fun c => { c with holdWait := v })
  | 0x30000 => s.onCommit (fun c => { c with mode := bitOf n 0, stalePolicy := bitOf n 1 })
  | _ =>
    let a := o / 8 * 8
    let old := BitVec.ofNat 64 (leNat (wordsBytes (s.stackWord k) a 8))
    slc (·.write64 a (setHalf old (o % 8 = 4) v))

/-- A sealed word of a region changes without a write: nothing checks it. -/
def Region.upset (r : Region) (b : Nat) (v : BitVec 32) : Region :=
  let n := v.toNat
  let wide (old : BitVec 36) (hi : Bool) : BitVec 36 := (setHalf (old.zeroExtend 64) hi v).truncate 36
  match b with
  | 0x0 => { r with base := wide r.base false }
  | 0x4 => { r with base := wide r.base true }
  | 0x8 => { r with size := wide r.size false }
  | 0xC => { r with size := wide r.size true }
  | 0x10 => { r with soff := v.truncate 24 }
  | _ => { r with mode := BitVec.ofNat 2 n, side := BitVec.ofNat 2 (field n 2 2), stack := BitVec.ofNat 5 (field n 4 5),
                  sluice := bitOf n 9, valid := bitOf n 10 }

/-- A sealed word of link l changes without a write. -/
def upsetLink (l o : Nat) (v : BitVec 32) (s : State) : State :=
  let n := v.toNat
  if o = 0x60 then s.onLink l (fun x => { x with members := v.truncate 18, canalEn := bitOf n 18 })
  else
    let was := (s.link l).enable
    let s := s.onLink l (fun x =>
      { x with medium := BitVec.ofNat 2 (field n 1 2), autoSpare := bitOf n 3, minWidth := BitVec.ofNat 3 (field n 4 3),
               replayLimit := BitVec.ofNat 4 (field n 7 4), laneThresh := BitVec.ofNat 8 (field n 11 8) })
    if was == bitOf n 0 then s else writeEnable l (bitOf n 0) noDseq s

/-- A sealed word of the router and discovery space changes without a write. -/
def upsetFab (o : Nat) (v : BitVec 32) (s : State) : State :=
  let n := v.toNat
  match o with
  | 0x0 => s.onRouter (fun r => { r with fmapEn := bitOf n 0, fmapThresh := BitVec.ofNat 8 (field n 8 8) })
  | 0x40C => s.onRouter (fun r => { r with settle := v.truncate 10 })
  | _ =>
    let a := o / 8 * 8
    let old := BitVec.ofNat 64 (leNat (wordsBytes s.fabWord a 8))
    commit64 (0x2920000 + a) (setHalf old (o % 8 = 4) v) s

/-- The sealed word at an offset of the stream takes a value without a write (R420): an upset, or a fault of the register. -/
def putSealed (o : Nat) (v : BitVec 32) (s : State) : State :=
  if o < 0x2600000 then upsetStack ((o - 0x2000000) / 0x40000) (o % 0x40000) v s
  else if o < 0x2601000 then
    let r := (o - 0x2600000) / 0x20
    { s with regions := { s.regions with tbl := s.regions.tbl.put r ((s.regions.tbl.get r {}).upset (o % 0x20) v) } }
  else if o < 0x2920000 then upsetLink ((o - 0x2800000) / 0x10000) (o % 0x10000) v s
  else if o < 0x2930000 then upsetFab (o - 0x2920000) v s
  else if o < 0x2940000 then s.onRouter (fun r => { r with bank0 := r.bank0.put ((o - 0x2930000) / 4) v })
  else if o < 0x2950000 then s.onRouter (fun r => { r with bank1 := r.bank1.put ((o - 0x2940000) / 4) v })
  else match o with
    | 0x2950004 => s.onRelay (fun r => { r with timeout := v })
    | 0x2950008 => s.onRelay (fun r => { r with missBase := (setHalf (r.missBase.zeroExtend 64) false v).truncate 48 })
    | _ => s.onRelay (fun r => { r with missBase := (setHalf (r.missBase.zeroExtend 64) true v).truncate 48 })

/-- Sealed bits of the word at an offset flip; bits that are not sealed do not count (R420). -/
def upsetAt (o : Nat) (flip : BitVec 32) (s : State) : State :=
  match sealDir.find? (fun e => (s.sealWords e).any (fun p => p.1 == o)) with
  | some e =>
    match (s.sealWords e).find? (fun p => p.1 == o) with
    | some p => putSealed o (BitVec.ofNat 32 p.2 ^^^ (flip &&& BitVec.ofNat 32 e.mask)) s
    | none => s
  | none => s

/-! ### Passes -/

/-- A pass finds a mismatch (R426): the first brings the seal to BROKEN and posts SEAL_BREAK. -/
def sealMismatch (e : Nat) (crc : BitVec 32) (s : State) : State :=
  let c := s.cfgSeal
  let s := s.onSeal (fun c => { c with cnt := satAdd c.cnt 1 })
  if c.st == .sealed then
    event 0x89 4 e [w32 ((sealDir[e]?).map (·.offset) |>.getD 0), c.crcs.getD e 0, crc, c.ref] noDseq
      (s.onSeal (fun c => { c with st := .broken, brk := true, firstBad := if c.brk then c.firstBad else BitVec.ofNat 8 e }))
  else stepFatal s

/-- One pass over the sealed set (R425). -/
def sealPass (s : State) : State :=
  let now := s.entryCrcs
  let s := s.onSeal (fun c => { c with cur := s.sealRef })
  match (List.range sealDir.length).find? (fun e => now[e]? != s.cfgSeal.crcs[e]?) with
  | some e => sealMismatch e (now.getD e 0) s
  | none => s

/-- SEAL_PASS (R425, R426): `upset` names a word by its offset in the stream and the bits of it that flipped before the pass; no
pass runs while the seal is OPEN. -/
def execSealPass (upset : Option (Nat × BitVec 32)) (s : State) : Out := s.live <|
  when (s.cfgSeal.st != .open)
    (sealPass (match upset with | some (o, flip) => upsetAt o flip s | none => s)) s

end Sys2Proof.Machine
end

