-- ==== Sys2Proof/Machine/Tokens.lean ====
section
/-! DEFINITION. Debug and lifecycle tokens (R461, R462), the debug level (R464), the lifecycle (R459, R460) and the clear of FULL in
PROD (R464). -/

namespace Sys2Proof.Machine

/-- KIND of a token (R461). -/
def tokKind (b : List Byte) : Nat := field (leAt b 0xA0 4) 0 2
/-- VALUE of a token (R461). -/
def tokValue (b : List Byte) : Nat := field (leAt b 0xA0 4) 2 2
/-- LC_MASK of a token (R461). -/
def tokMask (b : List Byte) : Nat := field (leAt b 0xA0 4) 4 4

/-- The first certificate of a chain in DER: its whole length, tag and length bytes included (R454). -/
def derLen (b : List Byte) : Nat :=
  let n := leAt b 1 1
  if n < 128 then 2 + n else 2 + (n - 128) + beNat (cut b 2 (n - 128))

/-- SHA-512 of the root certificate of the chain in the CERT store (R454, R461). -/
def Sec.certRoot (c : Sec) : List Byte := sha512 (c.cert.take (derLen c.cert))

/-- Cause 1 (R462): MAGIC, KIND and reserved fields. -/
def tokForm (b : List Byte) (kind : Nat) : Bool :=
  manifestOk b && tokKind b = kind && field (leAt b 0xA0 4) 8 24 = 0 && leAt b 0xA4 4 = 0 && zeroAt b 0xF8 0xC8

/-- Cause 11 (R461, R462). -/
def tokSerial (c : Sec) (b : List Byte) : Bool :=
  let n := leAt b 0xA8 8
  n = c.serial.toNat || (n = 0 && (c.lc = 0 || c.lc = 1))

/-- The transitions of R460. -/
def lcStep (lc target : Nat) : Bool := (lc = 0 && (target = 1 || target = 2)) || ((lc = 1 || lc = 2) && target = 3)

/-- Cause 14 (R461, R462): only a lifecycle token from BLANK names a root. -/
def tokRoot (c : Sec) (b : List Byte) (kind : Nat) : Bool :=
  if kind = 2 && c.lc = 0 then !c.cert.isEmpty && cut b 0xB8 64 == c.certRoot else zeroAt b 0xB8 64

/-- The first cause of R462 that a token of 512 bytes fails by; `target` is the lifecycle that the command names. -/
def tokCause (c : Sec) (b : List Byte) (kind target : Nat) : Option Nat :=
  if !tokForm b kind then some 1
  else
    let key := if kind = 1 && c.lc = 0 then none else keyStep c b (if kind = 1 then 5 else 6) (tokMask b)
    match key with
    | some k => some k
    | none =>
      if !tokSerial c b then some 11
      else if leAt b 0xB0 8 != c.nonce.toNat then some 12
      else if kind = 1 && !(tokValue b = 1 || tokValue b = 2) then some 13
      else if kind = 1 && tokValue b ≤ c.dbg.toNat then some 13
      else if kind = 2 && !(tokValue b = target && lcStep c.lc.toNat target) then some 13
      else if !tokRoot c b kind then some 14
      else none

/-- A token is rejected (R462, R471). -/
def tokReject (w : Win) (cause kind key : Nat) (d : BitVec 32) (s : State) : Reply :=
  let s := s.onSec (fun c => { c with tokReject := true, tokCause := if c.tokReject then c.tokCause else BitVec.ofNat 4 cause })
  { st := stFailed, res := pack [(4, cause)], s := note 0xC1 (winIndex w) [w32 kind, w32 cause, w32 key] d s }

/-- Read a token and check it (R462): bytes that are poisoned form no token, so they fail cause 1, and so does any other length. -/
def withToken (w : Win) (addr n kind target : Nat) (ecc : List (Nat × EccHit)) (d : BitVec 32) (s : State) (act : List Byte → State → Reply) : Reply :=
  if n != 512 then tokReject w 1 0 0 d s
  else if 2 ^ 48 < addr + n || s.memErr none addr n != 0 then refuse stRange s
  else
    let g := devRead none addr n ecc s
    let b := g.1.bytes
    if !g.1.bad.isEmpty then tokReject w 1 0 0 d g.2
    else match tokCause g.2.sec b kind target with
      | some k => tokReject w k (tokKind b) (keyId b) d g.2
      | none => act b g.2

/-- DEBUG_TOKEN and LIFECYCLE are carried out one at a time with a power transition and a FULL clear (R468), and wait for HBM that
cannot be read yet. -/
def State.tokenWaits (s : State) (addr n : Nat) : Bool := s.power.busy || s.sec.clearing || s.memWaits addr n

/-- What a DEBUG_TOKEN or LIFECYCLE does, and then its new nonce (R462). -/
def thenNonce (r : Reply) : Reply := { r with s := newNonce r.s }

/-! ### The debug level -/

/-- The conditions of a raise to FULL in PROD (R464). -/
def State.clearOk (s : State) : Bool :=
  s.commit.st == .idle && !s.anyPacer (fun q => q.st != .stopped) && s.relay.ctxs.all (fun e => e.2.st == .free)

/-- DEBUG_TOKEN (R460, R462, R464, R468): FULL in PROD is a long command. -/
def execDebugToken (w : Win) (addr : BitVec 64) (bytes : BitVec 32) (ecc : List (Nat × EccHit)) (s : State) : Out := s.live <|
  if bytes = 0 || s.tokenWaits addr.toNat bytes.toNat then .next s
  else command w 0xA2 [addr.toNat, bytes.toNat] (fun d s => thenNonce (
    if s.sec.lcPending || s.power.st == .retain then refuse stState s
    else withToken w addr.toNat bytes.toNat 1 0 ecc d s (fun b s =>
      let level := tokValue b
      if level = 2 && s.sec.lc = 2 then
        if !s.clearOk then refuse stState s
        else accept w 0xA2 d 0 (s.onSec (fun c => { c with clearing := true, clearTok := some (d, BitVec.ofNat 4 (keyId b), s.now) }))
      else { st := stOk, res := pack [(4, level)], s := setDebug level (keyId b) d s }))) s

/-- DEBUG_TOKEN_LOWER (R464): a DEBUG_TOKEN with BYTES 0. -/
def execDebugTokenLower (w : Win) (addr : BitVec 64) (s : State) : Out := s.live <|
  if s.tokenWaits 0 0 then .next s
  else command w 0xA2 [addr.toNat, 0] (fun d s => thenNonce { st := stOk, res := pack [(4, 0)], s := setDebug 0 0 d s }) s

/-- A Basin with every word zero. -/
def Furrow.zeroed (fu : Furrow) : Furrow := { fu with words := [], tags := [], poison := [] }

/-- A Plot with its Reservoir, Basin, step memory and tables at zero (R464). -/
def Plot.zeroed (x : Plot) : Plot :=
  { x with furrows := x.furrows.map Furrow.zeroed, stepMem := [], vtab := [], dtab := [], resv := [], resvPoison := [] }

/-- A context with nothing in the Relay store (R464). -/
def Ctx.zeroed (x : Ctx) : Ctx := { x with sums := [], early := [], held := [], src := [], dst := [] }

/-- The contents that FULL in PROD clears (R464). -/
def clearContents (s : State) : State :=
  { s with plots := s.plots.mapVals (fun _ x => x.zeroed)
           stks := s.stks.mapVals (fun _ x => { x with mem := [], poison := [], latent := [], ueSeen := [] })
           relay := { s.relay with ctxs := s.relay.ctxs.mapVals (fun _ x => x.zeroed) } }

/-- Signing is withdrawn (R458, R471). -/
def withdraw (reason : Nat) (d : BitVec 32) (s : State) : State :=
  if s.sec.signOk then note 0xC8 0 [w32 reason] d (s.onSec (fun c => { c with signOk := false })) else s

/-- ns that clearing 2 GiB at 64 GB/s takes (R464). -/
def clearNs : Nat := 33554432

/-- CONTENT_CLEAR_COMPLETE (R464, R471): FULL takes effect. -/
def execContentClearComplete (s : State) : Out := s.live <|
  match s.sec.clearTok with
  | none => .next s
  | some (d, key, t0) =>
    let s := clearContents (s.advanceTo (t0.toNat + clearNs))
    let s := note 0xC7 0 [1, w32 ((s.now.toNat - t0.toNat) / 1000000)] d (s.onSec (fun c => { c with clearing := false, clearTok := none }))
    .next (finishLong d stOk [2] (withdraw 1 d (setDebug 2 key.toNat d s)))

/-! ### Lifecycle -/

/-- An accepted lifecycle token (R460): the target's bit is burned and the change is pending. -/
def lifecycleSet (target key : Nat) (d : BitVec 32) (s : State) : Reply :=
  let old := s.sec.lc.toNat
  let s := s.onSec (fun c =>
    { c with lcBits := c.lcBits ||| (1 <<< (target - 1)), lcPending := true, lcTarget := BitVec.ofNat 2 target })
  let s := note 0xC2 0 [w32 old, w32 target, w32 key] d s
  { st := stOk, res := pack [(4, target)], s := withdraw 2 d s }

/-- LIFECYCLE (R460, R462, R468). -/
def execLifecycle (w : Win) (target : BitVec 32) (addr : BitVec 64) (bytes : BitVec 32) (ecc : List (Nat × EccHit)) (s : State) : Out := s.live <|
  if s.tokenWaits addr.toNat bytes.toNat then .next s
  else command w 0xA3 [target.toNat, addr.toNat, bytes.toNat] (fun d s => thenNonce (
    if s.sec.lcPending then refuse stState s
    else withToken w addr.toNat bytes.toNat 2 target.toNat ecc d s (fun b s => lifecycleSet target.toNat (keyId b) d s))) s

end Sys2Proof.Machine
end

