-- ==== Sys2Proof/Machine/Attest.lean ====
section
/-! DEFINITION. The DevID certificate chain (R454), the measurements (R457), SPDM over DOE and MCTP (R456, R458), and what the board
management controller asks over MCTP (R429, R240, R241). Message codes and flags are those of SPDM 1.2 (PRESUMED, log 41). -/

namespace Sys2Proof.Machine

/-! ### What is reported -/

/-- The chain in SPDM form (R454). -/
def Sec.chain (c : Sec) : List Byte :=
  if c.cert.isEmpty then [] else leBytes 2 (68 + c.cert.length) ++ [0, 0] ++ c.certRoot ++ c.cert

/-- BODY_HASH of a slot, and zeros where it counts for none (R457). -/
def Boot.bodyHash (b : Boot) (slot use : Bool) : List Byte := if use then imgBodyHash (b.image slot) else List.replicate 64 0

/-- SVN of a slot (R457), 0 where the slot holds no image. -/
def Boot.slotSvn (b : Boot) (slot : Bool) : Nat := imgSvn (b.image slot)

/-- The DMTF value type and the value of measurement i (R457): true for a digest. The raw values' layout is the model's (log 41). -/
def State.measurement (s : State) (i : Nat) : Nat × Bool × List Byte :=
  let b := s.boot
  match i with
  | 1 => (0, true, Config.romHash)
  | 2 => (1, true, b.bodyHash b.slot (!(b.image b.slot).isEmpty))
  | 3 => (1, true, b.bodyHash s.freeSlot s.bothSlots)
  | 4 => (7, false, leBytes 1 (b.slotSvn b.slot) ++ leBytes 1 (if s.bothSlots then b.slotSvn s.freeSlot else 0)
      ++ leBytes 1 s.sec.svnMin ++ leBytes 8 (b.active.toNat + putField 32 b.staged.toNat))
  | 5 => (2, false, (s.sec.rootHash ++ List.replicate 64 0).take 64 ++ leBytes 2 s.sec.revoke.toNat ++ leBytes 1 s.sec.lcBits.toNat
      ++ leBytes 4 (s.word0 0x120))
  | 6 => (3, false, leBytes 1 (s.cfgSeal.stat % 4) ++ leBytes 4 s.cfgSeal.ref.toNat)
  | _ => (5, false, leBytes 4 s.sec.stat)

/-- The measurement block of index i (R457). -/
def State.block (s : State) (i : Nat) : List Byte :=
  let m := s.measurement i
  let n := m.2.2.length
  leBytes 1 i ++ [1] ++ leBytes 2 (n + 3) ++ leBytes 1 (m.1 + if m.2.1 then 0 else 128) ++ leBytes 2 n ++ m.2.2

/-- The seven blocks. -/
def State.blocks (s : State) : List Byte := (List.range 7).flatMap (fun i => s.block (i + 1))

/-! ### Commands of the host -/

/-- Bytes go to host memory, at most MAX of them; BYTES is how many (R396). A command that moves host data waits in D3hot (R380). -/
def toHost (w : Win) (op : Nat) (host : BitVec 64) (max : BitVec 32) (bs : State → List Byte) (s : State) : Out :=
  if s.host.d3hot then .next s
  else command w op [host.toNat, max.toNat] (fun _ s =>
    let out := (bs s).take max.toNat
    { st := stOk, res := pack [(4, out.length)], s := s.hostPut host.toNat out }) s

/-- MEASUREMENTS (R456, R457). -/
def execMeasurements (w : Win) (host : BitVec 64) (max : BitVec 32) (s : State) : Out := s.live <| toHost w 0xA0 host max State.blocks s

/-- DEVID_CHAIN (R454): in BLANK the public key alone. -/
def execDevidChain (w : Win) (host : BitVec 64) (max : BitVec 32) (s : State) : Out := s.live <|
  toHost w 0xA1 host max (fun s =>
    if s.sec.lc = 0 then (if s.sec.devid.isEmpty then [] else edPublic s.sec.devid) else s.sec.chain) s

/-! ### SPDM -/

/-- The device answers an SPDM request (R456): over DOE through the Command Marshal, over MCTP through the Health Marshal. A request
that no role serves is not answered (log 1). -/
def spdm (doe : Bool) (f : State → List Byte × State) (s : State) : Out :=
  when (s.roleUp (if doe then 1 else 4)) (let r := f s; r.2.onSec (fun c => { c with spdm := r.1 })) s

/-- ERROR with a code: 1 InvalidRequest, 5 Unspecified. -/
def spdmError (code : Nat) : List Byte := [0x12, 0x7F, BitVec.ofNat 8 code, 0]

/-- Only in DEV and PROD are the requests after GET_CAPABILITIES answered (R458). -/
def attested (f : State → List Byte × State) (s : State) : List Byte × State :=
  if s.sec.lc = 1 || s.sec.lc = 2 then f s else (spdmError 5, s)

/-- The signature of a response by the DevID (R447, R456): the spec does not state what SPDM hashes, so the hash signed is free
(log 41). -/
def devSign (s : State) : List Byte × State :=
  let h := s.drawBytes 64
  (edSign h.2.sec.devid h.1, h.2)

/-- GET_VERSION (R456): version 1.2. -/
def execGetVersion (doe : Bool) (s : State) : Out := s.live <| spdm doe (fun s => ([0x10, 0x04, 0, 0, 0, 1, 0, 0x12], s)) s

/-- CERT_CAP, CHAL_CAP and MEAS_CAP with signature. -/
def spdmCaps : Nat := 0x16

/-- GET_CAPABILITIES (R456): the time exponent and the message sizes are free (log 41). -/
def execGetCapabilities (doe : Bool) (s : State) : Out := s.live <|
  spdm doe (fun s =>
    let f := s.drawBytes 9
    ([0x12, 0x61, 0, 0, 0] ++ f.1.take 1 ++ [0, 0] ++ leBytes 4 spdmCaps ++ f.1.drop 1, f.2)) s

/-- NEGOTIATE_ALGORITHMS (R456): what the requester does not offer is not selected. -/
def execNegotiateAlgorithms (doe : Bool) (q : AlgReq) (s : State) : Out := s.live <|
  spdm doe (attested (fun s =>
    ([0x12, 0x63, 0, 0] ++ leBytes 2 36 ++ [if q.dmtf then 1 else 0, 0] ++ leBytes 4 (if q.sha512 then 8 else 0)
      ++ leBytes 4 (if q.ed25519 then 0x400 else 0) ++ leBytes 4 (if q.sha512 then 4 else 0) ++ List.replicate 16 0, s))) s

/-- GET_DIGESTS (R454, R456): slot 0 alone holds a chain. -/
def execGetDigests (doe : Bool) (s : State) : Out := s.live <|
  spdm doe (attested (fun s =>
    (if s.sec.chain.isEmpty then [0x12, 0x01, 0, 0] else [0x12, 0x01, 0, 1] ++ sha512 s.sec.chain, s))) s

/-- GET_CERTIFICATE (R454, R456): a portion of the chain of slot 0. -/
def execGetCertificate (doe : Bool) (slot off len : Nat) (s : State) : Out := s.live <|
  spdm doe (attested (fun s =>
    let c := s.sec.chain
    if slot != 0 || c.length ≤ off then (spdmError 1, s)
    else
      let part := cut c off len
      ([0x12, 0x02, 0, 0] ++ leBytes 2 part.length ++ leBytes 2 (c.length - off - part.length) ++ part, s))) s

/-- CHALLENGE (R456, R458): the requester's nonce enters what is signed. -/
def execChallenge (doe : Bool) (slot : Nat) (nonce : List Byte) (s : State) : Out := s.live <|
  spdm doe (attested (fun s =>
    if !s.sec.signOk then (spdmError 5, s)
    else if slot != 0 || s.sec.chain.isEmpty || nonce.length != 32 then (spdmError 1, s)
    else
      let n := s.drawBytes 32
      let g := devSign n.2
      ([0x12, 0x03, 0, 1] ++ sha512 s.sec.chain ++ n.1 ++ [0, 0] ++ g.1, g.2))) s

/-- The number of blocks and the blocks that an index of GET_MEASUREMENTS asks for. -/
def State.asked (s : State) (index : Nat) : Option (Nat × List Byte) :=
  if index = 0 then some (0, [])
  else if index = 255 then some (7, s.blocks)
  else if index ≤ 7 then some (1, s.block index)
  else none

/-- GET_MEASUREMENTS (R456 to R458): index 0 asks for their number, 255 for all. -/
def execGetMeasurements (doe : Bool) (index : Nat) (signed : Bool) (nonce : List Byte) (s : State) : Out := s.live <|
  spdm doe (attested (fun s =>
    if signed && !s.sec.signOk then (spdmError 5, s)
    else if signed && nonce.length != 32 then (spdmError 1, s)
    else match s.asked index with
      | none => (spdmError 1, s)
      | some (n, bs) =>
        let r := s.drawBytes 32
        let g := if signed then devSign r.2 else ([], r.2)
        ([0x12, 0x60, if index = 0 then 7 else 0, 0] ++ leBytes 1 n ++ leBytes 3 bs.length ++ bs ++ r.1 ++ [0, 0] ++ g.1, g.2))) s

/-! ### The board management controller -/

/-- The TDP settings of the ordering code (R1). -/
def State.tdpOk (s : State) (w : BitVec 16) : Bool := 2400 ≤ w.toNat && w.toNat ≤ (if s.power.orderCode then 3200 else 3800)

/-- The sensor reading that PLDM monitoring carries (R429): power over 1 µs and 1 ms, the cap in force, the TDP setting, the islands'
and the stacks' temperatures (layout: log 41). -/
def State.sensors (s : State) : List (BitVec 16) :=
  let q := s.power
  [q.p1us, q.p1ms, BitVec.ofNat 16 q.capEff, q.tdp] ++ q.islands.map (fun d => d.temp.zeroExtend 16)
    ++ (List.range 24).map (fun k => (s.stack k).temp.zeroExtend 16)

/-- MCTP_REQUEST (R240, R241, R429, R441): served while the Health role runs. A TDP outside the ordering code's range is not set. -/
def execMctpRequest (q : MctpReq) (s : State) : Out := s.live <|
  when (s.roleUp 4)
    (match q with
     | .monitor => s.onSec (fun c => { c with pldm := s.sensors })
     | .setTdp w => if s.tdpOk w then s.onPower (fun p => { p with tdp := w }) else s
     | .setCap w => s.onPower (fun p => { p with capBmc := w })
     | .setCeil islands mhz => setCeils islands.toNat (fun d => { d with ceilBmc := mhz }) s) s

end Sys2Proof.Machine
end

