-- ==== Sys2Proof/Machine/Debug.lean ====
section
/-! DEFINITION. The test port (R463, R469): what each operation reaches at each debug level, and the CERT store in BLANK (R454). -/

namespace Sys2Proof.Machine

/-- The debug level that an operation needs (R463): 3 for none, the CERT store's write being open in BLANK alone (R454). -/
def dbgLevel : DbgOp → Nat
  | .idcode => 0
  | .boundary => 0
  | .marshalTrace _ => 1
  | .pacerTrace _ => 1
  | .telemetry => 1
  | .certWrite _ => 0
  | _ => 2

/-- The operation reaches a Plot, which does not answer in RETAIN (R463, R469). -/
def dbgPlot : DbgOp → Bool
  | .pacerTrace _ => true
  | .rsvRead .. => true
  | .rsvWrite .. => true
  | .basinRead .. => true
  | .basinWrite .. => true
  | .stepRead .. => true
  | .stepWrite .. => true
  | _ => false

/-- What the port shifts out. -/
def shiftOut (bs : List Byte) (s : State) : State := { s with host := { s.host with dbgData := bs } }

/-- Contents that the spec does not give: free bytes (log 42). -/
def shiftFree (n : Nat) (s : State) : State := let r := s.drawBytes n; shiftOut r.1 r.2

/-- Bytes of a Marshal's SRAM and control range. -/
def State.sramBytes (s : State) (a n : Nat) : List Byte := (List.range n).map (fun i => s.host.marshalSram.get (a + i) 0)

/-- Bytes of a stack. -/
def stackSize : Nat := 30 * chBytes

/-- The elements of a context's blocks in the Relay store. -/
def Ctx.storeBytes (x : Ctx) : List Byte := x.sums.flatMap (fun b => b.data.flatMap (fun e => leBytes 8 e.1.toNat))

/-- Write an element of a block in the Relay store. -/
def Ctx.putStore (x : Ctx) (blk elem : Nat) (v : BitVec 64) : Ctx :=
  { x with sums := x.sums.map (fun b => if b.blk = blk then { b with data := listUpd b.data elem (fun e => (v, e.2)) } else b) }

/-- An operation that the level opens, but for a Marshal's step. -/
def debugOp (op : DbgOp) (s : State) : State :=
  match op with
  | .idcode => shiftFree 4 s
  | .boundary => shiftOut [] s
  | .marshalTrace m => if m < 6 then shiftFree 64 s else shiftOut [] s
  | .pacerTrace p => if p < 272 then shiftFree 64 s else shiftOut [] s
  | .telemetry => shiftOut ((s.snapshot 0).flatMap (fun v => leBytes 4 v.toNat)) s
  | .halt m => shiftOut [] (s.onMarshal m (fun x => { x with halted := true }))
  | .step _ => s
  | .sramRead a n => shiftOut (if a + n ≤ 0x1000000 then s.sramBytes a n else []) s
  | .sramWrite a bs =>
    if a + bs.length ≤ 0x1000000 then
      { s with host := { s.host with marshalSram := bs.zipIdx.foldl (fun t e => t.put (a + e.2) e.1) s.host.marshalSram } }
    else s
  | .rsvRead p a n => shiftOut (if p < 272 && a + n ≤ rsvBytes then (s.plot p).resv.bytes a n else []) s
  | .rsvWrite p a bs => if p < 272 && a + bs.length ≤ rsvBytes then s.onPlot p (·.writeRsv a bs) else s
  | .basinRead p f row =>
    shiftOut (if p < 272 && f < 4 && row < 1024 then
      (List.range 64).flatMap (fun c => leBytes 4 (((s.plot p).furrow f).word row c).toNat) else []) s
  | .basinWrite p f row col v =>
    if p < 272 && f < 4 && row < 1024 && col < 64 then s.onPlot p (fun x => x.onFurrow f (fun fu => fu.putWord row col v false false)) else s
  | .stepRead p a n => shiftOut (if p < 272 && a + n ≤ 65536 then (s.plot p).stepMem.bytes a n else []) s
  | .stepWrite p a bs => if p < 272 && a + bs.length ≤ 65536 then s.onPlot p (fun x => { x with stepMem := x.stepMem.write a bs }) else s
  | .relayRead c => shiftOut (s.ctx c).storeBytes s
  | .relayWrite c blk elem v => if c < 128 then s.onCtx c (·.putStore blk elem v) else s
  | .hbmRead k sb n => shiftOut (if k < 24 && sb + n ≤ stackSize then ((s.stack k).rawBytes sb n).getD [] else []) s
  | .hbmWrite k sb bs => if k < 24 && sb + bs.length ≤ stackSize then rawWrite k sb bs s else s
  | .regRead o n => shiftOut (if accessOk o n && o < 0x4000000 then wordsBytes s.word0 o n else []) s
  | .regWrite o bs => writeBar0 o bs 0 [] s
  | .certWrite bs => s.onSec (fun c => if c.lc = 0 && c.cert.isEmpty && bs.length ≤ 8192 then { c with cert := bs } else c)

/-- The operation waits for HBM (R170, R177, R178). -/
def State.portWaits (s : State) (op : DbgOp) : Bool :=
  match op with
  | .hbmRead k sb n => k < 24 && sb + n ≤ stackSize && s.rawWaits k sb n
  | .hbmWrite k sb bs => k < 24 && sb + bs.length ≤ stackSize && s.rawWaits k sb bs.length
  | _ => false

/-- The port answers the operation (R463). -/
def State.portOpen (s : State) (op : DbgOp) : Bool :=
  dbgLevel op ≤ s.sec.dbg.toNat && !(dbgPlot op && s.power.st == .retain)

/-- DEBUG_PORT_ACCESS (R463, R469): a step of a Marshal executes an instruction of a set that the spec does not give. -/
def execDebugPortAccess (op : DbgOp) (s : State) : Out := s.live <|
  if !s.portOpen op then .next (shiftOut [] s)
  else if s.portWaits op then .next s
  else match op with
    | .step m => if m < 6 && (s.marshal m).halted then .refused .marshalInstruction else .next (shiftOut [] s)
    | op => .next (debugOp op s)

end Sys2Proof.Machine
end

