-- ==== Sys2Proof/Machine/Reset.lean ====
section
/-! DEFINITION. The resets (R11, R12, R380, R502), power removal (R496), the release of PERST_N and the boot core's first steps (R453,
R498, R499), BOOT_READY (R431), the retained image (R433), and the Fabric Marshal's mailbox (R430). -/

namespace Sys2Proof.Machine

/-! ### What the fuses give -/

/-- The lifecycle that the LC fuses give (R459). -/
def lcOfBits (b : BitVec 3) : BitVec 2 := if b.getLsbD 2 then 3 else if b.getLsbD 1 then 2 else if b.getLsbD 0 then 1 else 0

/-- The Marshals as the fused map leaves them (R429, R439, R446): each in reset, and a spare that has failed stays out. -/
def fusedMarshals (map : List Nat) (failed : BitVec 6) : List Marshal :=
  (List.range 6).map (fun m =>
    let role := (map.idxOf? m).map (· + 1) |>.getD 0
    { role := BitVec.ofNat 3 role, st := if role = 0 && failed.getLsbD m then .failed else .off })

/-- The power block right after a reset (R446, R470), with grants at the bin clock of the ordering code (R1). -/
def freshPower (order : Bool) : Power :=
  let bin := if order then 1100 else 1250
  let isl : Island := { grant := bin, therm := bin, fLast := bin }
  { orderCode := order, islands := List.replicate 16 isl, tdp := if order then 3200 else 3800, capAtGrant := if order then 3200 else 3800 }

/-- The channel map and the spare rows of the stacks as fused (R159, R170, R174). -/
def fusedStacks (r : Ras) (s : State) : State :=
  let s := r.chFuse.foldl (fun s e => s.onStack e.1 (fun x =>
    { x with chmap := e.2.1.zipIdx.map (fun p => (p.2, p.1)), failed := e.2.2 })) s
  r.pprFuse.foldl (fun s e => s.onStack (e.1 / 32) (fun x => { x with pprUsed := x.pprUsed.put (e.1 % 32) e.2 })) s

/-- The security block after a cold reset (R12, R448): the fuses stay. The lifecycle last in force stays until the boot core reads
the fuses again (R453). -/
def Sec.cold (c : Sec) : Sec :=
  { rootHash := c.rootHash, revoke := c.revoke, svn := c.svn, lcBits := c.lcBits, lc := c.lc, devid := c.devid, devidGone := c.devidGone,
    cert := c.cert, serial := c.serial }

/-- A cold reset (R11): every register is as State.reset has it, but for what the fuses hold. Host memory is not the device's. -/
def coldReset (s : State) : State :=
  let r : Ras := { spareFused := s.ras.spareFused, fuses := s.ras.fuses, chFuse := s.ras.chFuse, pprFuse := s.ras.pprFuse }
  let b : Boot := { roleFuse := s.boot.roleFuse, roleMap := s.boot.roleFuse, mFailed := s.boot.mFailed,
                    marshals := fusedMarshals s.boot.roleFuse s.boot.mFailed }
  let t : State := { pending := s.pending, free := s.free, ras := r, boot := b, sec := s.sec.cold, power := freshPower s.power.orderCode,
                     host := { hostMem := s.host.hostMem } }
  applyFuses (fusedStacks r t)

/-- COLD_RESET (R11, R465): power-on or the assertion of PERST_N; the device is held in reset until PERST_N is released. -/
def execColdReset (s : State) : Out := .next (coldReset s)

/-- POWER_REMOVAL (R465, R496): OFF, in which the fuses alone are kept. -/
def execPowerRemoval (s : State) : Out := .next ((coldReset s).onPower (fun q => { q with off := true }))

/-! ### PERST_N is released -/

/-- GEN_STRAP as sampled (R499, R500). -/
def strapWord (pos : BitVec 14) (boot : BitVec 3) (refB : Bool) (b : Boot) : Boot :=
  { b with perst := false, refB := refB,
           strap := BitVec.ofNat 18 (pos.toNat + putField 14 boot.toNat + putField 17 (b2n (boot.toNat % 4 = 3))) }

/-- Fuse words read from their second bank (R478, R479): the first bank of each was bad. -/
def fusesCorrected (ws : List Nat) (s : State) : State :=
  ws.foldl (fun s w => event 0x8C 1 w [0] noDseq s) { s with ras := { s.ras with fuseCorr := s.ras.fuseCorr || !ws.isEmpty } }

/-- In BLANK a DevID is generated where none exists (R453, R454). -/
def makeDevid (s : State) : State :=
  if s.sec.lc = 0 && s.sec.devid.isEmpty then
    let r := s.drawBytes 32
    r.2.onSec (fun c => { c with devid := r.1 })
  else s

/-- The lifecycle that the fuses hold comes into force (R453, R459, R460): entering RETURN destroys the DevID. -/
def enterLifecycle (s : State) : State :=
  let old := s.sec.lc
  let new := lcOfBits s.sec.lcBits
  let s := s.onSec (fun c => { c with lc := new, signOk := new = 1 || new = 2, devidGone := c.devidGone || new = 3 })
  if old = new then s else note 0xC3 0 [w32 new.toNat] noDseq s

/-- The boot core's steps of R453, with the core clock running. -/
def bootCore (fuseOne : List Nat) (s : State) : State :=
  let s := fusesCorrected fuseOne (note 0xF2 0 [0] noDseq s)
  enterLifecycle (makeDevid (newNonce (s.onBoot (fun b => { b with hsDone := true }))))

/-- Neither reference toggles (R498): the boot core stays in INIT, FAULT_N is asserted and RAS_FATAL records cause 3. -/
def noReference (s : State) : State :=
  { s with ras := { s.ras with bootFault := true, fatal := true, fatalCause := 3, fatalIndex := 0 }
           power := { s.power with clockLost := true } }

/-- PERST_RELEASE (R316, R453, R479, R498, R499): the straps are sampled, the core PLL takes a reference, and the boot core starts.
`fuseOne` are the fuse words found bad in one bank; a word bad in both stops the boot core in INIT with FAULT_N asserted. -/
def execPerstRelease (pos : BitVec 14) (boot : BitVec 3) (refA refB : Bool) (fuseOne : List Nat) (fuseBoth : Bool) (s : State) : Out :=
  if !s.boot.perst || s.power.off then .next s
  else
    let onB := !refA && refB
    let s := (s.onBoot (strapWord pos boot onB)).onRouter (fun r => { r with id := pos, idSrc := true })
    let s := { s with ras := { s.ras with pllAlt := onB, onDup := onB, refLost := onB } }
    if !refA && !refB then .next (noReference s)
    else if fuseBoth then .next { s with ras := { s.ras with bootFault := true } }
    else .next (bootCore fuseOne s)

/-- BOOT_READY (R178, R431). -/
def execBootReady (s : State) : Out := s.live <|
  when (s.boot.st == .init && s.boot.hbmReady && !s.ras.bootFault) (s.onBoot (fun b => { b with st := .ready })) s

/-! ### Warm reset -/

/-- A Plot after a warm reset (R11): its memories and tables are zero and its RWS registers stay. -/
def Plot.warm (x : Plot) : Plot := { x.wiped with lostAppends := [], residueCnt := [] }

/-- A stack after a warm reset (R11, R173, R179, R218): HBM contents, the fused map and the RWS pipe map stay, and a copy is abandoned.
The pipe map is in force as last written, since the reset empties the inlet (R181), and PENDING is 0. Writes below the watermark of
the copy are lost with its target (DESIGN CHOICE, log 62). -/
def Stack.warm (x : Stack) : Stack :=
  { mem := x.mem, poison := x.poison, latent := x.latent, ueSeen := x.ueSeen, tempLive := x.tempLive, failed := x.failed
    chmap := x.chmap, pprUsed := x.pprUsed
    sluice := { pipeFailed := x.sluice.writtenPipe.1, pipeSpare := x.sluice.writtenPipe.2, pipeSpareBad := x.sluice.pipeSpareBad } }

/-- The RWS registers of Stride Time (R244). -/
def Clock.warm (c : Clock) : Clock :=
  { role := c.role, refEn := c.refEn, parent := c.parent, altParent := c.altParent, syncPeriod := c.syncPeriod, masterDev := c.masterDev,
    masterGen := c.masterGen, asym := c.asym }

/-- The boot block after a warm reset, before the retained image is checked (R433, R446, R500). -/
def Boot.warm (b : Boot) : Boot :=
  let img := b.image b.slot
  let hash := if b.slot then b.hashB else b.hashA
  { ({ slot := b.slot, roleFuse := b.roleFuse, roleMap := b.roleFuse, mFailed := b.mFailed, marshals := fusedMarshals b.roleFuse b.mFailed,
       hsDone := b.hsDone, perst := b.perst, strap := b.strap, refB := b.refB, hbmReady := b.hbmReady, upNs := b.upNs,
       lastWarm := some b.upNs } : Boot).setImage b.slot img hash with
    st := if b.hbmReady then .ready else .init }

/-- The security block after a warm reset (R464, R470): what its table marks as kept, and the fuses. -/
def Sec.warm (c : Sec) : Sec :=
  { c.cold with lcPending := c.lcPending, lcTarget := c.lcTarget, debugMax := c.debugMax, signOk := c.signOk }

/-- The RAS block after a warm reset (R123, R479, R489): PLL_ALT reads 0 again (R12), though the core PLL stays on the duplicate. -/
def Ras.warm (r : Ras) : Ras :=
  { bootFault := r.bootFault, onDup := r.onDup, spareFused := r.spareFused, plotSt := r.plotSt, plotMap := r.plotMap,
    unmapped := r.unmapped, fuses := r.fuses, chFuse := r.chFuse, pprFuse := r.pprFuse }

/-- The power block after a warm reset (R468): RUN; what the slow domain measures goes on. -/
def Power.warm (q : Power) : Power :=
  let p := freshPower q.orderCode
  { p with p1usLive := q.p1usLive, p1msLive := q.p1msLive,
           islands := p.islands.zipIdx.map (fun e => { e.1 with tempLive := (q.islands.getD e.2 {}).tempLive }) }

/-- Every block after a warm reset. CMD_HSTAT reads 0 until the PCIe link next changes (R12, R405, log 48). -/
def warmBlocks (s : State) : State :=
  { pending := s.pending, free := s.free
    plots := s.plots
    stks := s.stks.mapVals (fun _ x => x.warm)
    commit := { step := s.commit.step }
    clock := s.clock.warm
    router := { id := BitVec.ofNat 14 (s.boot.strap.toNat % 2 ^ 14) }
    host := { hostMem := s.host.hostMem, d3hot := s.host.d3hot }
    boot := s.boot.warm
    power := s.power.warm
    sec := s.sec.warm
    ras := s.ras.warm }

/-- The boot core checks the retained image (R433). -/
def checkRetained (s : State) : State :=
  let b := s.boot
  let img := b.image b.slot
  let hash := if b.slot then b.hashB else b.hashA
  if img.isEmpty || hash.isEmpty then s.onBoot (fun b => b.setImage b.slot [] [])
  else if sha512 img = hash then
    openWindows (startRoles b.slot (s.onBoot (fun b => { b with st := .running, active := BitVec.ofNat 32 (imgVersion img) })))
  else bootReject 4 (s.onBoot (fun b => b.setImage b.slot [] []))

/-- A warm reset (R11, R12, R400): a FULL clear that runs completes, since the stricter outcome applies. Spare mappings that wait
come into force, as every Pacer stops (R40, R139). A debug level that ends posts DEBUG_LEVEL (R464). -/
def warmReset (kind : BitVec 2) (s : State) : State :=
  let s := if s.sec.clearing then clearContents s else s
  let old := s.sec.dbg.toNat
  let s := note 0xF2 0 [w32 kind.toNat] noDseq (warmBlocks s)
  let s := if old = 0 then s else note 0xC0 0 [w32 old, 0, 0, w32 s.sec.debugMax.toNat] noDseq s
  let s := s.plots.foldl (fun s e => (applySpares e.1 [] s).onPlot e.1 Plot.warm) s
  checkRetained (newNonce s)

/-- No post-package repair runs: one that does completes before a warm reset takes effect (R171). -/
def State.noRepair (s : State) : Bool := (List.range 24).all (fun k => (s.stack k).pprs.isEmpty)

/-- A warm reset at once, or once the repairs that run are complete (R171). -/
def askWarm (kind : BitVec 2) (s : State) : State :=
  if s.noRepair then warmReset kind s
  else if s.boot.resetAt.isSome then s
  else s.onBoot (fun b => { b with resetAt := some (s.now, kind) })

/-- WARM_RESET (R11, R396, R171): the reset that DEVICE_RESET asked for 10 µs before, or that waited for a repair. -/
def execWarmReset (s : State) : Out := s.live <|
  match s.boot.resetAt with
  | some (t, kind) => when s.noRepair (warmReset kind (s.advanceTo t.toNat)) s
  | none => .next s

/-- FUNCTION_LEVEL_RESET (R380): it also ends D3hot. -/
def execFunctionLevelReset (s : State) : Out := s.live <|
  .next (askWarm 2 { s with host := { s.host with d3hot := false } })

/-- SYS_RESET_N (R502): ignored within 50 ms of a warm reset. -/
def execSysResetN (s : State) : Out := s.live <|
  when (match s.boot.lastWarm with | some t => 50000000 ≤ s.boot.upNs.toNat - t.toNat | none => true) (askWarm 1 s) s

/-! ### The Fabric Marshal's mailbox -/

/-- A MGMT packet lands in the mailbox, or is counted in MBOX_DROP (R430). -/
def mailMgmt (k : Packet) (s : State) : State :=
  if s.router.mbox.length < 64 then s.onRouter (fun r => { r with mbox := r.mbox ++ [k] })
  else match s.holder 3 with
    | some m => s.onMarshal m (fun x => { x with drop := satAdd x.drop 1 })
    | none => s

/-- MGMT (R278, R295, R430). -/
def execMgmt (s : State) : Out := s.live <| serveOp 0xD (fun _ _ => true) mailMgmt s

/-- MGMT_RETRY (R430): message k, not acknowledged for 1 ms, is sent again while the Fabric role runs. -/
def execMgmtRetry (k : Nat) (s : State) : Out := s.live <|
  match s.router.mgmtOut[k]? with
  | some p => when (s.roleUp 3) (enqueue p s) s
  | none => .next s

end Sys2Proof.Machine
end

