-- ==== Sys2Proof/Machine/Dispatch.lean ====
section
/-! DEFINITION. One arm per command: each calls its meaning. -/

namespace Sys2Proof.Machine

/-- The effect of a command on the device on everything but the queue: the meaning of its row. -/
def exec (i : Instr) (s : State) : Host.Outcome State Fault Refusal :=
  match i with
  | .coldReset => Sys2Proof.Machine.execColdReset s
  | .perstRelease pos boot refA refB fuseOne fuseBoth => Sys2Proof.Machine.execPerstRelease pos boot refA refB fuseOne fuseBoth s
  | .bootReady => Sys2Proof.Machine.execBootReady s
  | .warmReset => Sys2Proof.Machine.execWarmReset s
  | .functionLevelReset => Sys2Proof.Machine.execFunctionLevelReset s
  | .sysResetN => Sys2Proof.Machine.execSysResetN s
  | .powerRemoval => Sys2Proof.Machine.execPowerRemoval s
  | .d3hotEntry => Sys2Proof.Machine.execD3hotEntry s
  | .d0Return => Sys2Proof.Machine.execD0Return s
  | .thermalTrip stack temp => Sys2Proof.Machine.execThermalTrip stack temp s
  | .railUndervoltage rail => Sys2Proof.Machine.execRailUndervoltage rail s
  | .coreRefLoss otherPresent => Sys2Proof.Machine.execCoreRefLoss otherPresent s
  | .avsVoltageReached ok mv => Sys2Proof.Machine.execAvsVoltageReached ok mv s
  | .paceRefChange ok => Sys2Proof.Machine.execPaceRefChange ok s
  | .paceSyncEdge => Sys2Proof.Machine.execPaceSyncEdge s
  | .loadArm => Sys2Proof.Machine.execLoadArm s
  | .flumeRowRead p ecc => Sys2Proof.Machine.execFlumeRowRead p ecc s
  | .flumeSegmentWrite p f g => Sys2Proof.Machine.execFlumeSegmentWrite p f g s
  | .columnGroupTakeRow p f g residue => Sys2Proof.Machine.execColumnGroupTakeRow p f g residue s
  | .basinRowWrite p f g ecc => Sys2Proof.Machine.execBasinRowWrite p f g ecc s
  | .shadowLoadStart p ecc => Sys2Proof.Machine.execShadowLoadStart p ecc s
  | .shadowLoadComplete p => Sys2Proof.Machine.execShadowLoadComplete p s
  | .shadowExchange p f => Sys2Proof.Machine.execShadowExchange p f s
  | .pltFcolmapWrite p f v => Sys2Proof.Machine.execPltFcolmapWrite p f v s
  | .pltBspareWrite p f e v => Sys2Proof.Machine.execPltBspareWrite p f e v s
  | .pltWexpWrite p v => Sys2Proof.Machine.execPltWexpWrite p v s
  | .cntClr p => Sys2Proof.Machine.execCntClr p s
  | .pcntctlClr p => Sys2Proof.Machine.execPcntctlClr p s
  | .pltPflagsetWrite p v => Sys2Proof.Machine.execPltPflagsetWrite p v s
  | .pltRsvrepentWrite p v ecc => Sys2Proof.Machine.execPltRsvrepentWrite p v ecc s
  | .workEntryIssue p => Sys2Proof.Machine.execWorkEntryIssue p s
  | .timeWaitExpiry p => Sys2Proof.Machine.execTimeWaitExpiry p s
  | .fillTimeout p => Sys2Proof.Machine.execFillTimeout p s
  | .nop p => Sys2Proof.Machine.execNop p s
  | .loopset p => Sys2Proof.Machine.execLoopset p s
  | .loop p => Sys2Proof.Machine.execLoop p s
  | .skip p => Sys2Proof.Machine.execSkip p s
  | .return_ p => Sys2Proof.Machine.execReturn p s
  | .setix p => Sys2Proof.Machine.execSetix p s
  | .addix p => Sys2Proof.Machine.execAddix p s
  | .xorix p => Sys2Proof.Machine.execXorix p s
  | .timeadd p => Sys2Proof.Machine.execTimeadd p s
  | .clear p => Sys2Proof.Machine.execClear p s
  | .batchend p => Sys2Proof.Machine.execBatchend p s
  | .batchendEffect p => Sys2Proof.Machine.execBatchendEffect p s
  | .slotfree p => Sys2Proof.Machine.execSlotfree p s
  | .slotfreeEffect p => Sys2Proof.Machine.execSlotfreeEffect p s
  | .halt p => Sys2Proof.Machine.execHalt p s
  | .entryComplete p seq => Sys2Proof.Machine.execEntryComplete p seq s
  | .drainComplete p ecc => Sys2Proof.Machine.execDrainComplete p ecc s
  | .drain p x => Sys2Proof.Machine.execDrain p x s
  | .add p x => Sys2Proof.Machine.execAdd p x s
  | .mul p x => Sys2Proof.Machine.execMul p x s
  | .max p x => Sys2Proof.Machine.execMax p x s
  | .axpby p x => Sys2Proof.Machine.execAxpby p x s
  | .exp2 p x => Sys2Proof.Machine.execExp2 p x s
  | .log2 p x => Sys2Proof.Machine.execLog2 p x s
  | .rcp p x => Sys2Proof.Machine.execRcp p x s
  | .rsqrt p x => Sys2Proof.Machine.execRsqrt p x s
  | .convert p x => Sys2Proof.Machine.execConvert p x s
  | .split p x => Sys2Proof.Machine.execSplit p x s
  | .rowscale p x => Sys2Proof.Machine.execRowscale p x s
  | .rescaleAcc p x => Sys2Proof.Machine.execRescaleAcc p x s
  | .softmaxBlock p x => Sys2Proof.Machine.execSoftmaxBlock p x s
  | .tagread p x => Sys2Proof.Machine.execTagread p x s
  | .fillc p x => Sys2Proof.Machine.execFillc p x s
  | .inboxAppendReserve p n slot rows rowBytes tag => Sys2Proof.Machine.execInboxAppendReserve p n slot rows rowBytes tag s
  | .inboxAppendComplete p n tag => Sys2Proof.Machine.execInboxAppendComplete p n tag s
  | .meshReq k ecc => Sys2Proof.Machine.execMeshReq k ecc s
  | .meshRsp k => Sys2Proof.Machine.execMeshRsp k s
  | .regionWrite r reg v => Sys2Proof.Machine.execRegionWrite r reg v s
  | .dmaTransferStart p => Sys2Proof.Machine.execDmaTransferStart p s
  | .dmaTransferComplete p => Sys2Proof.Machine.execDmaTransferComplete p s
  | .hbmDemandRead stk sb err sluice => Sys2Proof.Machine.execHbmDemandRead stk sb err sluice s
  | .hbmWrite stk sb data => Sys2Proof.Machine.execHbmWrite stk sb data s
  | .hbmPartialWrite stk sb data err => Sys2Proof.Machine.execHbmPartialWrite stk sb data err s
  | .patrolScrubRead stk errs => Sys2Proof.Machine.execPatrolScrubRead stk errs s
  | .dieLinkReplay stk again => Sys2Proof.Machine.execDieLinkReplay stk again s
  | .hbmRefresh stk => Sys2Proof.Machine.execHbmRefresh stk s
  | .hbmTempThreshold stk temp => Sys2Proof.Machine.execHbmTempThreshold stk temp s
  | .hbmIdlePowerDown stk ch => Sys2Proof.Machine.execHbmIdlePowerDown stk ch s
  | .hbmInitComplete bad => Sys2Proof.Machine.execHbmInitComplete bad s
  | .hbmPpr w stack phys pc sid bg bank row => Sys2Proof.Machine.execHbmPpr w stack phys pc sid bg bank row s
  | .pprDrainDone stk ch => Sys2Proof.Machine.execPprDrainDone stk ch s
  | .pprRowReadDone stk ch errs => Sys2Proof.Machine.execPprRowReadDone stk ch errs s
  | .pprProgramDone stk ch => Sys2Proof.Machine.execPprProgramDone stk ch s
  | .pprComplete stk ch => Sys2Proof.Machine.execPprComplete stk ch s
  | .hbmSpare w stack lch rate => Sys2Proof.Machine.execHbmSpare w stack lch rate s
  | .spareTargetReady stk => Sys2Proof.Machine.execSpareTargetReady stk s
  | .spareBlockCopied stk errs => Sys2Proof.Machine.execSpareBlockCopied stk errs s
  | .spareCopyComplete stk => Sys2Proof.Machine.execSpareCopyComplete stk s
  | .hbmOffline w stack lch => Sys2Proof.Machine.execHbmOffline w stack lch s
  | .sluiceElementArrive stk seg first elems => Sys2Proof.Machine.execSluiceElementArrive stk seg first elems s
  | .sluiceBlockUpdate stk k pipeFault => Sys2Proof.Machine.execSluiceBlockUpdate stk k pipeFault s
  | .sluiceHoldTimeout stk k => Sys2Proof.Machine.execSluiceHoldTimeout stk k s
  | .sluiceEvalComplete stk => Sys2Proof.Machine.execSluiceEvalComplete stk s
  | .sluiceGatherServe stk q => Sys2Proof.Machine.execSluiceGatherServe stk q s
  | .gatherWaitRetry stk k => Sys2Proof.Machine.execGatherWaitRetry stk k s
  | .pipemapWrite stk v => Sys2Proof.Machine.execPipemapWrite stk v s
  | .pipemapApply stk => Sys2Proof.Machine.execPipemapApply stk s
  | .slcCvetoWrite v => Sys2Proof.Machine.execSlcCvetoWrite v s
  | .verdict e rivals => Sys2Proof.Machine.execVerdict e rivals s
  | .commit e rivals => Sys2Proof.Machine.execCommit e rivals s
  | .rollback e rivals => Sys2Proof.Machine.execRollback e rivals s
  | .verdictResult words => Sys2Proof.Machine.execVerdictResult words s
  | .stepNRelease => Sys2Proof.Machine.execStepNRelease s
  | .runStart e rivals => Sys2Proof.Machine.execRunStart e rivals s
  | .runStop e rivals trapped ecc => Sys2Proof.Machine.execRunStop e rivals trapped ecc s
  | .runPause e rivals trapped => Sys2Proof.Machine.execRunPause e rivals trapped s
  | .runResume e rivals => Sys2Proof.Machine.execRunResume e rivals s
  | .collLaunch e rivals => Sys2Proof.Machine.execCollLaunch e rivals s
  | .starterPowerState e rivals => Sys2Proof.Machine.execStarterPowerState e rivals s
  | .starterPowerCap e => Sys2Proof.Machine.execStarterPowerCap e s
  | .starterClockCeil e => Sys2Proof.Machine.execStarterClockCeil e s
  | .drainBegin e rivals => Sys2Proof.Machine.execDrainBegin e rivals s
  | .routeSwap e rivals => Sys2Proof.Machine.execRouteSwap e rivals s
  | .drainEnd e rivals => Sys2Proof.Machine.execDrainEnd e rivals s
  | .starterTelemetry e => Sys2Proof.Machine.execStarterTelemetry e s
  | .starterDispatch e => Sys2Proof.Machine.execStarterDispatch e s
  | .starterWrite w index entry => Sys2Proof.Machine.execStarterWrite w index entry s
  | .starterCancel w index => Sys2Proof.Machine.execStarterCancel w index s
  | .psetWrite w set plots => Sys2Proof.Machine.execPsetWrite w set plots s
  | .starterRead w index => Sys2Proof.Machine.execStarterRead w index s
  | .timingRequestTimer => Sys2Proof.Machine.execTimingRequestTimer s
  | .timing l m => Sys2Proof.Machine.execTiming l m s
  | .parentLossTimeout => Sys2Proof.Machine.execParentLossTimeout s
  | .lnkCfgEnableWrite l v => Sys2Proof.Machine.execLnkCfgEnableWrite l v s
  | .linkDisableTimeout l => Sys2Proof.Machine.execLinkDisableTimeout l s
  | .laneEqualisationDone l => Sys2Proof.Machine.execLaneEqualisationDone l s
  | .laneDeskewDone l => Sys2Proof.Machine.execLaneDeskewDone l s
  | .laneQualifyWindowEnd l rxLock rxErrs txPass => Sys2Proof.Machine.execLaneQualifyWindowEnd l rxLock rxErrs txPass s
  | .laneMapAgreed l => Sys2Proof.Machine.execLaneMapAgreed l s
  | .bibResendTimer l => Sys2Proof.Machine.execBibResendTimer l s
  | .bib l b => Sys2Proof.Machine.execBib l b s
  | .linkTrainingTimeout l => Sys2Proof.Machine.execLinkTrainingTimeout l s
  | .flitTransmit l => Sys2Proof.Machine.execFlitTransmit l s
  | .flitReceive l f => Sys2Proof.Machine.execFlitReceive l f s
  | .markerReceive l failed newMap => Sys2Proof.Machine.execMarkerReceive l failed newMap s
  | .laneSignalLoss l lane all => Sys2Proof.Machine.execLaneSignalLoss l lane all s
  | .symbolWindowEnd l errs => Sys2Proof.Machine.execSymbolWindowEnd l errs s
  | .retrainComplete l b => Sys2Proof.Machine.execRetrainComplete l b s
  | .retrainTimeout l => Sys2Proof.Machine.execRetrainTimeout l s
  | .linkEnable w mask value => Sys2Proof.Machine.execLinkEnable w mask value s
  | .linkRetrain w mask => Sys2Proof.Machine.execLinkRetrain w mask s
  | .laneRequalify w link lane => Sys2Proof.Machine.execLaneRequalify w link lane s
  | .laneRequalifyComplete l pass => Sys2Proof.Machine.execLaneRequalifyComplete l pass s
  | .canalWrite c v => Sys2Proof.Machine.execCanalWrite c v s
  | .packetReceive l pk => Sys2Proof.Machine.execPacketReceive l pk s
  | .routePacket l => Sys2Proof.Machine.execRoutePacket l s
  | .spillwayTurn l => Sys2Proof.Machine.execSpillwayTurn l s
  | .packetInject cls unit => Sys2Proof.Machine.execPacketInject cls unit s
  | .ejection die => Sys2Proof.Machine.execEjection die s
  | .write ecc => Sys2Proof.Machine.execWrite ecc s
  | .appendRow ecc => Sys2Proof.Machine.execAppendRow ecc s
  | .appendSlot ecc => Sys2Proof.Machine.execAppendSlot ecc s
  | .read ecc => Sys2Proof.Machine.execRead ecc s
  | .readData => Sys2Proof.Machine.execReadData s
  | .ack => Sys2Proof.Machine.execAck s
  | .nack => Sys2Proof.Machine.execNack s
  | .credit => Sys2Proof.Machine.execCredit s
  | .batonDone => Sys2Proof.Machine.execBatonDone s
  | .batonParkDeliver cls src => Sys2Proof.Machine.execBatonParkDeliver cls src s
  | .spillCredit l => Sys2Proof.Machine.execSpillCredit l s
  | .mgmt => Sys2Proof.Machine.execMgmt s
  | .mgmtRetry k => Sys2Proof.Machine.execMgmtRetry k s
  | .routeLoad w addr first count ecc => Sys2Proof.Machine.execRouteLoad w addr first count ecc s
  | .deviceDrained => Sys2Proof.Machine.execDeviceDrained s
  | .swapDeadline => Sys2Proof.Machine.execSwapDeadline s
  | .flowMapWindowEnd => Sys2Proof.Machine.execFlowMapWindowEnd s
  | .heatsheetInstall w addr ecc => Sys2Proof.Machine.execHeatsheetInstall w addr ecc s
  | .discoveryPass l => Sys2Proof.Machine.execDiscoveryPass l s
  | .linkSettle l => Sys2Proof.Machine.execLinkSettle l s
  | .admissionNotice l admits => Sys2Proof.Machine.execAdmissionNotice l admits s
  | .groupLoad w group n gen list ecc => Sys2Proof.Machine.execGroupLoad w group n gen list ecc s
  | .groupUnload w group => Sys2Proof.Machine.execGroupUnload w group s
  | .collPost w desc => Sys2Proof.Machine.execCollPost w desc s
  | .flagsLaunch d => Sys2Proof.Machine.execFlagsLaunch d s
  | .post src group seq rank digest => Sys2Proof.Machine.execPost src group seq rank digest s
  | .retry group seq => Sys2Proof.Machine.execRetry group seq s
  | .postRetryTimer c => Sys2Proof.Machine.execPostRetryTimer c s
  | .go group seq => Sys2Proof.Machine.execGo group seq s
  | .abort group seq a => Sys2Proof.Machine.execAbort group seq a s
  | .collCount group seq rank count => Sys2Proof.Machine.execCollCount group seq rank count s
  | .collData group seq b ecc => Sys2Proof.Machine.execCollData group seq b ecc s
  | .collCredit group seq rank => Sys2Proof.Machine.execCollCredit group seq rank s
  | .collBlockSend c k ecc => Sys2Proof.Machine.execCollBlockSend c k ecc s
  | .collTimeout c => Sys2Proof.Machine.execCollTimeout c s
  | .pieceComplete c dst idx => Sys2Proof.Machine.execPieceComplete c dst idx s
  | .collAbort w ctx seq rivals => Sys2Proof.Machine.execCollAbort w ctx seq rivals s
  | .collStatus w ctx => Sys2Proof.Machine.execCollStatus w ctx s
  | .cmdCommit w v => Sys2Proof.Machine.execCmdCommit w v s
  | .echo w data => Sys2Proof.Machine.execEcho w data s
  | .identify w => Sys2Proof.Machine.execIdentify w s
  | .journalFetch w first count host => Sys2Proof.Machine.execJournalFetch w first count host s
  | .planLoad w pset kind first count src ecc => Sys2Proof.Machine.execPlanLoad w pset kind first count src ecc s
  | .runControlStart w pset entry rivals => Sys2Proof.Machine.execRunControlStart w pset entry rivals s
  | .runControlStop w pset entry rivals trapped ecc => Sys2Proof.Machine.execRunControlStop w pset entry rivals trapped ecc s
  | .runControlPause w pset entry rivals trapped => Sys2Proof.Machine.execRunControlPause w pset entry rivals trapped s
  | .runControlResume w pset entry rivals => Sys2Proof.Machine.execRunControlResume w pset entry rivals s
  | .plotReset w pset ecc => Sys2Proof.Machine.execPlotReset w pset ecc s
  | .flagRaise w pset flag => Sys2Proof.Machine.execFlagRaise w pset flag s
  | .pacerSet w pset offset value => Sys2Proof.Machine.execPacerSet w pset offset value s
  | .dmaToDevice w list count => Sys2Proof.Machine.execDmaToDevice w list count s
  | .dmaToHost w list count => Sys2Proof.Machine.execDmaToHost w list count s
  | .dmaFill w dst bytes pattern => Sys2Proof.Machine.execDmaFill w dst bytes pattern s
  | .hostDmaEntryComplete k ecc => Sys2Proof.Machine.execHostDmaEntryComplete k ecc s
  | .sluiceConfig w c => Sys2Proof.Machine.execSluiceConfig w c s
  | .planStart w mode stalePolicy cstep => Sys2Proof.Machine.execPlanStart w mode stalePolicy cstep s
  | .resolveCommit w => Sys2Proof.Machine.execResolveCommit w s
  | .resolveRollback w => Sys2Proof.Machine.execResolveRollback w s
  | .planEnd w => Sys2Proof.Machine.execPlanEnd w s
  | .veto w => Sys2Proof.Machine.execVeto w s
  | .tagRead w stack seg => Sys2Proof.Machine.execTagRead w stack seg s
  | .powerCap w watts => Sys2Proof.Machine.execPowerCap w watts s
  | .clockCeil w islands mhz => Sys2Proof.Machine.execClockCeil w islands mhz s
  | .powerState w st rivals => Sys2Proof.Machine.execPowerState w st rivals s
  | .powerStateReached => Sys2Proof.Machine.execPowerStateReached s
  | .telemetry w => Sys2Proof.Machine.execTelemetry w s
  | .plotRemap w lplot phys answers => Sys2Proof.Machine.execPlotRemap w lplot phys answers s
  | .spareFuse w => Sys2Proof.Machine.execSpareFuse w s
  | .sealOpen w => Sys2Proof.Machine.execSealOpen w s
  | .sealCommit w ref => Sys2Proof.Machine.execSealCommit w ref s
  | .sealStatus w => Sys2Proof.Machine.execSealStatus w s
  | .sealPass upset => Sys2Proof.Machine.execSealPass upset s
  | .measurements w host max => Sys2Proof.Machine.execMeasurements w host max s
  | .devidChain w host max => Sys2Proof.Machine.execDevidChain w host max s
  | .debugToken w addr bytes ecc => Sys2Proof.Machine.execDebugToken w addr bytes ecc s
  | .debugTokenLower w addr => Sys2Proof.Machine.execDebugTokenLower w addr s
  | .contentClearComplete => Sys2Proof.Machine.execContentClearComplete s
  | .lifecycle w target addr bytes ecc => Sys2Proof.Machine.execLifecycle w target addr bytes ecc s
  | .fwStage w addr bytes ecc => Sys2Proof.Machine.execFwStage w addr bytes ecc s
  | .fwStageComplete => Sys2Proof.Machine.execFwStageComplete s
  | .fwActivate w roles => Sys2Proof.Machine.execFwActivate w roles s
  | .fwRoleMove crash => Sys2Proof.Machine.execFwRoleMove crash s
  | .deviceReset w => Sys2Proof.Machine.execDeviceReset w s
  | .marshalRestart w role => Sys2Proof.Machine.execMarshalRestart w role s
  | .journalRingWrite => Sys2Proof.Machine.execJournalRingWrite s
  | .cmdJtailWrite v => Sys2Proof.Machine.execCmdJtailWrite v s
  | .cmdJcfgWrite v => Sys2Proof.Machine.execCmdJcfgWrite v s
  | .journalModTimer => Sys2Proof.Machine.execJournalModTimer s
  | .bar2Write off => Sys2Proof.Machine.execBar2Write off s
  | .bar4Read off len errs ecc => Sys2Proof.Machine.execBar4Read off len errs ecc s
  | .bar4Write off data ecc => Sys2Proof.Machine.execBar4Write off data ecc s
  | .cmdBar4BaseWrite v => Sys2Proof.Machine.execCmdBar4BaseWrite v s
  | .wideRegisterRead bar2 off size => Sys2Proof.Machine.execWideRegisterRead bar2 off size s
  | .registerWrite bar2 off data race ecc => Sys2Proof.Machine.execRegisterWrite bar2 off data race ecc s
  | .bootGo ecc => Sys2Proof.Machine.execBootGo ecc s
  | .bootVerifyComplete spareFails => Sys2Proof.Machine.execBootVerifyComplete spareFails s
  | .powerLoop p1us p1ms => Sys2Proof.Machine.execPowerLoop p1us p1ms s
  | .thermalLoop temps => Sys2Proof.Machine.execThermalLoop temps s
  | .thermalThrottle idx temp => Sys2Proof.Machine.execThermalThrottle idx temp s
  | .droop idx low => Sys2Proof.Machine.execDroop idx low s
  | .watchdogExpiry m hashOk => Sys2Proof.Machine.execWatchdogExpiry m hashOk s
  | .marshalFault m cause pc hashOk => Sys2Proof.Machine.execMarshalFault m cause pc hashOk s
  | .marshalRestartComplete role => Sys2Proof.Machine.execMarshalRestartComplete role s
  | .grantMissing => Sys2Proof.Machine.execGrantMissing s
  | .holdGovernorLoop p1us p1ms => Sys2Proof.Machine.execHoldGovernorLoop p1us p1ms s
  | .telemetryPost => Sys2Proof.Machine.execTelemetryPost s
  | .mctpRequest q => Sys2Proof.Machine.execMctpRequest q s
  | .getVersion doe => Sys2Proof.Machine.execGetVersion doe s
  | .getCapabilities doe => Sys2Proof.Machine.execGetCapabilities doe s
  | .negotiateAlgorithms doe q => Sys2Proof.Machine.execNegotiateAlgorithms doe q s
  | .getDigests doe => Sys2Proof.Machine.execGetDigests doe s
  | .getCertificate doe slot off len => Sys2Proof.Machine.execGetCertificate doe slot off len s
  | .challenge doe slot nonce => Sys2Proof.Machine.execChallenge doe slot nonce s
  | .getMeasurements doe index signed nonce => Sys2Proof.Machine.execGetMeasurements doe index signed nonce s
  | .ceSummaryTimer => Sys2Proof.Machine.execCeSummaryTimer s
  | .healthAutoRepair a ecc => Sys2Proof.Machine.execHealthAutoRepair a ecc s
  | .pcieLinkChange speed width flit => Sys2Proof.Machine.execPcieLinkChange speed width flit s
  | .slowClockEdge => Sys2Proof.Machine.execSlowClockEdge s
  | .syncSeenLapse => Sys2Proof.Machine.execSyncSeenLapse s
  | .debugPortAccess op => Sys2Proof.Machine.execDebugPortAccess op s
  | .dmaFillComplete k ecc => Sys2Proof.Machine.execDmaFillComplete k ecc s

end Sys2Proof.Machine
end

