-- ==== Sys2Proof/Safety.lean ====
section
/-! DEFINITION. The terms the claims use: what a step may leave changed, when an entry or a command is about to take effect,
and the invariants of the device. -/

namespace Sys2Proof.Machine

/-! ### Frames -/

/-- t differs from s at most in what raising events writes (R206, R388, R401, R473, R476, R480): the Journal's records and
head, the MSI-X vectors signalled or pending, the class and correction counts, the errors the Health Marshal has noted,
and the causes of a bad verdict. -/
def State.sameButEvents (s t : State) : Prop :=
  t = { s with
    host := { s.host with
      recs := t.host.recs, jhead := t.host.jhead, msixPba := t.host.msixPba, msixSent := t.host.msixSent },
    ras := { s.ras with classCnt := t.ras.classCnt, ceNow := t.ras.ceNow, auxFaults := t.ras.auxFaults },
    commit := { s.commit with cause := t.commit.cause, nextCause := t.commit.nextCause } }

/-- t differs from s at most in physical Plot p and in what events write. -/
def State.onlyPlot (p : Nat) (s t : State) : Prop :=
  State.sameButEvents { s with plots := t.plots } t ∧ ∀ q, q ≠ p → t.plot q = s.plot q

/-- t differs from s at most in stack k and in what events write. -/
def State.onlyStack (k : Nat) (s t : State) : Prop :=
  State.sameButEvents { s with stks := t.stks } t ∧ ∀ q, q ≠ k → t.stack q = s.stack q

/-- t differs from s at most in link l and in what events write. -/
def State.onlyLink (l : Nat) (s t : State) : Prop :=
  State.sameButEvents { s with links := t.links } t ∧ ∀ q, q ≠ l → t.link q = s.link q

/-! ### The Pacer -/

/-- Plot p's Pacer is about to issue CONTROL entry c, at index i: it runs, c stands at PC and passes its checks (R104,
R119). -/
abbrev State.atControl (s : State) (p : Nat) (c : CtlE) (i : Nat) : Prop :=
  s.plotOn p = true ∧ (s.plot p).pacer.st = .running ∧ (s.plot p).pacer.pc.toNat = i ∧
  eKind (stepEntry (s.plot p) i) = 1 ∧ parseCtl (stepEntry (s.plot p) i) = c ∧ ctlCheck (s.plot p).pacer c i = 0

/-- s after Plot p's Pacer has issued one CONTROL entry that does f, with n the next index: RUN and ISSUE have counted one
core cycle (R124), and the entry has taken an issue number. -/
def State.afterControl (s : State) (p n : Nat) (f : Pacer → Pacer) : State :=
  s.onPlot p (fun x => x.onPacer (fun q =>
    { f q with pc := BitVec.ofNat 12 n, seq := q.seq + 1, checked := false,
               pcnt := listUpd (listUpd q.pcnt 0 (· + 1)) 1 (· + 1) }))

/-- WORK entry w stands at PC, at index i, of Plot p's running Pacer (R93) and passes its checks (R119), the RANGE check of what its own
SLOT_IN wait writes among them. -/
abbrev State.atWork (s : State) (p : Nat) (w : WorkE) (i : Nat) : Prop :=
  s.plotOn p = true ∧ (s.plot p).pacer.st = .running ∧ (s.plot p).pacer.pc.toNat = i ∧
  eKind (stepEntry (s.plot p) i) = 0 ∧ parseWork (stepEntry (s.plot p) i) = w ∧
  ((s.plot p).pacer.checked = true ∨ workCheck (s.plot p) w i = 0) ∧
  (w.writesIx = 0 ∨ workRange (s.plot p) w ((s.plot p).pacer.takeWait w).ix 0 = false)

/-- The Pacer of x has issued WORK entry w at index i and become that of y (R93, R97, R99 to R101): its parts stand at the
ends of their units' queues, under the index values and the batch that hold once its wait has taken effect; it is noted
as outstanding; RUN and ISSUE have counted one core cycle; the rest of the Plot is as it was. -/
def Plot.issued (x y : Plot) (w : WorkE) (i : Nat) : Prop :=
  let q := x.pacer.takeWait w
  let st := issuedStream (x.onPacer (fun _ => q)) w q.seq i
  let ls := issuedLoads (x.onPacer (fun _ => q)) w q.seq
  let hasSt : Bool := w.streams && decide (st.rows ≠ 0)
  y.streams = x.streams ++ (if hasSt then [st] else []) ∧
  y.loadQ = x.loadQ ++ ls ∧
  y.vecQ.length = x.vecQ.length + (if w.vx = 0 then 0 else 1) ∧
  y.dmaQ.length = x.dmaQ.length + (if w.dma = 0 then 0 else 1) ∧
  y.pacer = { q with
    seq := q.seq + 1, pc := q.pc + 1, checked := false
    pcnt := listUpd (listUpd q.pcnt 0 (· + 1)) 1 (· + 1)
    work := q.work ++ [({ seq := q.seq, entry := i, stream := hasSt, loads := ls.length, vec := w.vx != 0,
                          dma := w.dma != 0, raise := BitVec.ofNat 8 w.raise } : Work)] } ∧
  y = { x with pacer := y.pacer, streams := y.streams, loadQ := y.loadQ, loadCmds := y.loadCmds, vecQ := y.vecQ,
               dmaQ := y.dmaQ, furrows := y.furrows }

/-- Plot p's Pacer has refused the entry at index i with a code (R120): it drains toward FAULT_HALT, where it reports the code, with i
in PC; nothing else has changed. -/
def State.refusedEntry (s t : State) (p code i : Nat) : Prop :=
  (t.plot p) = (s.plot p).onPacer (fun q =>
    { q with st := .draining, drainTo := .toFaultHalt, faultNext := BitVec.ofNat 5 code, pc := BitVec.ofNat 12 i,
             checked := false }) ∧
  t = { s with plots := t.plots } ∧ ∀ q, q ≠ p → t.plot q = s.plot q

/-! ### The vector unit -/

/-- Vector operation c, of descriptor d, is at the head of Plot p's queue, `rest` behind it, and may start (R38, R95). -/
abbrev State.atVector (s : State) (p : Nat) (c : VecCmd) (d : VxD) (rest : List VecCmd) : Prop :=
  s.plotOn p = true ∧ (s.plot p).vecQ = c :: rest ∧ parseVx c.desc = d ∧ basinReady (s.plot p) c d = true

/-- The bytes of a row of FP32 results converted to a format other than MXFP4 (R58, R65, R66). -/
def rowOut (ovf : OvfMode) (fmt : Nat) (vs : List (BitVec 32)) : List Byte :=
  packCodes (fmtBits fmt) (vs.map (fun v => (convert ovf fmt v).v))

/-! ### Commands and events -/

/-- Starter entry e, a dispatched event v of a kind on the Plots of the set read at its dispatch, comes to its object outside RETAIN
(R235, R237); u is the state at its TIME, or at once where that has passed. -/
abbrev State.atEvent (s : State) (e kind : Nat) (v : Ev) (set : List (Nat × Nat)) (u : State) : Prop :=
  s.clocked = true ∧ s.ev e = v ∧ v.held = some set ∧ v.kind.toNat = kind ∧ s.power.st ≠ .retain ∧
  u = s.advanceTo v.time.toNat

/-- No physical Plot serves two logical Plots (R121). -/
def State.plotsOneToOne (s : State) : Prop := ∀ l m p, s.phys? l = some p → s.phys? m = some p → l = m

/-- t is u after an order on Plots (logical, physical) (R233, R236, R242): each physical Plot has had f done to it unless the
logical one's bit of lost is set or ok turned the order away; the other Plots, and everything but the Plots, are as they were. -/
def State.ordered (u t : State) (set : List (Nat × Nat)) (lost : BitVec 256) (ok : Nat → Plot → Bool) (f : Nat → Plot → Plot) : Prop :=
  (∀ l p, (l, p) ∈ set → t.plot p =
    if lost.getLsbD l = true ∨ ok l (u.plot p) = false then u.plot p else f l (u.plot p)) ∧
  (∀ p, (∀ l, (l, p) ∉ set) → t.plot p = u.plot p) ∧
  t = { u with plots := t.plots }

/-- STATUS code of an order on Plots (logical, physical) (R236): 2 where every one carried it out, else that of the first in
logical order that did not: 4 where a higher order won, else 3. -/
def State.orderCode (u : State) (set : List (Nat × Nat)) (lost : BitVec 256) (ok : Nat → Plot → Bool) (code : Nat) : Prop :=
  ((∀ l p, (l, p) ∈ set → lost.getLsbD l = false ∧ ok l (u.plot p) = true) → code = 2) ∧
  (∀ l p, (l, p) ∈ set → (lost.getLsbD l = true ∨ ok l (u.plot p) = false) →
    (∀ m q, m < l → (m, q) ∈ set → lost.getLsbD m = false ∧ ok m (u.plot q) = true) →
    code = if lost.getLsbD l then 4 else 3)

/-- The flit that link x sent last has a type, a sequence number, a FIRST_PKT and a payload, the link's present acknowledgement, and a CRC
that holds (R249, R250, R251). -/
def Link.sent (x : Link) (type : BitVec 2) (seq : BitVec 12) (first : BitVec 10) (payload : List Byte) (replay : Bool) : Prop :=
  ∃ f : Flit, x.txOut = some f ∧ f.crcOk = true ∧
    f = { type, seq, ackSeq := x.rxSeq, nak := x.nakOut, firstPkt := first, replay, payload, crc := f.crc }

/-- A pass for link l decides link m (R322, R325): l itself, a PENDING link, or the other link of a pair that one of these makes or
dissolves. -/
def State.decides (s : State) (l m : Nat) : Prop :=
  m = l ∨ (s.link m).outcome = 7 ∨ ∃ k, k < 18 ∧ (k = l ∨ (s.link k).outcome = 7) ∧
    m = (if (s.judge k).out = 2 then (s.judge k).pair else if (s.link k).outcome = 2 then (s.link k).pair.toNat else 18) ∧
    ((s.link m).outcome = 2 ↔ (s.judge k).out ≠ 2)

/-- The tables of context c can be read now, and lie in mapped memory (R361, R363). -/
def State.tablesReady (s : State) (c : Nat) : Prop := s.tablesWait (s.ctx c) = false ∧ s.tablesOk (s.ctx c) = true

/-- A trap or a refusal of logical Plot l falls in the cycle of a stop or a pause, and its halt stands (R92). -/
def haltStands (trapped : BitVec 256) (l : Nat) (x : Plot) : Bool := trapped.getLsbD l && x.pacer.halting

/-- The event was carried out after its TIME (R236). -/
def State.isLate (s : State) (v : Ev) : Bool := v.time.toNat < s.now.toNat

/-- The newest record of the Journal is of a type and class, with an index and a payload, and took the next JSEQ of s. -/
def State.posted (s t : State) (type cls index : Nat) (payload : List (BitVec 32)) : Prop :=
  ∃ r, t.host.recs.head? = some r ∧ r.type = BitVec.ofNat 16 type ∧ r.cls = BitVec.ofNat 3 cls ∧
    r.index = BitVec.ofNat 16 index ∧ r.payload = payload ∧ r.jseq = s.host.jhead ∧ t.host.jhead = s.host.jhead + 1

/-! ### Invariants -/

/-- RUN is the sum of ISSUE, FULL and the eight wait counters (R124). -/
def Pacer.countsAdd (q : Pacer) : Prop := q.pcnt.length = 11 ∧ q.pcnt.getD 0 0 = (q.pcnt.drop 1).sum

/-- The wait counters of every Plot add up (R124). -/
def State.countsAdd (s : State) : Prop := ∀ p, (s.plot p).pacer.countsAdd

/-- No physical Plot serves two logical Plots, and each that serves one is enabled, so a spare serves none (R121, R481); a held
event names its Plots in rising logical order and no physical Plot twice (R233, R236). -/
def State.plotsInv (s : State) : Prop :=
  s.plotsOneToOne ∧ (∀ l p, s.phys? l = some p → s.plotState p = .enabled) ∧
  ∀ e h, (s.ev e).held = some h → h.Pairwise (fun a b => a.1 < b.1) ∧ (h.map (·.2)).Nodup

/-- The tables keep their sizes: four Furrows to a Plot (R23), nine counters and two directions of five lanes to a link (R273, R275),
ten counters of the router and eight of the Relay (R313, R366), one entry to an index of the Starter (R231); and the transfers a Plot
DMA engine has queued carry distinct issue numbers, all of them given out (R93). -/
def State.shapeInv (s : State) : Prop :=
  (∀ p x, x = s.plot p → x.furrows.length = 4 ∧ (x.dmaQ.map (·.seq)).Nodup ∧ ∀ c ∈ x.dmaQ, c.seq < x.pacer.seq) ∧
  (∀ l x, x = s.link l → x.cnt.length = 9 ∧ x.tx.st.length = 5 ∧ x.rx.st.length = 5 ∧
    ∀ n, x.laneMapNext = some n → n.st.length = 5) ∧
  s.router.cnt.length = 10 ∧ s.relay.cnt.length = 8 ∧ (∀ c ∈ s.starter.evs, s.starter.evs.get? c.1 = some c.2)

/-- There are six Marshals (R429); the debug level is one of the three and at most the highest seen since the cold reset (R463, R470);
the Journal holds at most 65,536 records, numbered down without a gap from the last JSEQ (R399, R401); and the Plot map and the tables are as plotsInv and shapeInv say. -/
def State.controlInv (s : State) : Prop :=
  s.boot.marshals.length = 6 ∧ s.sec.dbg ≠ 3 ∧ s.sec.dbg.toNat ≤ s.sec.debugMax.toNat ∧
  s.host.recs.length ≤ 65536 ∧
  (∀ i r, s.host.recs[i]? = some r → r.jseq = s.host.jhead - 1 - BitVec.ofNat 64 i) ∧
  s.plotsInv ∧ s.shapeInv

/-- No two valid regions map one device address or one stack byte, and none reaches past the 60 GiB of a stack (R146, R147). -/
def State.regionsApart (s : State) : Prop :=
  (∀ m n a b, m ≠ n → a = s.regions.tbl.get m {} → b = s.regions.tbl.get n {} → a.valid = true → b.valid = true →
    (∀ u, ¬ ((a.base.toNat ≤ u ∧ u < a.base.toNat + a.size.toNat) ∧ (b.base.toNat ≤ u ∧ u < b.base.toNat + b.size.toNat))) ∧
    (∀ k u, k ∈ a.stks → k ∈ b.stks → ¬ (((a.on k).1 ≤ u ∧ u < (a.on k).2) ∧ ((b.on k).1 ≤ u ∧ u < (b.on k).2)))) ∧
  (∀ m r k u, r = s.regions.tbl.get m {} → r.valid = true → k ∈ r.stks → (r.on k).1 ≤ u → u < (r.on k).2 → u < 15728640)

end Sys2Proof.Machine
end

