-- ==== Sys2Proof/Certificates/Slice0/Obligations.lean ====
section
/-! DEFINITION. The statements for the provers, family by family. Each docstring names the rules of the spec that the
statement formalises. -/

open Sys2Proof
open Sys2Proof.Machine

/-- A CONTROL entry that the Pacer is about to issue completes: LOOPSET writes LOOP[SEL], SETIX, ADDIX (modulo 2^24,
IMM[23:0] sign-extended) and XORIX write IX[SEL], TIMEADD adds IMM to PLT_PTIME[SEL], CLEAR zeroes the flag's count;
NOP goes on; LOOP with a counter of 0 goes on, otherwise it counts down and goes to TARGET while the result is not 0;
SKIP passes over COUNT entries where the flag's count agrees with SENSE; RETURN goes to TARGET; BATCHEND and SLOTFREE
are noted, to take effect after the entries issued before them; HALT keeps its own index and drains toward STOPPED.
RUN and ISSUE count one cycle and nothing else in the device changes. (R93, R104, R112, R113, R124) -/
def Obligations.PacerControlOps : Prop :=
  ∀ (s : State) (p : Nat) (c : CtlE) (i : Nat), s.atControl p c i →
    (c.op = 1 → exec (.loopset p) s = .next (s.afterControl p (i + 1) (fun q =>
      { q with loops := q.loops.set c.sel (BitVec.ofNat 32 c.imm) }))) ∧
    (c.op = 5 → exec (.setix p) s = .next (s.afterControl p (i + 1) (fun q =>
      { q with ix := q.ix.set c.sel (BitVec.ofNat 24 c.imm) }))) ∧
    (c.op = 6 → exec (.addix p) s = .next (s.afterControl p (i + 1) (fun q =>
      { q with ix := q.ix.set c.sel (BitVec.ofInt 24 (((q.ix.getD c.sel 0).toNat : Int) + signed 24 c.imm)) }))) ∧
    (c.op = 12 → exec (.xorix p) s = .next (s.afterControl p (i + 1) (fun q =>
      { q with ix := q.ix.set c.sel (q.ix.getD c.sel 0 ^^^ BitVec.ofNat 24 c.imm) }))) ∧
    (c.op = 7 → exec (.timeadd p) s = .next (s.afterControl p (i + 1) (fun q =>
      { q with ptime := q.ptime.set c.sel (q.ptime.getD c.sel 0 + BitVec.ofNat 64 c.imm) }))) ∧
    (c.op = 8 → exec (.clear p) s = .next (s.afterControl p (i + 1) (fun q =>
      { q with flags := q.flags.put c.flag 0 }))) ∧
    (c.op = 0 → exec (.nop p) s = .next (s.afterControl p (i + 1) id)) ∧
    (c.op = 2 → (s.plot p).pacer.loops.getD c.sel 0 = 0 →
      exec (.loop p) s = .next (s.afterControl p (i + 1) id)) ∧
    (c.op = 2 → ∀ n : BitVec 32, (s.plot p).pacer.loops.getD c.sel 0 = n → n ≠ 0 →
      exec (.loop p) s = .next (s.afterControl p (if n - 1 = 0 then i + 1 else c.target) (fun q =>
        { q with loops := q.loops.set c.sel (n - 1) }))) ∧
    (c.op = 3 → exec (.skip p) s = .next (s.afterControl p
      (if ((s.plot p).pacer.flags.get c.flag 0 ≠ 0 ↔ c.sense = true) then i + 1 + c.count else i + 1) id)) ∧
    (c.op = 4 → exec (.return_ p) s = .next (s.afterControl p c.target id)) ∧
    (c.op = 9 → exec (.batchend p) s = .next (s.afterControl p (i + 1) (fun q =>
      { q with deferred := q.deferred ++ [(q.seq, none)] }))) ∧
    (c.op = 10 → exec (.slotfree p) s = .next (s.afterControl p (i + 1) (fun q =>
      { q with deferred := q.deferred ++ [(q.seq, some c.inbox)] }))) ∧
    (c.op = 11 → exec (.halt p) s = .next (s.afterControl p i (fun q =>
      { q with st := .draining, drainTo := .toHaltStop, haltPc := some (BitVec.ofNat 12 i) })))

/-- The entry at PC of a running Pacer is refused, with the code of the first check it fails, and no part of it takes
effect: a CONTROL entry with a target past its own index is refused with TARGET, one with a reserved field with
RSV_ENC, a reserved KIND or OP with RSV_ENC, and a WORK entry with whatever code its checks give, or with RANGE where
the index register that its own SLOT_IN wait writes gives a bad address. The Pacer drains toward FAULT_HALT with the
index in PC; once every entry issued before is complete it is in FAULT_HALT with the code in FAULT, and a RUN_FAULT
record of class STEP_FATAL is posted. (R90, R96, R98, R103, R104, R119, R120) -/
def Obligations.PacerRefuses : Prop :=
  (∀ (s : State) (p i : Nat), s.plotOn p = true → (s.plot p).pacer.st = .running → (s.plot p).pacer.pc.toNat = i →
    (∀ c, eKind (stepEntry (s.plot p) i) = 1 → parseCtl (stepEntry (s.plot p) i) = c →
      (∀ e ∈ [(0, Instr.nop p), (1, .loopset p), (2, .loop p), (3, .skip p), (4, .return_ p), (5, .setix p), (6, .addix p),
              (7, .timeadd p), (8, .clear p), (9, .batchend p), (10, .slotfree p), (11, .halt p), (12, .xorix p)],
        c.op = e.1 → ctlCheck (s.plot p).pacer c i ≠ 0 →
        ∃ t, exec e.2 s = .next t ∧ s.refusedEntry t p (ctlCheck (s.plot p).pacer c i) i) ∧
      (c.op = 4 → c.rsv = 0 → i < c.target → ctlCheck (s.plot p).pacer c i = 6) ∧
      (c.op ≤ 12 → c.rsv ≠ 0 → ctlCheck (s.plot p).pacer c i = 1) ∧
      (12 < c.op → ∃ t, exec (.workEntryIssue p) s = .next t ∧ s.refusedEntry t p 1 i)) ∧
    (2 ≤ eKind (stepEntry (s.plot p) i) → ∃ t, exec (.workEntryIssue p) s = .next t ∧ s.refusedEntry t p 1 i) ∧
    (∀ w, eKind (stepEntry (s.plot p) i) = 0 → parseWork (stepEntry (s.plot p) i) = w →
      ((s.plot p).pacer.checked = false → workCheck (s.plot p) w i ≠ 0 →
        ∃ t, exec (.workEntryIssue p) s = .next t ∧ s.refusedEntry t p (workCheck (s.plot p) w i) i) ∧
      ((s.plot p).pacer.checked = true ∨ workCheck (s.plot p) w i = 0 → w.waitKind = 4 → w.writesIx ≠ 0 →
        (s.plot p).pacer.waitMet w s.now = true → workRange (s.plot p) w ((s.plot p).pacer.takeWait w).ix 0 = true →
        ∃ t, exec (.workEntryIssue p) s = .next t ∧ s.refusedEntry t p 5 i))) ∧
  (∀ (s : State) (p : Nat) (q : Pacer) (ecc : List EccHit), s.plotOn p = true → (s.plot p).pacer = q → q.st = .draining →
    q.drainTo = .toFaultHalt → q.haltPc = none → q.faultNext ≠ 0 →
    (q.work = [] → q.deferred = [] → ∃ t, exec (.drainComplete p ecc) s = .next t ∧
      t.plot p = (s.plot p).onPacer (fun q => { q with st := .faultHalt, fault := q.faultNext, faultNext := 0 }) ∧
      s.posted t 3 4 p [s.lplotW p, w32 q.faultNext.toNat, w32 q.pc.toNat] ∧ s.onlyPlot p t) ∧
    (q.work ≠ [] ∨ q.deferred ≠ [] → exec (.drainComplete p ecc) s = .next s))

/-- A WORK entry that passes its checks and whose queues have room issues when its wait is met: its stream, loads, vector
operation and transfer go to the ends of their queues, its wait takes effect, and nothing outside the Plot changes.
While its wait is unmet, or a queue it needs is full, it only stands checked. TIME_WAIT_EXPIRY takes Stride Time to
the target of a TIME wait, where that lies ahead, and issues the entry; FILL_TIMEOUT takes it to FILL_TIMEOUT after
the head row's arrival and issues the entry of a FILL wait. (R93, R96, R97, R99, R100, R101, R109) -/
def Obligations.WorkIssues : Prop :=
  ∀ (s : State) (p : Nat) (w : WorkE) (i : Nat), s.atWork p w i →
    ((s.plot p).pacer.waitMet w s.now = true → queuesFree (s.plot p) w = true →
      ∃ t, exec (.workEntryIssue p) s = .next t ∧ t = s.setPlot p (t.plot p) ∧ (s.plot p).issued (t.plot p) w i) ∧
    ((s.plot p).pacer.waitMet w s.now = false ∨ queuesFree (s.plot p) w = false →
      exec (.workEntryIssue p) s = .next (s.onPlot p (fun x => x.onPacer (fun q => { q with checked := true })))) ∧
    (w.waitKind = 2 → queuesFree (s.plot p) w = true → ∀ u, u = s.advanceTo ((s.plot p).pacer.ptime.getD (w.waitArg % 4) 0).toNat →
      u.now.toNat = max s.now.toNat ((s.plot p).pacer.ptime.getD (w.waitArg % 4) 0).toNat ∧
      ∃ t, exec (.timeWaitExpiry p) s = .next t ∧ t = u.setPlot p (t.plot p) ∧ (u.plot p).issued (t.plot p) w i) ∧
    (w.waitKind = 3 → queuesFree (s.plot p) w = true → (s.plot p).pacer.batchIb = none → ∀ a rest u,
      ((s.plot p).pacer.inbox (w.waitArg % 4)).arrivals = a :: rest →
      1 ≤ ((s.plot p).pacer.inbox (w.waitArg % 4)).present →
      a.1.toNat + (s.plot p).pacer.fillTo.toNat < 2 ^ 64 →
      u = s.advanceTo (a.1.toNat + (s.plot p).pacer.fillTo.toNat) →
      u.now.toNat = max s.now.toNat (a.1.toNat + (s.plot p).pacer.fillTo.toNat) ∧
      ∃ t, exec (.fillTimeout p) s = .next t ∧ t = u.setPlot p (t.plot p) ∧ (u.plot p).issued (t.plot p) w i)

/-- With a staging slot free, the next row of the oldest stream that has one is read at its address, its poisoned words
replaced, and staged with one segment to write for each selected Furrow and FIFO, none where no Furrow is selected;
the stream goes on to its next row. With a FIFO entry free, the segment of the oldest staged row that has it to write
goes to the end of that FIFO and leaves the row's list, and the row its staging slot with the last of them. With no
row, no slot or no entry free nothing changes. Only that Plot and what events write can change: of the Plot, what is
named here, what the errors met leave, and FEED_STALL. (R42, R58, R59, R97, R100, R138) -/
def Obligations.FlumeRows : Prop :=
  ∀ (s : State) (p : Nat) (x : Plot), s.plotOn p = true → x = s.plot p →
    (x.streams.find? (fun st => decide (st.next < st.rows)) = none → ∀ ecc, exec (.flumeRowRead p ecc) s = .next s) ∧
    (∀ ecc st, x.streams.find? (fun st => decide (st.next < st.rows)) = some st →
      (8 ≤ x.staging.length → exec (.flumeRowRead p ecc) s = .next s) ∧
      (x.staging.length < 8 → ∃ t rows, exec (.flumeRowRead p ecc) s = .next t ∧
        (t.plot p).staging = x.staging ++ rows ∧ (maskList st.mask.toNat = [] → rows = []) ∧
        (maskList st.mask.toNat ≠ [] → ∃ row, rows = [row] ∧ row.seq = st.seq ∧ row.row = st.next ∧
          row.todo = (maskList st.mask.toNat).flatMap (fun f => (List.range 8).map (fun g => (f, g))) ∧
          row.elems = codesOf st.fmt.toNat (st.rowAddr st.next) (x.resv.bytes (st.rowAddr st.next) 128)
            ((t.plot p).badWords (st.rowAddr st.next) 128)) ∧
        (t.plot p).streams.filter (fun u => u.seq != st.seq) = x.streams.filter (fun u => u.seq != st.seq) ∧
        (st.next + 1 < st.rows → x.stream? st.seq = some st →
          (t.plot p).streams = x.streams.map (fun u => if u.seq = st.seq then { u with next := u.next + 1 } else u)) ∧
        (t.plot p).resv = x.resv ∧ (t.plot p).pacer = { x.pacer with work := (t.plot p).pacer.work } ∧
        (∀ f, (t.plot p).furrow f = { x.furrow f with feedStall := ((t.plot p).furrow f).feedStall }) ∧
        (ecc = [] → (t.plot p).furrows = x.furrows ∧ (t.plot p).resvPoison = x.resvPoison) ∧
        (t.plot p).loadQ = x.loadQ ∧ (t.plot p).vecQ = x.vecQ ∧ (t.plot p).dmaQ = x.dmaQ ∧ s.onlyPlot p t)) ∧
    (∀ f g, x.staging.find? (fun r => r.todo.contains (f, g)) = none → exec (.flumeSegmentWrite p f g) s = .next s) ∧
    (∀ f g r, x.staging.find? (fun r => r.todo.contains (f, g)) = some r →
      (8 ≤ ((x.furrow f).fifo.get g []).length → exec (.flumeSegmentWrite p f g) s = .next s) ∧
      (((x.furrow f).fifo.get g []).length < 8 → ∃ t, exec (.flumeSegmentWrite p f g) s = .next t ∧
        t = s.setPlot p { x with furrows := (t.plot p).furrows, staging := (t.plot p).staging } ∧
        (t.plot p).staging = x.staging.filterMap (fun q => if q.seq = r.seq ∧ q.row = r.row then
          (if q.todo.all (fun e => e == (f, g)) then none else some { q with todo := q.todo.filter (fun e => e != (f, g)) }) else some q) ∧
        (f < 4 → x.furrows.length = 4 →
          (t.plot p).furrow f = { x.furrow f with fifo := ((t.plot p).furrow f).fifo } ∧
          ((t.plot p).furrow f).fifo.get g [] = (x.furrow f).fifo.get g [] ++ [r.seg g] ∧
          (∀ k, k ≠ g → ((t.plot p).furrow f).fifo.get k [] = (x.furrow f).fifo.get k [])) ∧
        (∀ h, h ≠ f → (t.plot p).furrow h = x.furrow h)))

/-- When the row stands in all eight FIFOs, the active tile is the one its entry uses and the group's drain FIFO has a
free entry, the group takes the row: its eight column sums, in the fixed order of R26, go to the end of the drain
FIFO, except that a faulty column flows on with the value its fault gave. The Basin does not change. With the row not
in all eight FIFOs, the drain FIFO full, or another tile active, nothing changes. (R26, R34, R42, R43, R477) -/
def Obligations.ColumnGroups : Prop :=
  (∀ (s : State) (p f g : Nat) (residue : Option Residue), s.plotOn p = true →
    (((s.plot p).furrow f).rowAt (((s.plot p).furrow f).taken.get g 0) = none ∨ ((s.plot p).furrow f).active = none) →
    exec (.columnGroupTakeRow p f g residue) s = .next s) ∧
  (∀ (s : State) (p f g : Nat) (residue : Option Residue) (segs : List Seg) (st : Stream) (tile : Tile),
    s.plotOn p = true → ((s.plot p).furrow f).rowAt (((s.plot p).furrow f).taken.get g 0) = some segs →
    (s.plot p).stream? (segs.headD {}).seq = some st → ((s.plot p).furrow f).active = some tile →
    ((tileReady st f ((s.plot p).furrow f) = false ∨ 8 ≤ ((s.plot p).furrow f).drained g) →
      exec (.columnGroupTakeRow p f g residue) s = .next s) ∧
    (tileReady st f ((s.plot p).furrow f) = true → ((s.plot p).furrow f).drained g < 8 →
      ∃ t sums, exec (.columnGroupTakeRow p f g residue) s = .next t ∧
      ((t.plot p).furrow f).drain = ((s.plot p).furrow f).drain ++ [(g, st.seq, (segs.headD {}).row, sums)] ∧
      ((t.plot p).furrow f).lastSeq = some st.seq ∧ ((t.plot p).furrow f).words = ((s.plot p).furrow f).words ∧
      sums.length = 8 ∧
      (∀ c, c < 8 → sums[c]? = some (match residue.filter (fun r => r.column = c) with
        | some r => r.value
        | none => (columnSum (s.plot p).pacer.ovf st.fmt.toNat (segs.flatMap (·.elems)) (tile.column (8 * g + c))
            (segs.map (·.scale)) (tile.colScales (8 * g + c))).1)) ∧
      s.onlyPlot p t))

/-- The oldest drained row of a column group is written to the Basin row its entry names, unless an earlier vector
operation has still to read that row, when nothing changes: SET writes the column sum, ADD writes the FP32 sum of the
old value and the column sum, or the saturated integer sum for INT8 and INT4; in pair mode the two words of the pair
are set or accumulated. Every other word of the Basin, every other Furrow and the rest of the device but for what
events write is unchanged. (R35, R36, R37, R38, R62, R74) -/
def Obligations.BasinWrites : Prop :=
  ∀ (s : State) (p f g : Nat) (ecc : List EccHit) (gg seq i : Nat) (sums : List (BitVec 32)) (st : Stream),
    s.plotOn p = true → ((s.plot p).furrow f).drain.find? (fun d => d.1 == g) = some (gg, seq, i, sums) →
    (s.plot p).stream? seq = some st → g < 8 → sums.length = 8 →
    ((physRows (st.fmt = 9) (st.basinRow i)).any (fun r => (s.plot p).vecReads seq f r) = true →
      exec (.basinRowWrite p f g ecc) s = .next s) ∧
    ((physRows (st.fmt = 9) (st.basinRow i)).any (fun r => (s.plot p).vecReads seq f r) = false →
      ∃ t, exec (.basinRowWrite p f g ecc) s = .next t ∧
      (∀ c v, c < 8 → sums[c]? = some v → ∀ fu gu r o j, fu = (s.plot p).furrow f → gu = (t.plot p).furrow f →
        r = st.basinRow i → o = (s.plot p).pacer.ovf → j = 8 * g + c →
        (st.fmt = 9 → st.add = true → (gu.word (2 * r) j, gu.word (2 * r + 1) j) =
          ((pairAcc o (fu.word (2 * r) j) (fu.word (2 * r + 1) j) v).1,
           (pairAcc o (fu.word (2 * r) j) (fu.word (2 * r + 1) j) v).2.1)) ∧
        (st.fmt = 9 → st.add = false → (gu.word (2 * r) j, gu.word (2 * r + 1) j) = pairSet v) ∧
        (st.fmt ≠ 9 → st.add = false → gu.word r j = v) ∧
        ((st.fmt = 5 ∨ st.fmt = 6) → st.add = true → gu.word r j = (satAdd32 (fu.word r j) v).1) ∧
        (st.fmt ≠ 9 → st.fmt ≠ 5 → st.fmt ≠ 6 → st.add = true → gu.word r j = (fadd o (fu.word r j) v).v)) ∧
      (∀ k, (∀ q ∈ physRows (st.fmt = 9) (st.basinRow i), ∀ c, c < sums.length →
          k ≠ ((s.plot p).furrow f).mapRow q * 64 + (8 * g + c)) →
        ((t.plot p).furrow f).words.get k 0 = ((s.plot p).furrow f).words.get k 0) ∧
      (∀ h, h ≠ f → (t.plot p).furrow h = (s.plot p).furrow h) ∧ s.onlyPlot p t)

/-- The next load starts once no other load of the Plot runs and its Furrow's shadow holds no unused tile: the tile is
read at its address under the map and expander settings of that moment. A load that completes leaves its tile in the
shadow. The exchange makes the shadow's tile active at the row boundary where R30 allows it. A load waits while its
shadow is full, and an exchange that R30 does not allow changes nothing. (R28, R30, R31, R32, R33, R69, R97) -/
def Obligations.ShadowLoads : Prop :=
  ∀ (s : State) (p : Nat), s.plotOn p = true → (s.plot p).furrows.length = 4 →
    (∀ ecc c rest, (s.plot p).loadQ = c :: rest → c.furrow < 4 →
      (((s.plot p).furrow c.furrow).shadow ≠ none → exec (.shadowLoadStart p ecc) s = .next s) ∧
      (((s.plot p).furrow c.furrow).shadow = none → (∀ f, ((s.plot p).furrow f).loading = none) →
        ∃ t, exec (.shadowLoadStart p ecc) s = .next t ∧ ((t.plot p).furrow c.furrow).loading = some c ∧
        ((t.plot p).furrow c.furrow).loadTile =
          some (readTile { s.plot p with resvPoison := (t.plot p).resvPoison } c ((s.plot p).furrow c.furrow).map).1 ∧
        ((t.plot p).furrow c.furrow).mapPending = false ∧
        ((t.plot p).furrow c.furrow).active = ((s.plot p).furrow c.furrow).active ∧
        (t.plot p).loadQ = rest ∧ (∀ h, h ≠ c.furrow → (t.plot p).furrow h = (s.plot p).furrow h) ∧ s.onlyPlot p t)) ∧
    (∀ c, (s.plot p).furrows.findSome? (fun fu => fu.loading) = some c → c.furrow < 4 →
      ∃ t, exec (.shadowLoadComplete p) s = .next t ∧ t = s.setPlot p (t.plot p) ∧
      ((t.plot p).furrow c.furrow) =
        { (s.plot p).furrow c.furrow with
          loading := none, shadow := ((s.plot p).furrow c.furrow).loadTile, loadTile := none } ∧
      (∀ h, h ≠ c.furrow → (t.plot p).furrow h = (s.plot p).furrow h)) ∧
    (∀ f tile, f < 4 → ((s.plot p).furrow f).shadow = some tile →
      (canExchange (s.plot p) f ((s.plot p).furrow f) tile = true →
        exec (.shadowExchange p f) s = .next (s.onPlot p (fun x => x.onFurrow f (fun fu =>
          { fu with active := some tile, shadow := none })))) ∧
      (canExchange (s.plot p) f ((s.plot p).furrow f) tile = false → exec (.shadowExchange p f) s = .next s))

/-- With the BARs open, a write to the space of a Plot that is not RETIRED, outside RETAIN: a column map becomes PENDING
with a reserved BAD_COL leaving the old one; a Basin or a Reservoir spare mapping becomes PENDING while the Pacer is
not STOPPED; PLT_WEXP becomes PENDING with its fields; the numeric and the Pacer's counters clear; PLT_PFLAGSET raises
its flag, unless it counts 15, when FLAG_OVF is set. Nothing else changes, and a write to a RETIRED Plot's space
changes nothing. (R10, R33, R40, R49, R69, R84, R86, R106, R130, R139, R157, R483) -/
def Obligations.PlotRegisterWrites : Prop :=
  ∀ (s : State) (p : Nat) (v : BitVec 32), s.clocked = true → s.host.d3hot = false →
    (s.plotWritable p = false → ∀ f e,
      exec (.pltFcolmapWrite p f v) s = .next s ∧ exec (.pltBspareWrite p f e v) s = .next s ∧
      exec (.pltWexpWrite p v) s = .next s ∧ exec (.cntClr p) s = .next s ∧ exec (.pcntctlClr p) s = .next s ∧
      exec (.pltPflagsetWrite p v) s = .next s ∧ (∀ ecc, exec (.pltRsvrepentWrite p v ecc) s = .next s)) ∧
    (s.plotWritable p = true →
      (∀ f, exec (.pltFcolmapWrite p f v) s = .next (s.onPlot p (fun x => x.onFurrow f (fun fu =>
        { fu with mapPending := true,
                  map := { badCol := if v.toNat % 128 ≤ 64 then v.truncate 7 else fu.map.badCol,
                           spareEn := v.getLsbD 7 } })))) ∧
      ((s.plot p).pacer.st ≠ .stopped → ∀ f e, exec (.pltBspareWrite p f e v) s =
        .next (s.onPlot p (fun x => x.onFurrow f (fun fu =>
          { fu with sparesNext := fu.sparesNext.put e (v.truncate 10, v.getLsbD 15) })))) ∧
      ((s.plot p).pacer.st ≠ .stopped → ∀ ecc, exec (.pltRsvrepentWrite p v ecc) s =
        .next (s.onPlot p (fun x => { x with repNext := x.repNext.put x.repSel.toNat (v.truncate 9, v.getLsbD 9) }))) ∧
      (exec (.pltWexpWrite p v) s = .next (s.onPlot p (fun x =>
        { x with wexpPending := true,
                 wexp := { en := v.getLsbD 0, mode := v.getLsbD 1, codeW := v.getLsbD 2,
                           group := if (v >>> 3).truncate 2 = 3#2 then x.wexp.group else (v >>> 3).truncate 2,
                           target := if (v >>> 5).truncate 2 = 3#2 then x.wexp.target else (v >>> 5).truncate 2 } }))) ∧
      exec (.cntClr p) s = .next (s.onPlot p (fun x => { x with cntSat := 0, cntMore := 0 })) ∧
      exec (.pcntctlClr p) s = .next (s.onPlot p (fun x =>
        { x with pacer := { x.pacer with pcnt := List.replicate x.pacer.pcnt.length 0 } })) ∧
      (∀ n, (s.plot p).pacer.flags.get (v.toNat % 64) 0 = n →
        exec (.pltPflagsetWrite p v) s = .next (s.onPlot p (fun x =>
          { x with pacer := if n = 15#4 then { x.pacer with flagOvf := true }
                            else { x.pacer with flags := x.pacer.flags.put (v.toNat % 64) (n + 1) } }))))

/-- When the Plot's Pacer is stopped, a write to PLT_BSPARE takes effect at once: no mapping of that Furrow stays pending,
the mapping reads as written, with VALID 0 its row too, and every word of the spare row is zero and every other word
unchanged. In every other state of the Pacer the mapping in force and the Basin do not change. A DRAINING Pacer whose
entries are all complete enters the state it drains to; where that is STOPPED, a pending mapping comes into force in
the same way, and otherwise it stays pending. (R40) -/
def Obligations.SpareMappingsApply : Prop :=
  ∀ (s : State) (p f e : Nat) (v : BitVec 32), s.clocked = true → f < 4 → e < 4 → (s.plot p).furrows.length = 4 →
    (s.host.d3hot = false → s.plotWritable p = true → ((s.plot p).furrow f).sparesNext = [] →
      ((s.plot p).pacer.st = .stopped → ∃ t, exec (.pltBspareWrite p f e v) s = .next t ∧
        ((t.plot p).furrow f).sparesNext = [] ∧
        ((t.plot p).furrow f).spares.get? e = some (v.truncate 10, v.getLsbD 15) ∧
        (∀ c, c < 64 → ((t.plot p).furrow f).words.get ((1024 + e) * 64 + c) 0 = 0) ∧
        (∀ k, k < (1024 + e) * 64 ∨ (1024 + e) * 64 + 64 ≤ k →
          ((t.plot p).furrow f).words.get k 0 = ((s.plot p).furrow f).words.get k 0) ∧
        (∀ h, h ≠ f → ((s.plot p).furrow h).sparesNext = [] → (t.plot p).furrow h = (s.plot p).furrow h) ∧
        s.onlyPlot p t) ∧
      ((s.plot p).pacer.st ≠ .stopped → ∃ t, exec (.pltBspareWrite p f e v) s = .next t ∧
        ((t.plot p).furrow f).spares = ((s.plot p).furrow f).spares ∧
        ((t.plot p).furrow f).words = ((s.plot p).furrow f).words ∧ s.onlyPlot p t)) ∧
    (s.plotOn p = true → (s.plot p).pacer.st = .draining → (s.plot p).pacer.work = [] → (s.plot p).pacer.deferred = [] →
      ∀ ecc, ∃ t, exec (.drainComplete p ecc) s = .next t ∧ (t.plot p).pacer.st = (s.plot p).pacer.drainTo.state ∧
        ((s.plot p).pacer.drainTo.state = .stopped → ∀ row valid, ((s.plot p).furrow f).sparesNext = [(e, row, valid)] →
          ((t.plot p).furrow f).spares.get? e = some (row, valid) ∧ ((t.plot p).furrow f).sparesNext = [] ∧
          (∀ c, c < 64 → ((t.plot p).furrow f).words.get ((1024 + e) * 64 + c) 0 = 0)) ∧
        ((s.plot p).pacer.drainTo.state ≠ .stopped → (t.plot p).furrows = (s.plot p).furrows))

/-- The operation at the head of a Plot's queue runs, whatever its COUNT, formats and the errors met, once every Basin row
it reads has been written: it leaves the queue and its entry no longer waits for it; the Basins, the other queues, the
Pacer's PC, loops, indexes and flags, the tables and every other part of the device but for what events write are
unchanged. While a row it reads is still to be written, nothing changes. One of a single row position, with formats
other than MXFP4 and no error met, among ADD, MUL, MAX, AXPBY, EXP2, LOG2, RCP, RSQRT, CONVERT, ROWSCALE and FILLC
writes to D the results of its formula, each FP32 operation rounded once in the order written, converted to OUT_FMT,
and writes nothing else in the Reservoir. (R38, R61, R65, R77, R94, R95, R97, R117) -/
def Obligations.VectorOperations : Prop :=
  (∀ (s : State) (p : Nat) (x : VecFaults) (c : VecCmd) (rest : List VecCmd), s.plotOn p = true →
     (s.plot p).vecQ = c :: rest →
     ∀ e ∈ [(1, Instr.drain p x), (2, .add p x), (3, .mul p x), (4, .max p x), (5, .axpby p x), (6, .exp2 p x),
            (7, .log2 p x), (8, .rcp p x), (9, .rsqrt p x), (10, .convert p x), (11, .split p x), (12, .rowscale p x),
            (13, .rescaleAcc p x), (14, .softmaxBlock p x), (15, .tagread p x), (16, .fillc p x)],
       (parseVx c.desc).op = e.1 →
       (basinReady (s.plot p) c (parseVx c.desc) = false → exec e.2 s = .next s) ∧
       (basinReady (s.plot p) c (parseVx c.desc) = true → ∃ t, exec e.2 s = .next t ∧
         (t.plot p).vecQ = rest ∧
         (t.plot p).pacer.work = (s.plot p).pacer.work.map (fun w => if w.seq = c.seq then { w with vec := false } else w) ∧
         (∀ f, ((t.plot p).furrow f).words = ((s.plot p).furrow f).words ∧
               ((t.plot p).furrow f).tags = ((s.plot p).furrow f).tags) ∧
         (t.plot p).streams = (s.plot p).streams ∧ (t.plot p).loadQ = (s.plot p).loadQ ∧
         (t.plot p).dmaQ = (s.plot p).dmaQ ∧ (t.plot p).stepMem = (s.plot p).stepMem ∧
         (t.plot p).vtab = (s.plot p).vtab ∧ (t.plot p).dtab = (s.plot p).dtab ∧
         (t.plot p).pacer = { (s.plot p).pacer with
           work := (t.plot p).pacer.work, st := (t.plot p).pacer.st, drainTo := (t.plot p).pacer.drainTo } ∧
         ({ s with free := t.free }).onlyPlot p t)) ∧
  (∀ (s : State) (p : Nat) (c : VecCmd) (d : VxD) (rest : List VecCmd) (o : OvfMode) (a b : List (BitVec 32)),
     s.atVector p c d rest → d.count = 1 → d.inFmt ≠ 4 → d.outFmt ≠ 4 → o = (s.plot p).pacer.ovf →
     a = (rowA p c d 0 s).1 → b = (rowB p c d 0 s).1 →
     ∀ e ∈ [(2, Instr.add p {}, (a.zip b).map (fun v => (fadd o v.1 v.2).v)),
            (3, .mul p {}, (a.zip b).map (fun v => (fmul o v.1 v.2).v)),
            (4, .max p {}, (a.zip b).map (fun v => fmax v.1 v.2)),
            (5, .axpby p {}, (a.zip b).map (fun v => (fadd o (fmul o d.sa v.1).v (fmul o d.sb v.2).v).v)),
            (6, .exp2 p {}, a.map (fun v => (fexp2 o (fadd o (fmul o d.sa v).v d.sb).v).v)),
            (7, .log2 p {}, a.map (fun v => (flog2 o v).v)),
            (8, .rcp p {}, a.map (fun v => (frcp o v).v)),
            (9, .rsqrt p {}, a.map (fun v => (frsqrt o v).v)),
            (10, .convert p {}, a),
            (12, .rowscale p {}, a.map (fun v => (fmul o v (vecAt p (d.bAddr + c.ixA) 0 s)).v)),
            (16, .fillc p {}, List.replicate d.lanes d.sa)],
       d.op = e.1 → ∃ t, exec e.2.1 s = .next t ∧
         (t.plot p).resv = (s.plot p).resv.write (d.dAddr + c.ixD) (rowOut o d.outFmt e.2.2))

/-- One row position, with no error met: DRAIN writes SA × Basin + SB converted, or a pair's two words as stored with
PAIR_KEEP; SPLIT writes the hi and the lo parts; RESCALE_ACC writes A × B + Basin in FP32; TAGREAD writes bit 64f + j
as the NaN tag of Furrow f, column j, for the Basins in FMASK and 0 for the others; SOFTMAX_BLOCK writes probabilities
to D and then the new maximum to A, the new sum to B and the rescale factor to E. (R72, R75, R80, R117, R118) -/
def Obligations.VectorBasinOps : Prop :=
  ∀ (s : State) (p : Nat) (c : VecCmd) (d : VxD) (rest : List VecCmd) (o : OvfMode) (a : List (BitVec 32)),
    s.atVector p c d rest → d.count = 1 → o = (s.plot p).pacer.ovf → a = (rowA p c d 0 s).1 →
    (d.op = 1 → d.inFmt = 7 → d.outFmt ≠ 4 → ∃ t, exec (.drain p {}) s = .next t ∧
      (t.plot p).resv = (s.plot p).resv.write (d.dAddr + c.ixD) (rowOut o d.outFmt (d.cells.map (fun q =>
        (fadd o (fmul o d.sa (((s.plot p).furrow q.1).read (d.brow % 1024) q.2)).v d.sb).v)))) ∧
    (d.op = 1 → d.inFmt = 9 → d.keep = true → ∃ t, exec (.drain p {}) s = .next t ∧
      (t.plot p).resv = (s.plot p).resv.write (d.dAddr + c.ixD) (d.cells.flatMap (fun q =>
        leBytes 4 (((s.plot p).furrow q.1).read (2 * (d.brow % 512)) q.2).toNat ++
        leBytes 4 (((s.plot p).furrow q.1).read (2 * (d.brow % 512) + 1) q.2).toNat))) ∧
    (d.op = 11 → d.inFmt ≠ 4 → ∃ t, exec (.split p {}) s = .next t ∧
      (t.plot p).resv = ((s.plot p).resv.write (d.dAddr + c.ixD) (packCodes 16 (a.map (fun v => (split o v).1)))).write
        (d.eAddr + c.ixD) (packCodes 16 (a.map (fun v => (split o v).2.1)))) ∧
    (d.op = 13 → ∃ t, exec (.rescaleAcc p {}) s = .next t ∧
      (t.plot p).resv = (s.plot p).resv.write (d.dAddr + c.ixD) (rowOut o 7 ((a.zip d.cells).map (fun v =>
        (fadd o (fmul o v.1 (vecAt p (d.bAddr + c.ixA) 0 s)).v
          (((s.plot p).furrow v.2.1).read (d.brow % 1024) v.2.2)).v)))) ∧
    (d.op = 15 → ∃ t, exec (.tagread p {}) s = .next t ∧
      ∀ f j, f < 4 → j < 64 → ((t.plot p).resv.le (d.dAddr + c.ixD) 32).testBit (64 * f + j) =
        (bitOf d.fmask f && ((s.plot p).furrow f).tag (d.brow % 1024) j)) ∧
    (d.op = 14 → d.outFmt ≠ 4 → ∀ ma sb ss m ps cc bn, ma = vecAt p (d.aAddr + c.ixA) 0 s →
      sb = vecAt p (d.bAddr + c.ixA) 0 s →
      ss = d.cells.map (fun q => (fmul o d.sa (((s.plot p).furrow q.1).read (d.brow % 1024) q.2)).v) →
      m = ss.foldl fmax ma →
      ps = (if m = 0xFF800000#32 then ss.map (fun _ => (0#32)) else ss.map (fun v => (fexp2 o (fsub o v m).v).v)) →
      cc = (if m = 0xFF800000#32 then 0x3F800000#32 else (fexp2 o (fsub o ma m).v).v) →
      bn = (fadd o (fmul o sb cc).v (laneSum o d.fmask ps).v).v →
      ∃ t, exec (.softmaxBlock p {}) s = .next t ∧
      (t.plot p).resv = ((((s.plot p).resv.write (d.dAddr + c.ixD) (rowOut o d.outFmt ps)).write
        (d.aAddr + c.ixA) (leBytes 4 m.toNat)).write (d.bAddr + c.ixA) (leBytes 4 bn.toNat)).write
        (d.eAddr + c.ixD) (leBytes 4 cc.toNat))

/-- An append that matches its inbox and has room reserves the next ring rows; without room it is an overrun: it reserves
nothing, sets OVERRUN and INBOX_OVR and posts an INBOX_OVERRUN record; one that does not match reserves nothing. A
finished append enters PRESENT, with its arrival time, only when every append reserved before it has finished.
BATCHEND advances HEAD by B, reduces PRESENT by B and closes the batch; SLOTFREE frees the oldest open slot and sends
one credit, and with no open slot frees nothing and sends none; both only once every entry issued before them is
complete. An entry whose parts have all finished is complete: it makes its RAISE, of a local flag or of a readiness
flag of its logical Plot. (R97, R107, R110, R111, R112, R113, R114, R154) -/
def Obligations.InboxesAndDeferred : Prop :=
  (∀ (s : State) (p n : Nat) (b : Inbox), s.plotOn p = true → (s.plot p).pacer.inboxes[n]? = some b →
     (∀ slot rows rowB tag,
       (b.matches slot rows rowB = false → exec (.inboxAppendReserve p n slot rows rowB tag) s = .next s) ∧
       (b.matches slot rows rowB = true →
         b.present + b.openSlots + b.reserved + (if slot then 1 else rows) ≤ b.units →
         exec (.inboxAppendReserve p n slot rows rowB tag) s = .next (s.onPlot p (fun x => x.onPacer (fun q =>
           { q with inboxes := q.inboxes.set n { b with resv := b.resv ++ [
               { tag := tag, units := if slot then 1 else rows, slot := slot, rowBytes := rowB,
                 start := (b.head + (b.present + b.reserved) * b.unitRows) % b.cap.toNat }] } })))) ∧
       (b.matches slot rows rowB = true →
         b.units < b.present + b.openSlots + b.reserved + (if slot then 1 else rows) →
         ∃ t, exec (.inboxAppendReserve p n slot rows rowB tag) s = .next t ∧
         t.plot p = (s.plot p).onPacer (fun q =>
           { q with inboxes := q.inboxes.set n { b with overrun := true }, inboxOvr := true }) ∧
         (∃ r, t.host.recs.head? = some r ∧ r.type = 4 ∧ r.cls = 0 ∧ r.payload = [s.lplotW p, w32 n, w32 b.present]) ∧
         s.onlyPlot p t)) ∧
     (∀ tag r rs, b.resv = r :: rs → r.tag = tag → r.done = false → b.gaps r = [] →
       rs.all (fun q => q.tag != tag && !q.done) = true → b.slotMode = false → b.arrivals.length < 64 →
       exec (.inboxAppendComplete p n tag) s = .next (s.onPlot p (fun x => x.onPacer (fun q =>
         { q with inboxes := q.inboxes.set n { b with present := b.present + r.units, resv := rs,
                                                      arrivals := b.arrivals ++ [(s.now, r.units)] } })))) ∧
     (∀ tag r0 r rs, b.resv = r0 :: r :: rs → r0.tag ≠ tag → r0.done = false → r.tag = tag → r.done = false →
       b.gaps r = [] → ∃ t, exec (.inboxAppendComplete p n tag) s = .next t ∧
         ((t.plot p).pacer.inbox n).present = b.present ∧ ((t.plot p).pacer.inbox n).arrivals = b.arrivals ∧
         (((t.plot p).pacer.inbox n).resv.find? (fun q => q.tag == tag)).map (·.done) = some true ∧ s.onlyPlot p t)) ∧
  (∀ (s : State) (p : Nat), s.plotOn p = true →
     (∀ m rest n, (s.plot p).pacer.deferred = (m, none) :: rest → (s.plot p).pacer.batchIb = some n →
       ((s.plot p).pacer.doneBefore m = true →
         exec (.batchendEffect p) s = .next (s.onPlot p (fun x => x.onPacer (fun q =>
           { q with deferred := rest, batchIb := none, batchB := 0, inboxes := listUpd q.inboxes n (fun b =>
             { b with head := (b.head + q.batchB) % b.cap.toNat, present := b.present - q.batchB,
                      arrivals := dropArrivals q.batchB b.arrivals }) })))) ∧
       ((s.plot p).pacer.doneBefore m = false → rest.all (fun d => d.2 != none) = true →
         exec (.batchendEffect p) s = .next s)) ∧
     (∀ m n rest b, (s.plot p).pacer.deferred = (m, some n) :: rest → (s.plot p).pacer.doneBefore m = true →
       (s.plot p).pacer.inboxes[n]? = some b →
       (b.openSlots = 0 → exec (.slotfreeEffect p) s = .next (s.onPlot p (fun x => x.onPacer (fun q =>
         { q with deferred := rest })))) ∧
       (b.openSlots ≠ 0 → b.srcDevice ≠ s.router.id → ∃ t, exec (.slotfreeEffect p) s = .next t ∧
         t.plot p = (s.plot p).onPacer (fun q =>
           { q with deferred := rest, inboxes := q.inboxes.set n { b with openSlots := b.openSlots - 1 } }) ∧
         t.router.injQ.get (injKey 5 (16 + p)) [] = s.router.injQ.get (injKey 5 (16 + p)) [] ++ [
           { cls := 5, op := 9, dst := b.srcDevice, src := s.router.id,
             arg := BitVec.ofNat 32 (b.srcPlot.toNat + 256 * b.srcOutbox.toNat) }] ∧
         ({ s with router := t.router }).onlyPlot p t)) ∧
     (∀ w rest, (s.plot p).pacer.work = w :: rest → w.stream = false → w.loads = 0 → w.vec = false → w.dma = false →
       (w.raise.getLsbD 7 = false → exec (.entryComplete p w.seq) s =
         .next (s.onPlot p (fun x => x.onPacer (fun q => { q with work := rest })))) ∧
       (w.raise.getLsbD 7 = true → w.raise.getLsbD 6 = false → (s.plot p).pacer.flags.get (w.raise.toNat % 64) 0 ≠ 15#4 →
         exec (.entryComplete p w.seq) s = .next (s.onPlot p (fun x => x.onPacer (fun q =>
           { q with work := rest, flags := q.flags.put (w.raise.toNat % 64) (q.flags.get (w.raise.toNat % 64) 0 + 1) })))) ∧
       (∀ l, w.raise.getLsbD 7 = true → w.raise.getLsbD 6 = true → s.lplot? p = some l →
         ∃ t, exec (.entryComplete p w.seq) s = .next t ∧
         (∀ k, k < 256 → (t.relay.rdy.get (w.raise.toNat % 64) 0).getLsbD k =
           ((s.relay.rdy.get (w.raise.toNat % 64) 0).getLsbD k || decide (k = l))) ∧
         (t.plot p).pacer.work = rest ∧
         ((t.plot p).pacer.flagOvf = true ↔ (s.plot p).pacer.flagOvf = true ∨
           (s.relay.rdy.get (w.raise.toNat % 64) 0).getLsbD l = true) ∧
         ({ s with relay := t.relay }).onlyPlot p t)))

/-- The oldest request from one stop to another is served unless its HBM cannot be accessed yet, when it waits: a read of
one Reservoir answers its bytes, a write changes exactly its bytes, and an address of no Plot answers RANGE and
changes nothing; each gives one reply on the mesh. A write's acknowledgement is counted to its transfer with its
bytes; an error reply makes its transfer fail with its code, PLT_DSTAT and a DMA_FAULT record of class STEP_FATAL;
read data goes to the destination as writes. (R138, R141, R143, R145, R155, R156, R170, R177) -/
def Obligations.MeshMessages : Prop :=
  ∀ (s : State) (k : Nat), s.clocked = true →
    (∀ m rest ecc, s.meshAt k false = some (m, rest) →
      (s.memWaits m.addr.toNat m.len = true → exec (.meshReq k ecc) s = .next s) ∧
      (s.memWaits m.addr.toNat m.len = false → ∃ t reply, exec (.meshReq k ecc) s = .next t ∧
        t.mesh = rest ++ [reply] ∧ reply.rsp = true ∧ reply.plot = m.plot ∧ reply.seq = m.seq ∧ reply.off = m.off ∧
        reply.write = m.write ∧
        (∀ l o, spaceOf m.addr.toNat = .rsv l o → s.phys? l = none → m.append = none → 0 < m.len →
          (m.write = true → m.data.length = m.len) →
          o + m.len ≤ rsvBytes → reply.err = some 2 ∧ t = { s with mesh := t.mesh }) ∧
        (∀ l o q, spaceOf m.addr.toNat = .rsv l o → s.phys? l = some q → m.append = none → 0 < m.len →
          o + m.len ≤ rsvBytes → ecc = [] →
          (m.write = false → reply.err = none ∧ reply.data = (s.plot q).resv.bytes o m.len ∧ t = { s with mesh := t.mesh }) ∧
          (m.write = true → m.data.length = m.len → m.poison = [] → reply.err = none ∧
            (t.plot q).resv = (s.plot q).resv.write o m.data ∧ ({ s with mesh := t.mesh }).onlyPlot q t)))) ∧
    (∀ m rest c, s.meshAt k true = some (m, rest) → s.dma? m.plot m.seq = some c →
      (m.write = true → m.err = none →
        exec (.meshRsp k) s = .next (({ s with mesh := rest }).onDma m.plot m.seq (fun c =>
          { c with outWrites := c.outWrites - 1, bytes := if c.err.isNone then c.bytes + m.len else c.bytes }))) ∧
      (∀ e, m.err = some e → e ≠ 0 → c.err = none → c.started = true → (parseDma c.desc).remote = false →
        ∃ t c', exec (.meshRsp k) s = .next t ∧ t.dma? m.plot m.seq = some c' ∧ c'.err = some e ∧
        (t.plot m.plot).dErr = true ∧ t.mesh = rest ∧
        ((s.plot m.plot).dErr = false →
          (t.plot m.plot).dErrCode = e ∧ (t.plot m.plot).dErrSlot = BitVec.ofNat 8 c.slot) ∧
        (∃ r, t.host.recs.head? = some r ∧ r.type = 5 ∧ r.cls = 4 ∧
          r.payload = [s.lplotW m.plot, w32 e.toNat, w32 c.slot]) ∧
        ({ s with mesh := t.mesh }).onlyPlot m.plot t) ∧
      (m.write = false → m.err = none → m.poison = [] → c.err = none → (parseDma c.desc).remote = false →
        (parseDma c.desc).append = 0 →
        ∃ t more, exec (.meshRsp k) s = .next t ∧
        t.mesh = rest ++ (pieces 4096 (c.dstAt (parseDma c.desc) m.off) m.data.length).map (fun q =>
          ({ plot := m.plot, seq := m.seq, off := m.off + (q.1 - c.dstAt (parseDma c.desc) m.off), write := true,
             addr := BitVec.ofNat 48 q.1, len := q.2,
             data := (m.data.drop (q.1 - c.dstAt (parseDma c.desc) m.off)).take q.2 } : MeshMsg)) ++ more ∧
        (∀ e ∈ more, e.rsp = false ∧ e.write = false ∧ e.plot = m.plot ∧ e.seq = m.seq) ∧
        ({ s with mesh := t.mesh }).onlyPlot m.plot t))

/-- The next transfer in issue order starts: its reads cover its source from its first byte on, each of at most 2 KiB
within one 4 KiB block, at most 128 KiB outstanding. A transfer whose every byte is acknowledged completes: it leaves
the queue, its bytes are added to PLT_DBYTES, its entry no longer waits for it, and a DST_RAISE with an HBM
destination raises its flag on the issuing Plot. A transfer already started, or with bytes still to come, changes
nothing. (R97, R105, R150, R151, R155, R157) -/
def Obligations.PlotDmaTransfers : Prop :=
  ∀ (s : State) (p : Nat), s.plotOn p = true →
    (∀ c, (s.plot p).dmaQ.find? (fun c => !(c.allIssued && decide (c.outReads = 0))) = some c →
      (c.started = true → exec (.dmaTransferStart p) s = .next s) ∧
      (c.started = false → c.err = none → ((s.plot p).dmaQ.map (·.seq)).Nodup →
        ∃ t ms, exec (.dmaTransferStart p) s = .next t ∧ t.mesh = s.mesh ++ ms ∧
        (∀ e ∈ ms, e.rsp = false ∧ e.write = false ∧ e.plot = p ∧ e.seq = c.seq ∧ e.len ≤ 2048 ∧
          e.addr = BitVec.ofNat 48 (c.srcAt (parseDma c.desc) e.off) ∧
          c.srcAt (parseDma c.desc) e.off % 4096 + e.len ≤ 4096) ∧
        (((s.plot p).dmaQ.map (·.readBytes)).sum ≤ 131072 → ((t.plot p).dmaQ.map (·.readBytes)).sum ≤ 131072) ∧
        (∃ c', t.dma? p c.seq = some c' ∧ c'.started = true ∧ c'.next = c.next + (ms.map (·.len)).sum) ∧
        ({ s with mesh := t.mesh }).onlyPlot p t)) ∧
    (∀ c rest, (s.plot p).dmaQ = c :: rest →
      (c.allIssued = false ∨ c.outReads ≠ 0 ∨ c.outWrites ≠ 0 ∨ ((parseDma c.desc).remote = true ∧ c.closed = false) →
        exec (.dmaTransferComplete p) s = .next s) ∧
      (c.allIssued = true → c.outReads = 0 → c.outWrites = 0 →
        ((parseDma c.desc).remote = false ∨ c.closed = true) → c.err = none →
        ((parseDma c.desc).remote = true ∨ (parseDma c.desc).append = 0) →
        (bitOf (parseDma c.desc).raise 7 = false →
          exec (.dmaTransferComplete p) s = .next (s.onPlot p (fun x =>
            { x with dmaQ := rest, dBytes := x.dBytes + BitVec.ofNat 64 c.bytes, pacer := { x.pacer with
                work := x.pacer.work.map (fun w => if w.seq = c.seq then { w with dma := false } else w) } }))) ∧
        (bitOf (parseDma c.desc).raise 7 = true → spaceOf ((parseDma c.desc).dst + c.ixD) = .hbm →
          (s.plot p).pacer.flags.get ((parseDma c.desc).raise % 64) 0 ≠ 15#4 →
          exec (.dmaTransferComplete p) s = .next (s.onPlot p (fun x =>
            { x with dmaQ := rest, dBytes := x.dBytes + BitVec.ofNat 64 c.bytes, pacer := { x.pacer with
                work := x.pacer.work.map (fun w => if w.seq = c.seq then { w with dma := false } else w),
                flags := x.pacer.flags.put ((parseDma c.desc).raise % 64)
                  (x.pacer.flags.get ((parseDma c.desc).raise % 64) 0 + 1) } })))))

/-- An access to a unit in service wakes its channel. A demand read returns the unit's 32 bytes and changes no byte,
unless an error is taken for another one: what the code then gives is returned and written back. A single-symbol error
is counted for its physical channel; an uncorrectable one poisons the unit, sets UE and posts MEM_UE of class
STEP_FATAL, as does the first demand read of a unit that another access had poisoned. A whole write stores its bytes
and clears the poison. A partial write stores its bytes, except into a poisoned unit, which keeps every byte and sets
PARTIAL_POISON. A unit that cannot be accessed changes nothing. (R160, R163, R164, R175, R177) -/
def Obligations.HbmUnitAccess : Prop :=
  ∀ (s : State) (k sb : Nat) (phys key : Nat), s.clocked = true →
    phys = (s.stack k).serve (lchOf (sb / 32 * 32)) (caOf (sb / 32 * 32)) →
    key = phys * chBytes + caOf (sb / 32 * 32) →
    (s.unitOpen k (sb / 32 * 32) = false → ∀ err sl, exec (.hbmDemandRead k sb err sl) s = .next s) ∧
    (s.unitOpen k (sb / 32 * 32) = true → ∀ err sl, ∃ t, exec (.hbmDemandRead k sb err sl) s = .next t ∧
      (t.stack k).rdData = (t.stack k).mem.bytes key 32 ∧
      (((s.stack k).isBad key = true ∨ ∀ m, err ≠ .miscorrected m) → (t.stack k).mem = (s.stack k).mem) ∧
      (∀ m, err = .miscorrected m → (s.stack k).isBad key = false → m.length = 32 →
        (t.stack k).mem = (s.stack k).mem.write key m ∧
        (t.stack k).chCe.get phys 0 = satAdd ((s.stack k).chCe.get phys 0) 1) ∧
      (t.stack k).asleep = (s.stack k).asleep.filter (· != phys) ∧
      (t.stack k).rdPoison = ((s.stack k).isBad key || decide (err = .uncorrectable)) ∧
      (err = .single → (s.stack k).isBad key = false →
        (t.stack k).chCe.get phys 0 = satAdd ((s.stack k).chCe.get phys 0) 1) ∧
      (err = .uncorrectable → (s.stack k).isBad key = false →
        (t.stack k).ue = true ∧ (t.stack k).isBad key = true ∧
        (t.stack k).chUe.get phys 0 = satAdd ((s.stack k).chUe.get phys 0) 1 ∧
        ∃ r, t.host.recs.head? = some r ∧ r.type = 0x81 ∧ r.cls = 4 ∧ r.index = BitVec.ofNat 16 k ∧
          r.payload.head? = some (if sl = none then 3 else 8)) ∧
      ((s.stack k).isBad key = true → (s.stack k).latent.contains (key / 32) = true →
        (t.stack k).ue = true ∧ (t.stack k).latent = (s.stack k).latent.erase (key / 32) ∧
        (t.stack k).chUe = (s.stack k).chUe ∧
        ∃ r, t.host.recs.head? = some r ∧ r.type = 0x81 ∧ r.cls = 4 ∧ r.index = BitVec.ofNat 16 k) ∧
      ((err = .clean ∧ (s.stack k).isBad key = false ∨
          (s.stack k).isBad key = true ∧ (s.stack k).latent.contains (key / 32) = false) →
        t = s.setStack k (t.stack k)) ∧ s.onlyStack k t) ∧
    (∀ data, s.unitOpen k sb = true → data.length = 32 → sb % 32 = 0 →
      exec (.hbmWrite k sb data) s = .next (s.onStack k (fun x =>
        { x with asleep := x.asleep.filter (· != phys), mem := x.mem.write key data,
                 poison := x.poison.filter (· != key / 32), latent := x.latent.filter (· != key / 32) }))) ∧
    (∀ data, s.unitOpen k sb = true → sb % 32 + data.length ≤ 32 →
      ((s.stack k).isBad key = false → exec (.hbmPartialWrite k sb data .clean) s = .next (s.onStack k (fun x =>
        { x with asleep := x.asleep.filter (· != phys), mem := x.mem.write (key + sb % 32) data }))) ∧
      ((s.stack k).isBad key = true → ∀ err, exec (.hbmPartialWrite k sb data err) s = .next (s.onStack k (fun x =>
        { x with asleep := x.asleep.filter (· != phys), partialPoison := true })))) ∧
    (∀ data err, s.unitOpen k sb = false →
      exec (.hbmWrite k sb data) s = .next s ∧ exec (.hbmPartialWrite k sb data err) s = .next s)

/-- The patrol scrub reads one unit of every channel in service and moves POS on, PASSES counting at its wrap; it changes
no byte, but where an error is taken for another one; it waits for a bank that a repair holds. A replayed flit is
counted, and the sixteenth failure in a row of one flit is DEVICE_FATAL with cause 2 and the stack: every Pacer is
stopped. Refresh goes on in RUN and TRIM. REFRESH_2X and THROTTLE follow 85 and 95 °C with 3 °C of hysteresis. A
channel idle in IDLE enters power-down. The end of initialisation marks the reserve channels that failed. (R166, R167,
R168, R174, R176, R177, R178, R475) -/
def Obligations.HbmUpkeep : Prop :=
  ∀ (s : State) (k : Nat), s.clocked = true →
    (∀ errs, s.hbmUp k = true →
      (∀ c, c < 30 → (s.stack k).offline.contains c = false →
        (s.stack k).bankHeld ((s.stack k).serve c ((s.stack k).scrubPos.toNat * 32)) ((s.stack k).scrubPos.toNat * 32) = false) →
      ∃ t, exec (.patrolScrubRead k errs) s = .next t ∧
      ((∀ e ∈ errs, ∀ m, e.2 ≠ .miscorrected m) → (t.stack k).mem = (s.stack k).mem) ∧
      (t.stack k).scrubPos = (s.stack k).scrubPos + 1 ∧ (t.stack k).rdData = (s.stack k).rdData ∧
      (t.stack k).scrubPasses = (if (s.stack k).scrubPos = BitVec.allOnes 26 then (s.stack k).scrubPasses + 1
        else (s.stack k).scrubPasses) ∧ s.onlyStack k t) ∧
    (∀ errs, s.hbmUp k = false → exec (.patrolScrubRead k errs) s = .next s) ∧
    (∀ errs c, c < 30 → (s.stack k).offline.contains c = false →
      (s.stack k).bankHeld ((s.stack k).serve c ((s.stack k).scrubPos.toNat * 32)) ((s.stack k).scrubPos.toNat * 32) = true →
      exec (.patrolScrubRead k errs) s = .next s) ∧
    (exec (.dieLinkReplay k false) s = .next (s.onStack k (fun x =>
      { x with linkRetry := satAdd x.linkRetry 1, retrySeq := 1 }))) ∧
    ((s.stack k).retrySeq + 1 ≠ 16 → exec (.dieLinkReplay k true) s = .next (s.onStack k (fun x =>
      { x with linkRetry := satAdd x.linkRetry 1, retrySeq := x.retrySeq + 1 }))) ∧
    ((s.stack k).retrySeq = 15 → ∃ t, exec (.dieLinkReplay k true) s = .next t ∧
      t.ras.fatal = true ∧ t.ras.fatalCause = 2 ∧ t.ras.fatalIndex = BitVec.ofNat 8 k ∧
      (∀ e ∈ t.plots, e.2.pacer.st ≠ .running ∧ e.2.pacer.st ≠ .paused) ∧
      ((∀ p, (s.plot p).sparesWait = false) → ∃ r, t.host.recs.head? = some r ∧ r.type = 0x8E ∧ r.cls = 5) ∧
      t.stks = s.stks.put k { s.stack k with linkRetry := satAdd (s.stack k).linkRetry 1, retrySeq := 16 }) ∧
    (s.hbmUp k = true → (s.power.st = .run ∨ s.power.st = .trim) →
      exec (.hbmRefresh k) s = .next (s.onStack k (fun x => { x with refreshes := x.refreshes + 1 }))) ∧
    (s.power.st = .idle → exec (.hbmRefresh k) s = .next s) ∧
    (∀ temp : BitVec 8, ∃ t, exec (.hbmTempThreshold k temp) s = .next t ∧
      t.stack k = { s.stack k with tempLive := temp, refresh2x := (t.stack k).refresh2x, throttle := (t.stack k).throttle } ∧
      (85 ≤ temp.toNat → (t.stack k).refresh2x = true) ∧ (temp.toNat ≤ 82 → (t.stack k).refresh2x = false) ∧
      (82 < temp.toNat → temp.toNat < 85 → (t.stack k).refresh2x = (s.stack k).refresh2x) ∧
      (95 ≤ temp.toNat → (t.stack k).throttle = true) ∧ (temp.toNat ≤ 92 → (t.stack k).throttle = false) ∧
      (92 < temp.toNat → temp.toNat < 95 → (t.stack k).throttle = (s.stack k).throttle) ∧
      t = s.setStack k (t.stack k)) ∧
    (∀ c, c < 30 → s.power.st = .idle → s.hbmUp k = true → (s.stack k).asleep.contains ((s.stack k).physOf c) = false →
      exec (.hbmIdlePowerDown k ((s.stack k).physOf c)) s = .next (s.onStack k (fun x =>
        { x with asleep := x.physOf c :: x.asleep }))) ∧
    (∀ bad, s.boot.hsDone = true → s.boot.hbmReady = false → ∃ t, exec (.hbmInitComplete bad) s = .next t ∧
      t = { s with boot := { s.boot with hbmReady := true }, stks := t.stks } ∧
      (∀ q, (t.stack q) = { s.stack q with failed := (t.stack q).failed }) ∧
      (∀ q p, p < 32 → ((t.stack q).failed.getLsbD p = true ↔ (s.stack q).failed.getLsbD p = true ∨
        ((q, p) ∈ bad ∧ ∀ c, c < 30 → (s.stack q).physOf c ≠ p))))

/-- HBM_PPR answers RANGE for an operand outside its range, STATE while HBM is not up, BUSY while the channel has a repair
or a copy, EXHAUSTED when the spare row of its bank group, SID and pseudo-channel is used, and otherwise is ACCEPTED.
The repair drains, reads the row into the holding buffer, programs, and at its end posts REPAIRED, the channel has one
spare row less and the bank reopens. (R161, R170, R171, R394, R396) -/
def Obligations.PostPackageRepair : Prop :=
  ∀ (s : State) (k ch : Nat), s.clocked = true →
    (∀ w (st ph pc sid bg bank row d : BitVec 32), st.toNat = k → ph.toNat = ch →
      s.carries w 0x81 [k, ch, pc.toNat, sid.toNat, bg.toNat, bank.toNat, row.toNat] = some d →
      ((24 ≤ k ∨ 32 ≤ ch ∨ 2 ≤ pc.toNat ∨ 4 ≤ sid.toNat ∨ 4 ≤ bg.toNat ∨ 4 ≤ bank.toNat ∨ 16384 ≤ row.toNat) →
        exec (.hbmPpr w st ph pc sid bg bank row) s = .next (answer w d stRange [] s)) ∧
      (k < 24 → ch < 32 → pc.toNat < 2 → sid.toNat < 4 → bg.toNat < 4 → bank.toNat < 4 → row.toNat < 16384 →
        (s.hbmUp k = false → exec (.hbmPpr w st ph pc sid bg bank row) s = .next (answer w d stState [] s)) ∧
        (s.hbmUp k = true → ∀ u, u = s.onStack k (fun x => { x with pprPhys := BitVec.ofNat 5 ch }) →
          ((s.stack k).chBusy ch = true → exec (.hbmPpr w st ph pc sid bg bank row) s = .next (answer w d stBusy [] u)) ∧
          ((s.stack k).chBusy ch = false → ((s.stack k).pprUsed.get ch 0).getLsbD (pprSlot pc.toNat sid.toNat bg.toNat) = true →
            exec (.hbmPpr w st ph pc sid bg bank row) s = .next (answer w d stExhausted [] u)) ∧
          ((s.stack k).chBusy ch = false → ((s.stack k).pprUsed.get ch 0).getLsbD (pprSlot pc.toNat sid.toNat bg.toNat) = false →
            exec (.hbmPpr w st ph pc sid bg bank row) s = .next (answer w d stAccepted [] (startLong w 0x81 d k
              (u.onStack k (fun x => { x with pprs := x.pprs ++ [
                { phys := ch, pc := pc.toNat, sid := sid.toNat, bg := bg.toNat, bank := bank.toNat,
                  row := row.toNat, dseq := d }] })))))))) ∧
    (∀ r rest, (s.stack k).pprs = r :: rest → r.phys = ch → rest.all (fun q => q.phys != ch) = true →
      (r.stage = .drain → exec (.pprDrainDone k ch) s = .next (s.onStack k (fun x =>
        { x with pprs := { r with stage := .readRow } :: rest }))) ∧
      (r.stage = .readRow → ∀ errs, ∃ t, exec (.pprRowReadDone k ch errs) s = .next t ∧ s.onlyStack k t ∧
        ((∀ e ∈ errs, ∀ m, e.2 ≠ .miscorrected m) → (t.stack k).mem = (s.stack k).mem) ∧ ∃ r', (t.stack k).pprs = r' :: rest ∧ r'.stage = .program ∧
        (∀ c i, c < 32 → i < 32 → Mem.read r'.held (32 * c + i) =
          Mem.read ((t.stack k).mem) (ch * chBytes + r.unitCa c + i)) ∧
        (∀ c, c < 32 → r'.heldPoison.contains c =
          ((s.stack k).isBad (ch * chBytes + r.unitCa c) || decide (errOf errs c = .uncorrectable)))) ∧
      (r.stage = .program → exec (.pprProgramDone k ch) s = .next (s.onStack k (fun x =>
        { x with pprs := { r with stage := .writeBack } :: rest }))) ∧
      (r.stage = .writeBack → ∃ t, exec (.pprComplete k ch) s = .next t ∧ (t.stack k).pprs = rest ∧
        (r.pc < 2 → r.sid < 4 → r.bg < 4 → ∀ i, i < 32 →
          (((t.stack k).pprUsed.get ch 0).getLsbD i =
            (((s.stack k).pprUsed.get ch 0).getLsbD i || decide (i = pprSlot r.pc r.sid r.bg))) ∧
          ((t.ras.pprFuse.get (k * 32 + ch) 0).getLsbD i =
            ((s.ras.pprFuse.get (k * 32 + ch) 0).getLsbD i || decide (i = pprSlot r.pc r.sid r.bg)))) ∧
        (∃ e ∈ t.host.recs.take 2, e.type = 0x11 ∧ e.cls = 3 ∧ e.dseq = r.dseq ∧
          e.payload = [0, w32 ch, w32 ((s.stack k).lchServed ch)]) ∧
        (∀ j, (∀ c, c < 32 → j < ch * chBytes + r.unitCa c ∨ ch * chBytes + r.unitCa c + 32 ≤ j) →
          Mem.read (t.stack k).mem j = Mem.read (s.stack k).mem j) ∧
        t.plots = s.plots ∧ t.sec = s.sec ∧ t.boot = s.boot ∧ ∀ q, q ≠ k → t.stack q = s.stack q))

/-- HBM_SPARE and HBM_OFFLINE answer RANGE, STATE, BUSY and EXHAUSTED where their rules say, and otherwise start the copy,
or take the channel OFFLINE. A copy whose target is awake copies one block at its watermark, unless it is paused or a
repair runs on its source or its target, for which it waits; after the last block the logical channel runs on the
target, the source is FAILED and REPAIRED is posted. (R172, R173, R174, R175, R394, R396) -/
def Obligations.ChannelSparing : Prop :=
  ∀ (s : State) (k : Nat), s.clocked = true →
    (∀ w (st lch rate d : BitVec 32), st.toNat = k → s.carries w 0x82 [k, lch.toNat, rate.toNat] = some d →
      ((24 ≤ k ∨ 30 ≤ lch.toNat ∨ rate.toNat = 0 ∨ 32 < rate.toNat) →
        exec (.hbmSpare w st lch rate) s = .next (answer w d stRange [] s)) ∧
      (k < 24 → lch.toNat < 30 → 0 < rate.toNat → rate.toNat ≤ 32 →
        ((s.hbmUp k = false ∨ (s.stack k).offline.contains lch.toNat = true) →
          exec (.hbmSpare w st lch rate) s = .next (answer w d stState [] s)) ∧
        (s.hbmUp k = true → (s.stack k).offline.contains lch.toNat = false →
          ((s.stack k).spare ≠ none → exec (.hbmSpare w st lch rate) s = .next (answer w d stBusy [] s)) ∧
          ((s.stack k).spare = none → (s.stack k).reserve? = none →
            exec (.hbmSpare w st lch rate) s = .next (answer w d stExhausted [] s)) ∧
          (∀ p, (s.stack k).spare = none → (s.stack k).reserve? = some p →
            exec (.hbmSpare w st lch rate) s = .next (answer w d stAccepted [] (startLong w 0x82 d k (s.onStack k (fun x =>
              { x with spare := some { lch := lch.toNat, target := p, dseq := d }, spareLch := lch.truncate 5,
                       spareTarget := BitVec.ofNat 5 p, spareRate := rate.truncate 6, spareWm := 0 })))))))) ∧
    (∀ p, (s.stack k).reserve? = some p → p < 32 ∧ (s.stack k).failed.getLsbD p = false ∧
      (∀ c, c < 30 → (s.stack k).physOf c ≠ p) ∧
      (∀ q, q < p → (s.stack k).failed.getLsbD q = true ∨ ∃ c, c < 30 ∧ (s.stack k).physOf c = q)) ∧
    (∀ c, (s.stack k).spare = some c →
      (s.hbmUp k = true → c.awake = false → exec (.spareTargetReady k) s = .next (s.onStack k (fun x =>
        { x with spare := some { c with awake := true } }))) ∧
      ((c.awake = false ∨ c.paused = true) → ∀ errs, exec (.spareBlockCopied k errs) s = .next s) ∧
      (s.hbmUp k = true → c.awake = true → c.paused = false → (s.stack k).spareWm.toNat < 524288 →
        (s.stack k).pprs.all (fun r => r.phys != (s.stack k).physOf c.lch && r.phys != c.target) = true →
        c.target ≠ (s.stack k).physOf c.lch → ∀ errs,
        ∃ t, exec (.spareBlockCopied k errs) s = .next t ∧ (t.stack k).spareWm = (s.stack k).spareWm + 1 ∧
        (∀ i, i < 4096 → Mem.read (t.stack k).mem (c.target * chBytes + (s.stack k).spareWm.toNat * 4096 + i) =
          Mem.read (t.stack k).mem ((s.stack k).physOf c.lch * chBytes + (s.stack k).spareWm.toNat * 4096 + i)) ∧
        ((∀ e ∈ errs, ∀ m, e.2 ≠ .miscorrected m) → ∀ j, (j < c.target * chBytes + (s.stack k).spareWm.toNat * 4096 ∨
            c.target * chBytes + (s.stack k).spareWm.toNat * 4096 + 4096 ≤ j) →
          Mem.read (t.stack k).mem j = Mem.read (s.stack k).mem j) ∧ s.onlyStack k t) ∧
      (c.target < 32 → (s.stack k).pprs.any (fun r => r.phys == (s.stack k).physOf c.lch || r.phys == c.target) = true → ∀ errs,
        exec (.spareBlockCopied k errs) s = .next s) ∧
      ((s.stack k).spareWm.toNat ≠ 524288 → exec (.spareCopyComplete k) s = .next s) ∧
      ((s.stack k).spareWm.toNat = 524288 → c.target < 32 → (s.stack k).physOf c.lch < 32 →
        ∃ t, exec (.spareCopyComplete k) s = .next t ∧
        (t.stack k).spare = none ∧ (t.stack k).physOf c.lch = c.target ∧
        (t.stack k).failed.getLsbD ((s.stack k).physOf c.lch) = true ∧ (t.stack k).mem = (s.stack k).mem ∧
        (∃ e ∈ t.host.recs.take 2, e.type = 0x11 ∧ e.cls = 3 ∧ e.dseq = c.dseq ∧ e.payload = [1, w32 c.target, w32 c.lch]) ∧
        t.plots = s.plots ∧ t.sec = s.sec ∧ t.boot = s.boot ∧ ∀ q, q ≠ k → t.stack q = s.stack q)) ∧
    (∀ w (st lch d : BitVec 32), st.toNat = k → s.carries w 0x83 [k, lch.toNat] = some d →
      ((24 ≤ k ∨ 30 ≤ lch.toNat) → exec (.hbmOffline w st lch) s = .next (answer w d stRange [] s)) ∧
      (k < 24 → lch.toNat < 30 → (s.stack k).offline.contains lch.toNat = false →
        ((s.stack k).chBusy ((s.stack k).physOf lch.toNat) = true →
          exec (.hbmOffline w st lch) s = .next (answer w d stBusy [] s)) ∧
        ((s.stack k).chBusy ((s.stack k).physOf lch.toNat) = false → (s.stack k).reserve? ≠ none →
          exec (.hbmOffline w st lch) s = .next (answer w d stState [] s)) ∧
        ((s.stack k).chBusy ((s.stack k).physOf lch.toNat) = false → (s.stack k).reserve? = none →
          exec (.hbmOffline w st lch) s = .next (answer w d stOk [] (s.onStack k (fun x =>
            { x with offline := x.offline ++ [lch.toNat] }))))))

/-- Elements that arrive for a step that is decided, or in staged mode for a segment already updated, wait for the next
step and are not counted; otherwise those the segment takes are counted in RECV, and any refused sets INLET_ERR and
the cause INLET. A block that may pass leaves the inlet: its elements are counted as updated, PEND is set once COUNT
have been. A block that a hold count has held past SLC_HOLDWAIT is dropped with HOLD_ERR and the cause HOLD. The
evaluation ends once, when what it reads and clears can be accessed. The pipe map waits for the inlet to empty. (R181,
R189, R190, R191, R192, R193, R206) -/
def Obligations.GradientInlet : Prop :=
  ∀ (s : State) (k : Nat), s.clocked = true →
    (∀ seg first elems, (s.decided = true ∨ (s.commit.mode = true ∧ (s.segTag k seg).pend = true)) →
      ∃ t, exec (.sluiceElementArrive k seg first elems) s = .next t ∧
      (t.sluice k).tags = (s.sluice k).tags ∧
      (elems ≠ [] → ∃ b ∈ (t.sluice k).inlet, b.seg = seg ∧ b.next = true) ∧
      (∀ b ∈ (t.sluice k).inlet, b.next = false → b ∈ (s.sluice k).inlet) ∧
      t = s.setStack k (t.stack k)) ∧
    (∀ seg first elems e u kept, s.decided = false → (s.commit.mode = false ∨ (s.segTag k seg).pend = false) →
      (e, u) = readSeg k seg s →
      kept = (if u.segTakes k seg e then min elems.length (min (e.count - (s.segTag k seg).recv) (e.count - first)) else 0) →
      ∃ t, exec (.sluiceElementArrive k seg first elems) s = .next t ∧
      (t.segTag k seg).recv = (s.segTag k seg).recv + kept ∧
      (∀ j, j ≠ seg → t.segTag k j = s.segTag k j) ∧
      (kept = elems.length → t.commit = u.commit ∧ (t.sluice k).inletErr = (s.sluice k).inletErr) ∧
      (kept < elems.length → t.commit.cause.getLsbD 1 = true ∧ (t.sluice k).inletErr = true) ∧
      State.sameButEvents { s with stks := t.stks, free := t.free } t) ∧
    (∀ i b rest fault, takeAt (s.sluice k).inlet i = some (b, rest) →
      ((s.mayPass k i b = false ∨ s.updateWaits k b = true) → exec (.sluiceBlockUpdate k i fault) s = .next s) ∧
      (s.mayPass k i b = true → s.updateWaits k b = false → ∃ t e,
        exec (.sluiceBlockUpdate k i fault) s = .next t ∧ (t.sluice k).inlet = rest ∧
        (t.sluice k).updCnt = (s.sluice k).updCnt + BitVec.ofNat 64 b.elems.length ∧
        (t.segTag k b.seg).upd = (s.segTag k b.seg).upd + b.elems.length ∧
        e = (readSeg k b.seg (s.onSluice k (fun x => { x with inlet := rest }))).1 ∧
        (t.segTag k b.seg).pend = decide ((s.segTag k b.seg).upd + b.elems.length = e.count) ∧
        (∀ j, j ≠ b.seg → t.segTag k j = s.segTag k j) ∧
        State.sameButEvents { s with stks := t.stks, free := t.free } t)) ∧
    (∀ i b rest t0, takeAt (s.sluice k).inlet i = some (b, rest) →
      ((b.heldFrom = none ∨ (s.segTag k b.seg).hold = 0) → exec (.sluiceHoldTimeout k i) s = .next s) ∧
      (b.heldFrom = some t0 → (s.segTag k b.seg).hold ≠ 0 → ∀ u, u = s.advanceTo (t0.toNat + (s.sluice k).cfg.holdWait.toNat + 1) →
        exec (.sluiceHoldTimeout k i) s = .next (latchCause 4 (u.onSluice k (fun x =>
          { x with inlet := rest, holdErr := true }))))) ∧
    (((s.sluice k).evalBusy = false ∨ s.evalWaits k = true) → exec (.sluiceEvalComplete k) s = .next s) ∧
    ((s.sluice k).evalBusy = true → s.evalWaits k = false → ∃ t, exec (.sluiceEvalComplete k) s = .next t ∧ (t.sluice k).evalBusy = false ∧
      (t.sluice k).tags = (s.sluice k).tags ∧ (t.sluice k).inlet = (s.sluice k).inlet ∧
      State.sameButEvents { s with stks := t.stks, free := t.free } t) ∧
    (∀ v, s.host.d3hot = false → exec (.pipemapWrite k v) s = .next (s.onSluice k (fun x =>
      { x with pipeNext := some (v.truncate 2, v.getLsbD 2) }))) ∧
    (∀ f en, (s.sluice k).pipeNext = some (f, en) →
      ((s.sluice k).inlet ≠ [] → exec (.pipemapApply k) s = .next s) ∧
      ((s.sluice k).inlet = [] → ∃ t, exec (.pipemapApply k) s = .next t ∧
        t.sluice k = { s.sluice k with pipeFailed := f, pipeSpare := en, pipeNext := none } ∧ s.onlyStack k t ∧
        (en = false → t.host = s.host) ∧
        (en = true → s.posted t 0x87 (if (s.sluice k).pipeSpareBad then 2 else 3) k
          [w32 f.toNat, 1, w32 (b2n (s.sluice k).pipeSpareBad)])))

/-- VERDICT in OPEN latches the causes that show and takes the controller to VERDICT; elsewhere it is refused with
SEQ_ERR. COMMIT in VERDICT applies a held result, or without one goes to PENDING; in OPEN it rolls back with cause
NOVERDICT. ROLLBACK in OPEN and VERDICT rolls back. An event that a higher order reaches first ends SUPERSEDED with no
other effect. A result that arrives in VERDICT is held, in PENDING is applied at once with LATE. A commit makes the
step number one more, drives STEP_N for 1 µs and takes the norms; a rollback keeps step and norms and drives it 4 µs.
(R205, R206, R207, R208, R209, R236) -/
def Obligations.StepOutcomes : Prop :=
  ∀ (s : State),
    (∀ e v set u rivals, s.atEvent e 6 v set u →
      (u.loses (.starter e) rivals = true → exec (.verdict e rivals) s = .next (starterEnd e 4 (s.isLate v) u))) ∧
    (∀ e v set u rivals, s.atEvent e 6 v set u → u.loses (.starter e) rivals = false →
      (s.commit.st = .open → ∃ y, exec (.verdict e rivals) s = .next (starterEnd e 2 (s.isLate v) (launchVerdict y)) ∧
        y = { u with commit := y.commit } ∧ y.commit.st = .verdict ∧ y.commit.step = s.commit.step ∧
        y.commit.ownBad = decide (y.commit.cause ≠ 0) ∧
        (∀ i, s.commit.cause.getLsbD i = true → y.commit.cause.getLsbD i = true) ∧
        ((∃ k, k < 24 ∧ u.inletShort k = true) → y.commit.cause.getLsbD 1 = true) ∧
        (s.commit.mode = false → (∃ k, k < 24 ∧ u.held k = true) → y.commit.cause.getLsbD 4 = true) ∧
        ((∀ k, k < 24 → u.inletShort k = false ∧ u.held k = false) → y.commit.cause = s.commit.cause) ∧
        y.commit.payload.head? = some (if y.commit.cause ≠ 0 then one32 else 0)) ∧
      (s.commit.st ≠ .open → exec (.verdict e rivals) s =
        .next (starterEnd e 3 (s.isLate v) { u with commit := { u.commit with seqErr := true } }))) ∧
    (∀ e v set u rivals, s.atEvent e 7 v set u →
      (u.loses (.starter e) rivals = true → exec (.commit e rivals) s = .next (starterEnd e 4 (s.isLate v) u))) ∧
    (∀ e v set u rivals, s.atEvent e 7 v set u → u.loses (.starter e) rivals = false →
      (s.commit.st = .idle → exec (.commit e rivals) s = .next (starterEnd e 3 (s.isLate v) u)) ∧
      (s.commit.st = .pending → exec (.commit e rivals) s =
        .next (starterEnd e 3 (s.isLate v) { u with commit := { u.commit with seqErr := true } })) ∧
      (s.commit.st = .verdict → s.commit.result = none → exec (.commit e rivals) s =
        .next (starterEnd e 2 (s.isLate v) { u with commit := { u.commit with st := .pending } })) ∧
      (∀ w, s.commit.st = .verdict → s.commit.result = some w → (w.getD 0 0 = 0 ∨ w.getD 0 0 = 0x80000000) →
        exec (.commit e rivals) s = .next (starterEnd e 2 (s.isLate v) (doCommit 1 (some w) u))) ∧
      (∀ w, s.commit.st = .verdict → s.commit.result = some w → w.getD 0 0 ≠ 0 → w.getD 0 0 ≠ 0x80000000 →
        exec (.commit e rivals) s = .next (starterEnd e 2 (s.isLate v) (doRollback 2 (some (w.getD 0 0)) u))) ∧
      (s.commit.st = .open → exec (.commit e rivals) s = .next (starterEnd e 2 (s.isLate v) (doRollback 2 none
        { u with commit := { u.commit with cause := u.commit.cause ||| 0x200 } })))) ∧
    (∀ e v set u rivals, s.atEvent e 8 v set u →
      (u.loses (.starter e) rivals = true → exec (.rollback e rivals) s = .next (starterEnd e 4 (s.isLate v) u))) ∧
    (∀ e v set u rivals, s.atEvent e 8 v set u → u.loses (.starter e) rivals = false →
      (s.commit.st = .idle → exec (.rollback e rivals) s = .next (starterEnd e 3 (s.isLate v) u)) ∧
      (s.commit.st = .pending → exec (.rollback e rivals) s =
        .next (starterEnd e 3 (s.isLate v) { u with commit := { u.commit with seqErr := true } })) ∧
      ((s.commit.st = .open ∨ s.commit.st = .verdict) →
        exec (.rollback e rivals) s = .next (starterEnd e 2 (s.isLate v) (doRollback 2 none u)))) ∧
    (s.clocked = true → ∀ w,
      (s.commit.st = .verdict → exec (.verdictResult w) s = .next { s with commit := { s.commit with result := some w } }) ∧
      (s.commit.st = .pending → w.getD 0 0 = 0 →
        exec (.verdictResult w) s = .next (doCommit 1 (some w) { s with commit := { s.commit with late := true } })) ∧
      ((s.commit.st = .idle ∨ s.commit.st = .open) → exec (.verdictResult w) s = .next s)) ∧
    (s.clocked = true → ∀ t0 u, s.commit.stepN = some t0 → u = s.advanceTo t0.toNat →
      exec .stepNRelease s = .next { u with commit := { u.commit with stepN := none } }) ∧
    (∀ last words t, t = doCommit last (some words) s →
      t.commit.step = s.commit.step + 1 ∧ t.commit.st = .open ∧ t.commit.last = last ∧ t.commit.result = none ∧
      t.commit.veto = false ∧ t.commit.lastCause = s.commit.cause ∧ t.commit.stepN = some (s.now + 1000) ∧
      (∀ d, d < 8 → t.commit.clipNorm.get d 0 = clampInf (sSqrt (words.getD (1 + d) 0))) ∧
      t.plots = s.plots ∧ t.links = s.links ∧ t.router = s.router ∧ t.relay = s.relay ∧ t.sec = s.sec ∧ t.boot = s.boot) ∧
    (∀ last w0 t, t = doRollback last w0 s →
      t.commit.step = s.commit.step ∧ t.commit.st = .open ∧ t.commit.last = last ∧ t.commit.result = none ∧
      t.commit.veto = false ∧ t.commit.lastCause = s.commit.cause ∧ t.commit.stepN = some (s.now + 4000) ∧
      t.commit.clipNorm = s.commit.clipNorm ∧
      t.plots = s.plots ∧ t.links = s.links ∧ t.router = s.router ∧ t.relay = s.relay ∧ t.sec = s.sec ∧ t.boot = s.boot)

/-- VETO and a 1 written to SLC_CVETO set VETO and the cause VETO. PLAN_START answers RSV_ENC for a reserved value, STATE
unless the controller is IDLE and the seal open, and otherwise opens the first step after CSTEP. PLAN_END needs OPEN.
RESOLVE needs PENDING, and its commit a good verdict of its own. TAG_READ answers the tag words. SLUICE_CONFIG writes
the registers of the stacks named, with the seal open. (R190, R205, R206, R210, R217, R218, R219, R396, R424) -/
def Obligations.CommitCommands : Prop :=
  ∀ (s : State), s.clocked = true →
    (∀ v : BitVec 32, s.host.d3hot = false →
      (v.getLsbD 0 = true → exec (.slcCvetoWrite v) s = .next (setVeto s)) ∧
      (v.getLsbD 0 = false → exec (.slcCvetoWrite v) s = .next s)) ∧
    (∀ t, t = setVeto s → t.commit.veto = true ∧ t = { s with commit := t.commit } ∧
      (s.decided = false → t.commit = { s.commit with veto := true, cause := s.commit.cause ||| 0x100 }) ∧
      (s.decided = true → t.commit = { s.commit with veto := true, nextCause := s.commit.nextCause ||| 0x100 })) ∧
    (∀ w d, s.carries w 0x54 [] = some d → exec (.veto w) s = .next (answer w d stOk [] (setVeto s))) ∧
    (∀ w (mode pol step d : BitVec 32), s.carries w 0x51 [mode.toNat, pol.toNat, step.toNat] = some d →
      ((1 < mode.toNat ∨ 1 < pol.toNat ∨ 2 ^ 31 ≤ step.toNat) →
        exec (.planStart w mode pol step) s = .next (answer w d stRsvEnc [] s)) ∧
      (mode.toNat ≤ 1 → pol.toNat ≤ 1 → step.toNat < 2 ^ 31 →
        ((s.commit.st ≠ .idle ∨ s.cfgSeal.st ≠ .open) →
          exec (.planStart w mode pol step) s = .next (answer w d stState [] s)) ∧
        (s.commit.st = .idle → s.cfgSeal.st = .open → ∃ t, exec (.planStart w mode pol step) s = .next (answer w d stOk [] t) ∧
          t.commit.st = .open ∧ t.commit.mode = mode.getLsbD 0 ∧ t.commit.stalePolicy = pol.getLsbD 0 ∧
          t.commit.step = step.setWidth 31 ∧ (∀ k, k < 24 → (t.sluice k).evalBusy = true) ∧
          State.sameButEvents { s with stks := t.stks, commit := t.commit } t))) ∧
    (∀ w d, s.carries w 0x53 [] = some d →
      (s.commit.st = .open → exec (.planEnd w) s =
        .next (answer w d stOk [] { s with commit := { s.commit with st := .idle } })) ∧
      (s.commit.st ≠ .open → exec (.planEnd w) s = .next (answer w d stState [] s))) ∧
    (∀ w d, s.carries w 0x52 [0] = some d →
      (s.commit.st ≠ .pending → exec (.resolveCommit w) s = .next (answer w d stState [] s)) ∧
      (s.commit.st = .pending → s.commit.ownBad = true → exec (.resolveCommit w) s = .next (answer w d stVerdictBad [] s)) ∧
      (s.commit.st = .pending → s.commit.ownBad = false →
        exec (.resolveCommit w) s = .next (answer w d stOk [] (caused s.host.jhead d (doCommit 3 none s))))) ∧
    (∀ w d, s.carries w 0x52 [1] = some d →
      (s.commit.st ≠ .pending → exec (.resolveRollback w) s = .next (answer w d stState [] s)) ∧
      (s.commit.st = .pending → exec (.resolveRollback w) s = .next (answer w d stOk [] (caused s.host.jhead d (doRollback 3 none s))))) ∧
    (∀ w (k seg d : BitVec 32), s.carries w 0x55 [k.toNat, seg.toNat] = some d →
      ((24 ≤ k.toNat ∨ 262144 ≤ seg.toNat) → exec (.tagRead w k seg) s = .next (answer w d stRange [] s)) ∧
      (k.toNat < 24 → seg.toNat < 262144 → exec (.tagRead w k seg) s = .next (answer w d stOk
        (leBytes 8 (s.tagWords k.toNat seg.toNat).1 ++ leBytes 4 (s.tagWords k.toNat seg.toNat).2) s))) ∧
    (∀ w c d, s.carries w 0x50 [c.stks.toNat, c.smapBase.toNat, c.smapCount.toNat, c.grpBase.toNat, c.factBase.toNat,
        c.factCount.toNat, c.ledger.toNat, c.holdWait.toNat] = some d →
      c.stks.toNat < 2 ^ 24 → c.smapCount.toNat ≤ 262144 → c.factCount.toNat ≤ 1023 → c.smapBase.toNat < 2 ^ 48 →
      c.grpBase.toNat < 2 ^ 48 → c.factBase.toNat < 2 ^ 48 → c.smapBase.toNat % 64 = 0 → c.grpBase.toNat % 64 = 0 →
      c.factBase.toNat % 64 = 0 → c.ledger.toNat % 64 = 0 →
      (s.cfgSeal.st ≠ .open → exec (.sluiceConfig w c) s = .next (answer w d stState [] s)) ∧
      (s.cfgSeal.st = .open → ∃ t, exec (.sluiceConfig w c) s = .next (answer w d stOk [] t) ∧
        (∀ k, k < 24 → (t.sluice k).cfg = if c.stks.getLsbD k then
          { smapCount := c.smapCount.setWidth 19, factCount := c.factCount.setWidth 10, smapBase := c.smapBase.setWidth 48,
            grpBase := c.grpBase.setWidth 48, factBase := c.factBase.setWidth 48, ledgerBase := c.ledger.setWidth 48,
            ledgerDepth := (c.ledger >>> 48).setWidth 16, holdWait := c.holdWait } else (s.sluice k).cfg) ∧
        State.sameButEvents { s with stks := t.stks } t))

/-- A reserved encoding, an index or a period out of range, an entry of the other window or a kind or set that is not the
window's own, and an entry dispatched are each turned away with their STATUS and change nothing but the window.
Otherwise the entry is stored with the window as its owner, cancelled, read as 32 bytes, or the Plot set is written.
Every other entry and set stays. (R231, R232, R233, R234, R236, R240, R396) -/
def Obligations.StarterOrders : Prop :=
  ∀ (s : State) (w : Win), s.clocked = true →
    (∀ (index : BitVec 32) (entry : BitVec 256) d v e, s.carries w 0x30 [index.toNat, entry.toNat] = some d →
      v = parseEv entry.toNat (winJcw w) → e = index.toNat →
      (evReserved entry.toNat v = true → exec (.starterWrite w index entry) s = .next (answer w d stRsvEnc [] s)) ∧
      (evReserved entry.toNat v = false →
        (255 < e ∨ (v.period = 0 ∧ v.rept ≠ 0) ∨ (v.period ≠ 0 ∧ v.rept = 0) ∨ (v.period ≠ 0 ∧ v.period.toNat < 1000)) →
        exec (.starterWrite w index entry) s = .next (answer w d stRange [] s)) ∧
      (evReserved entry.toNat v = false → e ≤ 255 → ((v.period = 0 ∧ v.rept = 0) ∨ (1000 ≤ v.period.toNat ∧ v.rept ≠ 0)) →
        ((s.evForeign e (winJcw w) = true ∨ evDenied (winJcw w) v = true) →
          exec (.starterWrite w index entry) s = .next (answer w d stOwner [] s)) ∧
        (s.evForeign e (winJcw w) = false → evDenied (winJcw w) v = false →
          ((s.ev e).held ≠ none → exec (.starterWrite w index entry) s = .next (answer w d stDispatched [] s)) ∧
          ((s.ev e).held = none → ∃ t, exec (.starterWrite w index entry) s = .next (answer w d stOk [] t) ∧
            t.ev e = v ∧ (∀ k, k ≠ e → t.ev k = s.ev k) ∧
            t = { s with starter := { s.starter with evs := t.starter.evs } })))) ∧
    (∀ (index : BitVec 32) d e, s.carries w 0x31 [index.toNat] = some d → e = index.toNat →
      (255 < e → exec (.starterCancel w index) s = .next (answer w d stRange [] s)) ∧
      (e ≤ 255 → s.evForeign e (winJcw w) = true → exec (.starterCancel w index) s = .next (answer w d stOwner [] s)) ∧
      (e ≤ 255 → s.evForeign e (winJcw w) = false →
        ((s.ev e).held ≠ none → exec (.starterCancel w index) s = .next (answer w d stDispatched [] s)) ∧
        ((s.ev e).held = none → (s.ev e).valid = false →
          exec (.starterCancel w index) s = .next (answer w d stOk (pack [(4, (s.ev e).status.toNat)]) s)) ∧
        ((s.ev e).held = none → (s.ev e).valid = true → exec (.starterCancel w index) s =
          .next (answer w d stOk (pack [(4, (s.ev e).status.toNat)])
            (s.setEv e { s.ev e with status := 6, valid := false }))))) ∧
    (∀ (index : BitVec 32) d, s.carries w 0x33 [index.toNat] = some d →
      (255 < index.toNat → exec (.starterRead w index) s = .next (answer w d stRange [] s)) ∧
      (index.toNat ≤ 255 → exec (.starterRead w index) s =
        .next (answer w d stOk (pack [(32, (s.ev index.toNat).word)]) s))) ∧
    (∀ (set : BitVec 32) (plots : BitVec 256) d, s.carries w 0x32 [set.toNat, plots.toNat] = some d →
      (15 < set.toNat → exec (.psetWrite w set plots) s = .next (answer w d stRange [] s)) ∧
      (set.toNat ≤ 15 → (w = .pcw ∧ 8 ≤ set.toNat ∨ w = .jcw ∧ set.toNat < 8) →
        exec (.psetWrite w set plots) s = .next (answer w d stOwner [] s)) ∧
      (set.toNat ≤ 15 → (w = .pcw ∧ set.toNat < 8 ∨ w = .jcw ∧ 8 ≤ set.toNat) →
        ∃ t, exec (.psetWrite w set plots) s = .next (answer w d stOk [] t) ∧
          t.starter.psets.get set.toNat 0 = plots ∧
          (∀ k, k ≠ set.toNat → t.starter.psets.get k 0 = s.starter.psets.get k 0) ∧
          t = { s with starter := { s.starter with psets := t.starter.psets } }))

/-- A valid entry not held is dispatched 400 ns before its TIME when no lower entry is due: it becomes DISPATCHED and
keeps the mapped Plots of its set as read then; with REQ_LOCK and no lock it is REF_NOLOCK, marked LATE where a jump
of Stride Time had passed its TIME. An entry that ends without repeats keeps its STATUS and LATE and is no longer
valid; one that repeats becomes ready again with a TIME past now and one repeat less, except at 65,535. Superseded,
late and refused ends are counted, set their flags and post a STARTER record. No other entry changes. (R231, R235,
R236, R239) -/
def Obligations.StarterDispatches : Prop :=
  (∀ (s u : State) (e : Nat) (v : Ev), s.clocked = true → e ≤ 255 → v = s.ev e →
    ((v.valid = false ∨ v.held ≠ none) → exec (.starterDispatch e) s = .next s) ∧
    (v.valid = true → v.held = none → u = s.advanceTo (v.time.toNat - 400) →
      (∀ o k, o < e → s.starter.evs.get? o = some k → k.valid = true → k.held = none →
        u.now.toNat < k.time.toNat - 400) →
      (∀ c ∈ s.starter.evs, s.starter.evs.get? c.1 = some c.2) →
      (v.reqLock = true → s.clock.lock ≠ .locked →
        exec (.starterDispatch e) s = .next (starterEnd e 5 v.late u)) ∧
      ((v.reqLock = false ∨ s.clock.lock = .locked) → exec (.starterDispatch e) s =
        .next (u.setEv e { v with status := 1, held := some (s.psetPhys (s.starter.psets.get v.pset.toNat 0)) })))) ∧
  (∀ (s t : State) (e code : Nat) (late : Bool) (v : Ev), t = starterEnd e code late s → v = s.ev e →
    (v.rept = 0 → t.ev e = { v with held := none, status := BitVec.ofNat 8 code, late := late, valid := false }) ∧
    (v.rept ≠ 0 → v.period ≠ 0 → s.now.toNat + v.period.toNat < 2 ^ 64 → (t.ev e).held = none ∧ (t.ev e).status = 0 ∧
      (t.ev e).rept = (if v.rept = 0xFFFF then v.rept else v.rept - 1) ∧
      (v.time.toNat ≤ s.now.toNat → s.now.toNat < (t.ev e).time.toNat ∧
        (t.ev e).time.toNat ≤ s.now.toNat + v.period.toNat ∧
        ((t.ev e).time.toNat - v.time.toNat) % v.period.toNat = 0) ∧ (t.ev e).valid = v.valid) ∧
    (∀ k, k ≠ e → t.ev k = s.ev k) ∧ t.starter.psets = s.starter.psets ∧
    (t.starter.sLate = (s.starter.sLate || late)) ∧ (t.starter.sSup = (s.starter.sSup || decide (code = 4))) ∧
    (v.rept = 0 → late = false → t.starter.cntLate = s.starter.cntLate) ∧
    (code = 4 → t.starter.cntSup = satAdd s.starter.cntSup 1) ∧ (code ≠ 4 → t.starter.cntSup.toNat = s.starter.cntSup.toNat) ∧
    ((code = 3 ∨ code = 5 ∨ code = 7) → t.starter.cntRef = satAdd s.starter.cntRef 1 ∧ t.starter.sRef = true) ∧
    ((late = true ∨ code = 3 ∨ code = 4 ∨ code = 5 ∨ code = 7) → s.posted t 0x30 0 e
      [w32 code, w32 (b2n late), lo32 v.time, hi32 v.time]) ∧
    (late = false → code ≠ 3 → code ≠ 4 → code ≠ 5 → code ≠ 7 → t.host = s.host) ∧
    t = { s with starter := t.starter, host := { s.host with recs := t.host.recs, jhead := t.host.jhead } })

/-- On the mapped Plots that the event holds since dispatch, RUN_START starts each whose Pacer accepts it, at ARG_A or at
its own start entry; RUN_STOP stops each, and RUN_PAUSE pauses those that run, RUN_RESUME resumes those that are
paused or halted by a NaN, and no start or resume is accepted while the Plots are off. A Plot for which a higher order
won is left alone; one that a trap or a refusal of the same cycle halts keeps that halt. In RETAIN the event is
refused with NO_CLOCK. (R91, R233, R235, R236, R237, R242) -/
def Obligations.PlotRunEvents : Prop :=
  ∀ (s u : State) (e : Nat) (v : Ev) (set : List (Nat × Nat)) (rivals : List (Nat × Order)) (lost trapped : BitVec 256)
      (ecc : List (Nat × EccHit)), lost = u.lostAt (.starter e) rivals → set.Pairwise (fun a b => a.1 < b.1) → (set.map (·.2)).Nodup →
    (s.atEvent e 1 v set u → ∃ t code, exec (.runStart e rivals) s = .next (starterEnd e code (s.isLate v) t) ∧
      u.ordered t set lost (fun _ x => !s.plotsOff && x.pacer.canStart)
        (fun _ x => x.start (if v.argB.getLsbD 0 then x.pacer.startEntry else v.argA)) ∧
      u.orderCode set lost (fun _ x => !s.plotsOff && x.pacer.canStart) code) ∧
    (s.atEvent e 2 v set u → ∃ t code, exec (.runStop e rivals trapped ecc) s = .next (starterEnd e code (s.isLate v) t) ∧
      u.orderCode set lost (fun _ _ => true) code ∧
      (∀ l p, (l, p) ∈ set → (t.plot p).pacer =
        if lost.getLsbD l = true ∨ haltStands trapped l (u.plot p) = true then (u.plot p).pacer else (u.plot p).pacer.stop) ∧
      (∀ p, (∀ l, (l, p) ∉ set) → t.plot p = u.plot p) ∧
      State.sameButEvents { u with plots := t.plots } t) ∧
    (s.atEvent e 3 v set u → ∃ t code, exec (.runPause e rivals trapped) s = .next (starterEnd e code (s.isLate v) t) ∧
      u.ordered t set lost (fun l x => haltStands trapped l x || x.pacer.st == .running)
        (fun l x => if haltStands trapped l x then x else x.onPacer (fun q => { q with st := .draining, drainTo := .toPaused })) ∧
      u.orderCode set lost (fun l x => haltStands trapped l x || x.pacer.st == .running) code) ∧
    (s.atEvent e 4 v set u → ∃ t code, exec (.runResume e rivals) s = .next (starterEnd e code (s.isLate v) t) ∧
      u.ordered t set lost (fun _ x => !s.plotsOff && (x.pacer.st == .paused || x.pacer.st == .numericHalt))
        (fun _ x => x.onPacer (fun q => { q with st := .running, checked := false })) ∧
      u.orderCode set lost (fun _ x => !s.plotsOff && (x.pacer.st == .paused || x.pacer.st == .numericHalt)) code) ∧
    (s.clocked = true → (s.ev e).held = some set → s.power.st = .retain → (s.ev e).kind.toNat = 1 →
      exec (.runStart e rivals) s =
        .next (starterEnd e 7 (s.isLate (s.ev e)) (s.advanceTo (s.ev e).time.toNat)))

/-- POWER_STATE is refused during a FULL clear or a lifecycle burn, waits for the Power role, and otherwise makes its
request: refused, where another change is in progress or the target's condition does not hold, with REFUSED set, and
DONE otherwise. POWER_CAP sets the Starter's cap to ARG_A and CLOCK_CEIL its ceiling of the islands of ARG_B, and no
other source's. TELEMETRY latches a snapshot unless 16 wait. All of these run in RETAIN too; a superseded event ends
with code 4. (R233, R237, R241, R242, R437, R466, R468) -/
def Obligations.PowerEvents : Prop :=
  ∀ (s u : State) (e : Nat) (v : Ev) (set : List (Nat × Nat)), s.clocked = true → s.ev e = v → v.held = some set →
    u = s.advanceTo v.time.toNat →
    (v.kind = 0x09 → ∀ rivals,
      (s.roleUp 2 = false → exec (.starterPowerState e rivals) s = .next s) ∧
      (s.roleUp 2 = true → u.loses (.starter e) rivals = true → exec (.starterPowerState e rivals) s = .next (starterEnd e 4 (s.isLate v) u)) ∧
      (s.roleUp 2 = true → u.loses (.starter e) rivals = false →
        ((s.sec.clearing = true ∨ (∃ l ∈ s.host.longs, l.op = 0xA3)) → exec (.starterPowerState e rivals) s =
          .next (starterEnd e 3 (s.isLate v) { u with power := { u.power with refused := true } })) ∧
        (s.sec.clearing = false → (∀ l ∈ s.host.longs, l.op ≠ 0xA3) → ∀ g, g = pwrOf v.argA.toNat →
          ((s.power.busy = true ∨ u.pwrOk g = false) → exec (.starterPowerState e rivals) s =
            .next (starterEnd e 3 (s.isLate v) { u with power := { u.power with refused := true } })) ∧
          (s.power.busy = false → u.pwrOk g = true → s.power.st = g → exec (.starterPowerState e rivals) s =
            .next (starterEnd e 2 (s.isLate v) u)) ∧
          (s.power.busy = false → u.pwrOk g = true → s.power.st ≠ g → exec (.starterPowerState e rivals) s =
            .next (starterEnd e 2 (s.isLate v)
              { u with power := { u.power with busy := true, target := g, reqAt := u.now } }))))) ∧
    (v.kind = 0x0A → exec (.starterPowerCap e) s = .next (starterEnd e 2 (s.isLate v)
      { u with power := { u.power with capStr := v.argA.setWidth 16 } })) ∧
    (v.kind = 0x0B → ∃ t, exec (.starterClockCeil e) s = .next (starterEnd e 2 (s.isLate v) t) ∧
      (∀ i, i < s.power.islands.length → t.power.islands.getD i {} = if v.argB.getLsbD i then
        { s.power.islands.getD i {} with ceilStr := v.argA.toNat } else s.power.islands.getD i {}) ∧
      t.power.islands.length = s.power.islands.length ∧
      t = { u with power := { u.power with islands := t.power.islands } }) ∧
    (v.kind = 0x0F →
      (16 ≤ s.power.snaps.length → exec (.starterTelemetry e) s = .next (starterEnd e 3 (s.isLate v) u)) ∧
      (s.power.snaps.length < 16 → exec (.starterTelemetry e) s = .next (starterEnd e 2 (s.isLate v)
        { u with power := { u.power with snaps := s.power.snaps ++ [(v.time, u.snapshot v.argA.toNat)] } })))

/-- A change of the reference puts only a LOCKED master without one into HOLDOVER. Each edge captures Stride Time and
counts. On the master an armed load sets Stride Time to STR_LOAD when that is not behind it, to the 2^-32 ns, and is
refused otherwise; the clock then is at least in ACQUIRE, and the Starter's entries that the load passes are marked
LATE. Without a load the offset is that to the nearest multiple of the period, Stride Time does not jump, and RATE is
the correction with a slew of at most 100 ppm against the offset. A follower that loses its parent holds over, on the
alternate parent if it was not on it yet. (R221, R224, R227, R228, R244, R416) -/
def Obligations.TimeReference : Prop :=
  ∀ (s : State) (c : Clock), s.clocked = true → c = s.clock →
    (∀ ok, exec (.paceRefChange ok) s = .next { s with clock := { c with
      refOk := ok
      lock := if ok = false ∧ c.refOk = true ∧ c.role = 1 ∧ c.lock = .locked then .holdover else c.lock } }) ∧
    (s.host.d3hot = false → exec .loadArm s = .next { s with clock := { c with loadArm := true } }) ∧
    (∀ c1 : Clock, c1 = { c with syncCap := c.ns, syncSeen := true, syncEdges := c.syncEdges + 1 } →
      (c.role ≠ 1 → exec .paceSyncEdge s = .next { s with clock := c1 }) ∧
      (c.role = 1 → c.loadArm = true → c.load.toNat * 2 ^ 32 < c.fine → exec .paceSyncEdge s =
        .next { s with clock := { c1 with loadArm := false, loadRefused := true } }) ∧
      (c.role = 1 → c.loadArm = true → c.fine ≤ c.load.toNat * 2 ^ 32 → ∃ t, exec .paceSyncEdge s = .next t ∧
        t.clock = { c1 with ns := c.load, frac := 0, loadArm := false,
                            lock := if c.lock = .freerun then .acquire else c.lock } ∧
        t.boot = { s.boot with marshals := s.boot.marshals.map (fun m => { m with wdog := m.wdog + (c.load - c.ns) }) } ∧
        t.starter = { s.starter with evs := s.starter.evs.mapVals (fun _ v =>
          if v.valid = true ∧ c.ns.toNat ≤ v.time.toNat ∧ v.time.toNat < c.load.toNat then { v with late := true } else v) } ∧
        t = { s with clock := t.clock, boot := t.boot, starter := t.starter }) ∧
      (c.role = 1 → c.loadArm = false → (c.syncPeriod = 0 ∨ c.lock = .freerun) →
        exec .paceSyncEdge s = .next { s with clock := c1 }) ∧
      (c.role = 1 → c.loadArm = false → c.syncPeriod ≠ 0 → c.lock ≠ .freerun → ∃ t, ∃ e : Int,
        exec .paceSyncEdge s = .next t ∧
        (c.ns.toNat - c.load.toNat - e) % (c.syncPeriod.toNat * 1000000 : Nat) = 0 ∧
        2 * e.natAbs ≤ c.syncPeriod.toNat * 1000000 ∧ t.clock.offset = BitVec.ofInt 32 (e * 256) ∧
        t.clock.ns = c.ns ∧ t.clock.frac = c.frac ∧ (1000 < e → t.clock.rate = rateSlewBack) ∧
        (e ≤ 1000 → ∃ k q : Int, t.clock.corr = BitVec.ofInt 32 k ∧ t.clock.rate = BitVec.ofInt 32 (k + q) ∧
          q.natAbs ≤ 109951162 ∧ (0 < e → q < 0) ∧ (e < 0 → 0 < q) ∧ (e = 0 → q = 0)) ∧
        (c.lock = .acquire → (t.clock.lock = .locked ↔ e.natAbs ≤ 10 ∧ 15 ≤ c.good)) ∧
        (c.lock = .locked → (t.clock.lock = .acquire ↔ 1000 < e.natAbs)) ∧
        t = { s with clock := t.clock, free := t.free })) ∧
    (c.syncSeen = false → exec .syncSeenLapse s = .next s) ∧
    (∀ u, c.syncSeen = true → u = s.advanceTo (c.syncCap.toNat + 2 * c.syncPeriod.toNat * 1000000) →
      exec .syncSeenLapse s = .next { u with clock := { u.clock with syncSeen := false } }) ∧
    ((c.role ≠ 0 ∨ c.lock ≠ .locked) → exec .parentLossTimeout s = .next s) ∧
    (∀ u, c.role = 0 → c.lock = .locked → u = s.advanceTo (c.lastAns.toNat + 1000000) →
      (c.onAlt = true → exec .parentLossTimeout s = .next { u with clock := { u.clock with lock := .holdover } }) ∧
      (c.onAlt = false → exec .parentLossTimeout s =
        .next { u with clock := { u.clock with lock := .holdover, onAlt := true, parentLost := true } }))

/-- A follower asks on the links to its parent that are UP, 50 µs after its last request; others do not ask. A parent that
is LOCKED or in HOLDOVER answers a request that was not replayed, where its link has room, with the time at which its
answer before was sent and its present one. A follower ignores answers on other links; one from another master or
generation, or without a lock, only sets FOREIGN; one of a replayed exchange, of one whose lane changed, or with no
answer before it gives no offset. From a good one it takes the path delay and the offset, slews back when it is more
than 1 µs ahead, and steps forward when it is more than 1 µs behind. (R225, R226, R227, R228, R253, R278) -/
def Obligations.TimeExchange : Prop :=
  ∀ (s : State) (c : Clock), s.clocked = true → c = s.clock →
    ((c.role ≠ 0 ∨ (∀ l ∈ s.askLinks, (s.link l).st ≠ .up)) → exec .timingRequestTimer s = .next s) ∧
    (∀ u l0, c.role = 0 → l0 ∈ s.askLinks → (s.link l0).st = .up →
      u = (match c.reqSent with | some t0 => s.advanceTo (t0.toNat + 50000) | none => s) →
      ∃ t, exec .timingRequestTimer s = .next t ∧ t.clock = { u.clock with reqSent := some u.now } ∧
        (∀ l ∈ s.askLinks, (s.link l).st = .up → (s.link l).localQ.length < 8 →
          s.localPacket l timingRequest ∈ (t.link l).localQ ∧
          (s.link l).localQ <+: (t.link l).localQ) ∧
        (∀ l, l ∉ s.askLinks ∨ (s.link l).st ≠ .up → t.link l = s.link l) ∧
        t = { u with clock := t.clock, links := t.links }) ∧
    (∀ l m, (s.link l).st ≠ .up → exec (.timing l m) s = .next s) ∧
    (∀ l z, (s.link l).st = .up → z = s.setLink l { s.link l with timingIn := some s.now } →
      (exec (.timing l (.request true)) s = .next z) ∧
      ((c.lock = .freerun ∨ c.lock = .acquire) → exec (.timing l (.request false)) s = .next z) ∧
      ((c.lock = .locked ∨ c.lock = .holdover) → (s.link l).localQ.length < 8 → exec (.timing l (.request false)) s =
        .next (z.setLink l { z.link l with localQ := (s.link l).localQ ++ [s.localPacket l (c.timingAnswer ((s.link l).ansTx.getD c.fine))] })) ∧
      (∀ t1 t4 master gen lock replayed y, y = s.setLink l { s.link l with
          timingIn := some s.now, laneChg := false, ansRx := if replayed then none else some c.fine } →
        ((c.role ≠ 0 ∨ l ∉ s.askLinks) → exec (.timing l (.answer t1 t4 master gen lock replayed)) s = .next y) ∧
        (c.role = 0 → l ∈ s.askLinks → (master ≠ c.masterDev ∨ gen ≠ c.masterGen ∨ lock.toNat < 2) →
          exec (.timing l (.answer t1 t4 master gen lock replayed)) s =
            .next { y with clock := { c with foreign := true } }) ∧
        (c.role = 0 → l ∈ s.askLinks → master = c.masterDev → gen = c.masterGen → 2 ≤ lock.toNat →
          (replayed = true ∨ (s.link l).laneChg = true ∨ (s.link l).ansRx = none ∨ (s.link l).reqTx = none) →
          exec (.timing l (.answer t1 t4 master gen lock replayed)) s = .next y) ∧
        (∀ (t2 t3 : Nat) (d2 off2 : Int), c.role = 0 → l ∈ s.askLinks → master = c.masterDev → gen = c.masterGen →
          2 ≤ lock.toNat → replayed = false → (s.link l).laneChg = false → (s.link l).ansRx = some t2 →
          (s.link l).reqTx = some t3 → d2 = ((t4 : Int) - t1) - ((t3 : Int) - t2) →
          off2 = 2 * ((t2 : Int) - t1) - d2 - signed 32 (c.asym.get (s.linkRole l) 0).toNat * 2 ^ 25 →
          ∃ t, exec (.timing l (.answer t1 t4 master gen lock replayed)) s = .next t ∧
            t.clock.pathDly = BitVec.ofInt 32 (d2 / 2 ^ 25) ∧ t.clock.offset = BitVec.ofInt 32 (off2 / 2 ^ 25) ∧
            t.clock.lastAns = t.clock.ns ∧
            (2000 * 2 ^ 32 < off2 → t.clock.rate = rateSlewBack ∧ t.clock.fine = c.fine) ∧
            (off2 < -(2000 * 2 ^ 32) → t.clock.stepped = true ∧ t.clock.fine = (c.fine + off2.natAbs / 2) % 2 ^ 96 ∧
              t.clock.rate = c.rate ∧ t.starter.evs = s.starter.evs.mapVals (fun _ v =>
                if v.valid = true ∧ c.ns.toNat ≤ v.time.toNat ∧ v.time.toNat < t.clock.ns.toNat then { v with late := true }
                else v)) ∧
            (-(2000 * 2 ^ 32) ≤ off2 → t.starter = s.starter) ∧
            (off2.natAbs ≤ 2000 * 2 ^ 32 → t.clock.fine = c.fine ∧ ∃ k q : Int, t.clock.corr = BitVec.ofInt 32 k ∧
              t.clock.rate = BitVec.ofInt 32 (k + q) ∧ q.natAbs ≤ 109951162 ∧ (0 < off2 → q < 0) ∧ (off2 < 0 → 0 < q) ∧
              (off2 = 0 → q = 0)) ∧
            (c.lock = .acquire → (t.clock.lock = .locked ↔ off2.natAbs ≤ 20 * 2 ^ 32 ∧ 15 ≤ c.good)) ∧
            (c.lock = .locked → (t.clock.lock = .acquire ↔ 2000 * 2 ^ 32 < off2.natAbs)) ∧
            t = { s with links := y.links, clock := t.clock, free := t.free, boot := t.boot,
                         starter := { s.starter with evs := t.starter.evs } })))

/-- POWER_CAP and CLOCK_CEIL set the PCW's cap and ceilings, and a value with no place in its register is RSV_ENC.
TELEMETRY answers the power, the cap in force, the hottest sensor and the grants. POWER_STATE answers RSV_ENC,
SUPERSEDED, STATE or OK, or is accepted and starts the change. When the state is reached it is in force and posts
POWER_STATE; on the way into RETAIN every stack goes to self-refresh, on the way to RUN and TRIM every HBM channel is
awake, and on the way out of RETAIN the Plots' memories are zero and debug is at OFF. (R241, R394, R395, R396, R437,
R465, R466, R468) -/
def Obligations.PowerCommands : Prop :=
  ∀ (s : State) (w : Win), s.clocked = true →
    (∀ (watts d : BitVec 32), s.carries w 0x70 [watts.toNat] = some d →
      (65535 < watts.toNat → exec (.powerCap w watts) s = .next (answer w d stRsvEnc [] s)) ∧
      (watts.toNat ≤ 65535 → exec (.powerCap w watts) s =
        .next (answer w d stOk [] { s with power := { s.power with capPcw := watts.truncate 16 } }))) ∧
    (∀ (islands mhz d : BitVec 32), s.carries w 0x71 [islands.toNat, mhz.toNat] = some d →
      (65535 < islands.toNat → exec (.clockCeil w islands mhz) s = .next (answer w d stRsvEnc [] s)) ∧
      (islands.toNat ≤ 65535 → ∃ t, exec (.clockCeil w islands mhz) s = .next (answer w d stOk [] t) ∧
        t.power.islands.length = s.power.islands.length ∧
        (∀ i, i < s.power.islands.length → t.power.islands.getD i {} = if islands.getLsbD i then
          { s.power.islands.getD i {} with ceilPcw := mhz.toNat } else s.power.islands.getD i {}) ∧
        t = { s with power := { s.power with islands := t.power.islands } })) ∧
    (∀ d, s.carries w 0x73 [] = some d → exec (.telemetry w) s = .next (answer w d stOk
      (leBytes 4 s.power.p1us.toNat ++ leBytes 4 s.power.capEff ++ leBytes 4 s.power.hottest ++
        (List.range 16).flatMap (fun i => leBytes 2 (s.power.islands.getD i {}).grant)) s)) ∧
    (∀ (st : BitVec 32) rivals, (s.sec.clearing = true ∨ ∃ l ∈ s.host.longs, l.op = 0xA3) →
      exec (.powerState w st rivals) s = .next s) ∧
    (∀ (st d : BitVec 32) rivals, s.sec.clearing = false → (∀ l ∈ s.host.longs, l.op ≠ 0xA3) →
      s.carries w 0x72 [st.toNat] = some d →
      (3 < st.toNat → exec (.powerState w st rivals) s = .next (answer w d stRsvEnc [] s)) ∧
      (st.toNat ≤ 3 → s.loses (winOrder w) rivals = true → exec (.powerState w st rivals) s = .next (answer w d stSuperseded [] s)) ∧
      (∀ g, st.toNat ≤ 3 → s.loses (winOrder w) rivals = false → g = pwrOf st.toNat →
        ((s.power.busy = true ∨ s.pwrOk g = false) → exec (.powerState w st rivals) s =
          .next (answer w d stState [] { s with power := { s.power with refused := true } })) ∧
        (s.power.busy = false → s.pwrOk g = true → s.power.st = g →
          exec (.powerState w st rivals) s = .next (answer w d stOk [] s)) ∧
        (s.power.busy = false → s.pwrOk g = true → s.power.st ≠ g → exec (.powerState w st rivals) s =
          .next (answer w d stAccepted [] (startLong w 0x72 d st.toNat
            { s with power := { s.power with busy := true, target := g, reqAt := s.now } }))))) ∧
    ((s.power.busy = false ∨ s.roleUp 2 = false) → exec .powerStateReached s = .next s) ∧
    (∀ u old new, s.power.busy = true → s.roleUp 2 = true → old = s.power.st → new = s.power.target → old ≠ new →
      (new = .retain → ∀ k, k < 24 → (s.stack k).pprs = []) → u = s.advanceTo (s.power.reqAt.toNat + pwrTime old new) →
      ∃ t, exec .powerStateReached s = .next t ∧
        t.power = { s.power with st := new, busy := false, mv := s.pwrMv new } ∧
        (∃ r ∈ t.host.recs.take 2, r.type = 0xC6 ∧
          r.payload = [w32 old.code, w32 new.code, w32 ((u.now.toNat - s.power.reqAt.toNat) / 1000)]) ∧
        (new = .retain → ∀ k, k < 24 → (t.stack k).selfRefresh = true) ∧
        (old = .retain → t.sec.dbg = 0 ∧ (∀ k, k < 24 → (t.stack k).selfRefresh = false) ∧
          ∀ p, p < 272 → (t.plot p).stepMem = [] ∧ (t.plot p).resv = [] ∧ (t.plot p).pacer.st = .stopped) ∧
        (new ≠ .idle → ∀ k, (t.stack k).asleep = []) ∧
        (old ≠ .retain → new ≠ .retain →
          (∀ k, t.stack k = if new = .idle then s.stack k else { s.stack k with asleep := [] }) ∧
          t = { u with power := t.power, host := t.host, stks := t.stks }))

/-- Each run of the power loop takes the power, and moves each grant by at most one step: down over the cap, up under 98%
of it, never over its ceiling and on the grid of 25 MHz from 400; a raise that needs more voltage waits. It ends a
hold. The hold governor does so with 97% and the last grants. The thermal ceiling falls by 50 MHz at 95 °C and rises
by 25 at 92 °C or below. Throttle and droop act on one island, and a throttle posts THERMAL_HW. (R434, R435, R436,
R440, R445, R493) -/
def Obligations.GrantLoops : Prop :=
  ∀ (s : State), s.clocked = true →
    (∀ (p cap pct hi f g : Nat), g = stepGrant p cap pct hi f →
      400 ≤ g ∧ g % 25 = 0 ∧ g ≤ max 400 hi ∧ g ≤ max 400 (f + 25) ∧
      (cap < p → g ≤ max 400 (f - 25)) ∧ (p ≤ cap → pct * cap ≤ p * 100 → g ≤ max 400 f) ∧
      (p * 100 < pct * cap → p ≤ cap → f % 25 = 0 → f + 25 ≤ hi → 400 ≤ f → g = f + 25)) ∧
    (s.roleUp 2 = false → ∀ a b, exec (.powerLoop a b) s = .next s) ∧
    (∀ (a b : BitVec 16) u, s.roleUp 2 = true → u = s.advanceTo ((s.now.toNat / 1000 + 1) * 1000) → s.power.hold = false →
      ∃ t, exec (.powerLoop a b) s = .next t ∧ t.power.p1us = a ∧ t.power.p1ms = b ∧ t.power.lastGrant = u.now ∧
        t.power.capAtGrant = s.power.capBase ∧ t.power.islands.length = s.power.islands.length ∧
        (∀ i, i < s.power.islands.length → ∀ f, f = stepGrant a.toNat s.power.capEff 98 (s.hiGrant i)
            (s.power.islands.getD i {}).grant →
          ((f ≤ (s.power.islands.getD i {}).grant ∨ Config.vfMv f ≤ s.power.mv) → t.power.islands.getD i {} =
            { s.power.islands.getD i {} with grant := f, wanted := 0 }) ∧
          ((s.power.islands.getD i {}).grant < f → s.power.mv < Config.vfMv f → t.power.islands.getD i {} =
            { s.power.islands.getD i {} with wanted := f })) ∧
        t = { u with power := t.power }) ∧
    (∀ (a b : BitVec 16) u, s.roleUp 2 = true → u = s.advanceTo ((s.now.toNat / 1000 + 1) * 1000) → s.power.hold = true →
      ∃ t, exec (.powerLoop a b) s = .next t ∧ t.power.hold = false ∧ t.power.capHold = 0 ∧
        (∃ ns, s.posted t 0x75 0 0 [0, w32 s.power.capHold.toNat, w32 ns, w32 (ns / 2 ^ 32)] ∧
          ns = u.now.toNat - s.power.holdSince.toNat)) ∧
    (s.power.hold = false → ∀ a b, exec (.holdGovernorLoop a b) s = .next s) ∧
    (∀ (a b : BitVec 16) u, s.power.hold = true → u = s.advanceTo ((s.now.toNat / 1000 + 1) * 1000) →
      ∃ t, exec (.holdGovernorLoop a b) s = .next t ∧ t.power.islands.length = s.power.islands.length ∧
        (∀ i, i < s.power.islands.length → t.power.islands.getD i {} = { s.power.islands.getD i {} with
          grant := stepGrant a.toNat s.power.capEff 97 (min (s.ceilEff i) (s.power.islands.getD i {}).fLast)
            (s.power.islands.getD i {}).grant }) ∧
        t = { u with power := { u.power with
          p1us := a, p1ms := b, p1usLive := a, p1msLive := b, islands := t.power.islands } }) ∧
    (∀ temps : List Byte, ((s.roleUp 2 = false ∨ temps.length ≠ 16) → exec (.thermalLoop temps) s = .next s) ∧
      (∀ u, s.roleUp 2 = true → temps.length = 16 → u = s.advanceTo ((s.now.toNat / 1000000 + 1) * 1000000) →
        ∃ t, exec (.thermalLoop temps) s = .next t ∧ t.power.islands.length = s.power.islands.length ∧
          (∀ i d, s.power.islands[i]? = some d → ∀ c, c = temps.getD i 0 → t.power.islands[i]? = some
            { d with temp := c, tempLive := c, therm := if 95 ≤ c.toNat then d.therm - 50
              else if c.toNat ≤ 92 then min s.binMhz (d.therm + 25) else d.therm }) ∧
          t = { u with power := { u.power with islands := t.power.islands } })) ∧
    (∀ i d (temp : BitVec 8), i < 16 → s.power.islands[i]? = some d → ∀ r, r = s.power.islands.set i →
      (100 ≤ temp.toNat → d.hwThrottle = false → ∃ t, exec (.thermalThrottle i temp) s = .next t ∧
        t.power = { s.power with islands := r { d with tempLive := temp, hwThrottle := true }, thermHw := true } ∧
        s.posted t 0x76 0 i [w32 temp.toNat, w32 (t.ceilHw i)] ∧
        State.sameButEvents { s with power := t.power } t) ∧
      (temp.toNat ≤ 97 → d.hwThrottle = true → exec (.thermalThrottle i temp) s =
        .next { s with power := { s.power with islands := r { d with tempLive := temp, hwThrottle := false } } }) ∧
      ((97 < temp.toNat ∧ temp.toNat < 100) → exec (.thermalThrottle i temp) s =
        .next { s with power := { s.power with islands := r { d with tempLive := temp } } }) ∧
      (∀ low, exec (.droop i low) s = .next { s with power := { s.power with
        islands := r { d with droop := low }, droopF := s.power.droopF || low } }))

/-- TELEMETRY posts the oldest snapshot. A reached voltage releases the raised grants it meets; a third failure is
DEVICE_FATAL and caps them. A trip stops the clocks; an undervoltage is DEVICE_FATAL with its rail; the loss of the
reference switches to the other, or without one stops the core clock. PCIe's speed and width are taken within the
strap's limit. D3hot closes the BARs and D0 signals what waited. A slow edge counts and refreshes the copies. (R176,
R380, R402, R406, R418, R419, R437, R465, R475, R479, R493, R503) -/
def Obligations.PowerHardware : Prop :=
  ∀ (s : State), s.clocked = true →
    ((s.power.snaps = [] ∨ s.roleUp 2 = false) → exec .telemetryPost s = .next s) ∧
    (∀ t0 words rest, s.power.snaps = (t0, words) :: rest → s.roleUp 2 = true → ∃ t,
      exec .telemetryPost s = .next t ∧ s.posted t 0x77 0 0 words ∧ t.power = { s.power with snaps := rest } ∧
      (∃ r, t.host.recs.head? = some r ∧ r.time = t0) ∧ State.sameButEvents { s with power := t.power } t) ∧
    (∀ mv, mv < s.power.mv → (∃ d ∈ s.power.islands, mv < Config.vfMv d.grant) →
      exec (.avsVoltageReached true mv) s = .next s) ∧
    (∀ mv, s.power.mv ≤ mv → exec (.avsVoltageReached true mv) s = .next { s with power := { s.power with
      mv := mv, avsFails := 0, islands := s.power.islands.map (fun d =>
        if d.wanted ≠ 0 ∧ Config.vfMv d.wanted ≤ mv then { d with grant := d.wanted, wanted := 0 } else d) } }) ∧
    (∀ mv, s.power.avsFails < 2 → exec (.avsVoltageReached false mv) s =
      .next { s with power := { s.power with avsFails := s.power.avsFails + 1 } }) ∧
    (∀ mv, 2 ≤ s.power.avsFails → ∃ t, exec (.avsVoltageReached false mv) s = .next t ∧ t.ras.fatal = true ∧
      t.power.mv = s.power.mv ∧ t.power.avsFails = 0 ∧
      (∀ d ∈ t.power.islands, d.grant ≤ curveCap s.binMhz s.power.mv ∧ d.wanted = 0) ∧
      (∀ p, (t.plot p).pacer.st ≠ .running) ∧
      ((∀ p, (s.plot p).sparesWait = false) → s.posted t 0x8E 5 0 [t.ras.fatalWord])) ∧
    (∀ k temp, exec (.thermalTrip (some k) temp) s = .next (if k < 24 ∧ 105 ≤ temp.toNat then
      { s with power := { s.power with tripped := true } } else s)) ∧
    (∀ temp, exec (.thermalTrip none temp) s = .next (if 115 ≤ temp.toNat then
      { s with power := { s.power with tripped := true } } else s)) ∧
    (∀ rail : BitVec 8, ∃ t, exec (.railUndervoltage rail) s = .next t ∧ t.ras.fatal = true ∧ t.ras.fatalCause = 5 ∧
      t.ras.fatalIndex = rail ∧ (∀ p, (t.plot p).pacer = (s.plot p).pacer.stop) ∧
      ((∀ p, (s.plot p).sparesWait = false) → s.posted t 0x8E 5 rail.toNat [t.ras.fatalWord]) ∧
      State.sameButEvents { s with plots := t.plots, ras := { s.ras with
        fatal := true, fatalCause := 5, fatalIndex := rail } } t) ∧
    (s.ras.onDup = false → ∃ t, exec (.coreRefLoss true) s = .next t ∧ t.ras.pllAlt = true ∧ t.ras.refLost = true ∧ t.ras.onDup = true ∧
      t.power = s.power ∧ t.plots = s.plots ∧ s.posted t 0x8B 3 0 [1]) ∧
    (∀ other, (other = false ∨ s.ras.onDup = true) → ∃ t, exec (.coreRefLoss other) s = .next t ∧
      t.power = { s.power with clockLost := true } ∧ t.ras.fatal = true ∧ t.ras.fatalCause = 3 ∧ t.clocked = false ∧
      (∀ p, (t.plot p).pacer = (s.plot p).pacer.stop) ∧
      ((∀ p, (s.plot p).sparesWait = false) → s.posted t 0x8B 5 0 [w32 s.refInUse])) ∧
    (∀ (speed : BitVec 3) (width : BitVec 4) flit, speed ≠ 0 → speed.toNat ≤ s.boot.maxSpeed →
      (width = 1 ∨ width = 2 ∨ width = 4 ∨ width = 8) → exec (.pcieLinkChange speed width flit) s =
        .next { s with host := { s.host with speed := speed, width := width, flit := flit } }) ∧
    (∀ width flit, exec (.pcieLinkChange 0 width flit) s =
      .next { s with host := { s.host with speed := 0, width := 0, flit := false } }) ∧
    (exec .d3hotEntry s = .next { s with host := { s.host with d3hot := true } }) ∧
    (∃ t, exec .d0Return s = .next t ∧ t.host.d3hot = false ∧
      (∀ v, v < 64 → (t.host.msixPba.getLsbD v = true ↔
        s.host.msixPba.getLsbD v = true ∧ bitOf (s.host.msixTable.read (16 * v + 12)).toNat 0 = true) ∧
        (s.host.msixPba.getLsbD v = true → bitOf (s.host.msixTable.read (16 * v + 12)).toNat 0 = false →
          v ∈ t.host.msixSent)) ∧ State.sameButEvents { s with host := { s.host with d3hot := false } } t) ∧
    (∃ t, exec .slowClockEdge s = .next t ∧ t.power.slowSeq = s.power.slowSeq + 1 ∧
      t.power.p1us = s.power.p1usLive ∧ t.power.p1ms = s.power.p1msLive ∧
      t.power.islands = (if s.power.st = .retain then s.power.islands
        else s.power.islands.map (fun d => { d with temp := d.tempLive })) ∧
      (∀ k, k < 24 → t.stack k = if (s.stack k).temp = (s.stack k).tempLive then s.stack k else
        { s.stack k with
          temp := (s.stack k).tempLive
          refresh2x := above 85 (s.stack k).tempLive.toNat (s.stack k).refresh2x
          throttle := above 95 (s.stack k).tempLive.toNat (s.stack k).throttle }) ∧
      t = { s with stks := t.stks, power := t.power })

/-- A write of LNK_CFG with the seal open takes its fields; setting ENABLE starts training from DISABLED, and clearing it
disables, at once or when what is in transit is acknowledged or 10 µs have passed. Training goes through its steps in
order; qualification maps the passing lanes in ascending order and the fifth is the spare, and LANES_OK keeps which
passed; too few make the link FAILED. Agreement enters BIB with sequence numbers at 0, sends the Bib and in RETAIN the
one-lane width. After 250 ms in training, a RETRAIN out of BIB included, the link is FAILED. Only this link changes.
(R254, R255, R256, R261, R264, R265, R272) -/
def Obligations.LinkTraining : Prop :=
  ∀ (s : State) (l : Nat) (x : Link), s.clocked = true → x = s.link l →
    (∀ v : BitVec 32, s.host.d3hot = false → (18 ≤ l ∨ s.cfgSeal.st ≠ .open) →
      exec (.lnkCfgEnableWrite l v) s = .next s) ∧
    (∀ v : BitVec 32, s.host.d3hot = false → l < 18 → s.cfgSeal.st = .open →
      ∃ t, exec (.lnkCfgEnableWrite l v) s = .next t ∧ s.onlyLink l t ∧ (t.link l).enable = v.getLsbD 0 ∧
        (t.link l).medium.toNat = (if v.toNat / 2 % 4 = 3 then x.medium.toNat else v.toNat / 2 % 4) ∧
        (t.link l).autoSpare = v.getLsbD 3 ∧
        (t.link l).minWidth.toNat = (if 1 ≤ v.toNat / 16 % 8 ∧ v.toNat / 16 % 8 ≤ 4 then v.toNat / 16 % 8
          else x.minWidth.toNat) ∧
        (t.link l).replayLimit.toNat = (if v.toNat / 128 % 16 = 0 then x.replayLimit.toNat else v.toNat / 128 % 16) ∧
        (t.link l).laneThresh.toNat = (if v.toNat / 2048 % 256 = 0 then x.laneThresh.toNat else v.toNat / 2048 % 256) ∧
        (v.getLsbD 0 = true → x.st = .disabled → (t.link l).st = .training ∧ (t.link l).step = .equalise ∧
          (t.link l).trainStart = s.now) ∧
        (v.getLsbD 0 = false → (x.st = .disabled ∨ (x.st = .training ∧ x.disableAt = none)) →
          (t.link l).st = .disabled) ∧
        (v.getLsbD 0 = false → (x.st.flits = true ∨ x.st = .retrain) → x.disableAt = none →
          ((x.replayBuf ≠ [] ∨ x.sending ≠ none) → (t.link l).disableAt = some s.now ∧ (t.link l).st = x.st) ∧
          (x.replayBuf = [] → x.sending = none → (t.link l).st = .disabled))) ∧
    (x.disableAt = none → exec (.linkDisableTimeout l) s = .next s) ∧
    (∀ t0 u, x.disableAt = some t0 → u = s.advanceTo (t0.toNat + 10000) →
      ∃ t, exec (.linkDisableTimeout l) s = .next t ∧ u.onlyLink l t ∧ (t.link l).replayBuf = [] ∧
        (t.link l).disableAt = none ∧ (t.link l).st = (if x.enable then .training else .disabled) ∧
        ((x.st = .up ∨ x.st = .retrain ∧ x.prev = .up) → ∀ n, n = (x.replayBuf.map (fun f => f.ends.length)).sum + (if x.sending.isSome then 1 else 0) →
          s.posted t 0x44 (if n = 0 then 2 else 4) l [0, w32 n] ∧ (∃ r, t.host.recs.head? = some r ∧ r.dseq = x.cmd) ∧
          (t.link l).sending = none ∧
          (t.link l).general = [] ∧ (t.link l).bounce = [])) ∧
    (exec (.laneEqualisationDone l) s = .next (if x.st = .training ∧ x.step = .equalise then
      s.setLink l { x with step := .deskew } else s)) ∧
    (exec (.laneDeskewDone l) s = .next (if x.st = .training ∧ x.step = .deskew then
      s.setLink l { x with step := .qualify } else s)) ∧
    (∀ lock errs tx, (x.st ≠ .training ∨ x.step ≠ .qualify) → exec (.laneQualifyWindowEnd l lock errs tx) s = .next s) ∧
    (∀ (lock : BitVec 5) (errs : List (BitVec 32)) (tx : BitVec 5) a b, x.st = .training → x.step = .qualify →
      a = (List.range 5).filter tx.getLsbD →
      b = (List.range 5).filter (fun p => lock.getLsbD p && decide ((errs.getD p 0).toNat ≤ x.laneThresh.toNat * 1024)) →
      ∃ t, exec (.laneQualifyWindowEnd l lock errs tx) s = .next t ∧ t = s.setLink l (t.link l) ∧
        (t.link l).tx = qualified a ∧ (t.link l).rx = qualified b ∧ (t.link l).lanesOk = tx ∧
        ((min 4 a.length < x.minWidth.toNat ∨ min 4 b.length < x.minWidth.toNat) → (t.link l).st = .failed) ∧
        (x.minWidth.toNat ≤ min 4 a.length → x.minWidth.toNat ≤ min 4 b.length →
          (t.link l).st = .training ∧ (t.link l).step = .agree)) ∧
    ((x.st ≠ .training ∨ x.step ≠ .agree) → exec (.laneMapAgreed l) s = .next s) ∧
    (x.st = .training → x.step = .agree → ∃ t, exec (.laneMapAgreed l) s = .next t ∧ t = s.setLink l (t.link l) ∧
      (t.link l).st = .bib ∧ (t.link l).txSeq = 0 ∧ (t.link l).rxSeq = 0 ∧ (t.link l).replayBuf = [] ∧
      (t.link l).bibTx = s.ownBib l ∧ (t.link l).bibAcked = false ∧
      (t.link l).bibSent = s.now ∧ (t.link l).ctlQ = [(1, s.ownBib l), (2, BitVec.ofNat 256 (b2n x.admits))] ++
        (if s.narrow then [(4, BitVec.ofNat 256 (x.tx.word.toNat + 2 ^ 32))] else [])) ∧
    (x.st ≠ .training → x.st ≠ .bib → (x.st ≠ .retrain ∨ x.prev ≠ .bib) → exec (.linkTrainingTimeout l) s = .next s) ∧
    (∀ u, (x.st = .training ∨ x.st = .bib ∨ x.st = .retrain ∧ x.prev = .bib) → u = s.advanceTo (x.trainStart.toNat + 250000000) →
      ∃ t, exec (.linkTrainingTimeout l) s = .next t ∧ t = u.setLink l (t.link l) ∧ (t.link l).st = .failed)

/-- A Bib that does not check is only noted; one that does is stored and acknowledged, and takes a link in BIB, or one in
UP or QUARANTINE where it has changed, to HELD, with BIB_CHG and a record when it replaces another, and is to be
decided. It is sent again 1 ms after it was sent last, while not acknowledged. A link is UP while both ends admit it,
this one having decided on the Bib it holds. A Canal that shares a link with another enabled one is refused with
OVERLAP; a link that leaves a Canal gives its queued packets back to the router, at its packet boundary where it is in
mid-packet. (R249, R255, R258, R264, R267, R270, R291, R326, R424) -/
def Obligations.BibAndCanals : Prop :=
  ∀ (s : State) (l : Nat) (x : Link), s.clocked = true → x = s.link l →
    (∀ b, x.st.flits = false → exec (.bib l b) s = .next s) ∧
    (∀ b, x.st.flits = true → bibOk b = false → exec (.bib l b) s = .next (s.setLink l { x with bibBad := true })) ∧
    (∀ b, x.st.flits = true → bibOk b = true → ∃ t, exec (.bib l b) s = .next t ∧ s.onlyLink l t ∧
      (t.link l).bibRx = b ∧ (t.link l).bibValid = true ∧ (t.link l).ctlQ = x.ctlQ ++ [(3, 0)] ∧
      (t.link l).bibChg = (x.bibChg || decide (x.bibRx ≠ 0 ∧ x.bibRx ≠ b)) ∧
      (t.link l).undecided = (x.undecided || !x.bibValid || decide (x.bibRx ≠ b)) ∧
      (t.link l).st = (if x.st = .bib ∨ (x.bibRx ≠ b ∧ (x.st = .up ∨ x.st = .quarantine)) then .held else x.st) ∧
      (x.bibRx ≠ 0 → x.bibRx ≠ b → ∃ r ∈ t.host.recs.take 2, r.type = 0x40 ∧ r.index = BitVec.ofNat 16 l ∧
        r.payload = (List.range 8).map (fun i => w32 (field b.toNat (32 * i) 32))) ∧
      ((x.bibRx = 0 ∨ x.bibRx = b) → x.st ≠ .up → t.host = s.host)) ∧
    ((x.st.flits = false ∨ x.bibAcked = true) → exec (.bibResendTimer l) s = .next s) ∧
    (∀ u, x.st.flits = true → x.bibAcked = false → u = s.advanceTo (x.bibSent.toNat + 1000000) →
      exec (.bibResendTimer l) s = .next (u.setLink l { x with bibTx := s.ownBib l, bibSent := u.now, ctlQ := x.ctlQ ++ [(1, s.ownBib l), (2, BitVec.ofNat 256 (b2n x.admits))] })) ∧
    (∀ admits, x.st.flits = false → exec (.admissionNotice l admits) s = .next s) ∧
    (∀ admits, x.st.flits = true → ∃ t, exec (.admissionNotice l admits) s = .next t ∧
      (t.link l).peerAdmit = admits ∧
      (t.link l).st = (if x.st = .held ∧ x.admits = true ∧ admits = true ∧ x.undecided = false then .up
        else if x.st = .up ∧ (x.admits = false ∨ admits = false) then .held else x.st) ∧
      (x.st = .held → x.admits = true → admits = true → x.undecided = false → (t.link l).spillCredit = true ∧ t.host = s.host) ∧
      (x.st = .up → (x.admits = false ∨ admits = false) → (t.link l).general = [] ∧ (t.link l).bounce = [] ∧
        (t.link l).spillCredit = false ∧ (t.link l).input = x.input ++ (x.bounce ++ x.general).map (fun k => (s.now, k))) ∧
      (∀ q, q ≠ l → t.link q = { s.link q with canalMismatch := (t.link q).canalMismatch }) ∧
      State.sameButEvents { s with links := t.links } t) ∧
    (∀ v : BitVec 32, s.host.d3hot = false → (18 ≤ l ∨ s.cfgSeal.st ≠ .open) → exec (.canalWrite l v) s = .next s) ∧
    (∀ (v : BitVec 32) (ms : BitVec 18), s.host.d3hot = false → l < 18 → s.cfgSeal.st = .open → ms = v.truncate 18 →
      (v.getLsbD 18 = true → (∃ d, d < 18 ∧ d ≠ l ∧ (s.link d).canalEn = true ∧ (s.link d).members &&& ms ≠ 0) →
        exec (.canalWrite l v) s = .next (s.setLink l { x with canalOverlap := true })) ∧
      ((v.getLsbD 18 = false ∨ ∀ d, d < 18 → d ≠ l → (s.link d).canalEn = true → (s.link d).members &&& ms = 0) →
        ∃ t, exec (.canalWrite l v) s = .next t ∧ (t.link l).members = ms ∧ (t.link l).canalEn = v.getLsbD 18 ∧
          (∀ q, q ≠ l → (t.link q).members = (s.link q).members ∧ (t.link q).canalEn = (s.link q).canalEn) ∧
          (∀ n, n = s.setLink l { x with members := ms, canalEn := v.getLsbD 18 } →
            (∀ q, q < 18 → s.canalOf q ≠ none → n.canalReg q ≠ s.canalOf q → (s.link q).sending = none →
              (t.link q).general = [] ∧ (t.link q).bounce = [] ∧ (t.link q).oldCanal = none ∧ (t.link q).input =
                (s.link q).input ++ ((s.link q).bounce ++ (s.link q).general).map (fun k => (s.now, k))) ∧
            (∀ q, q < 18 → n.canalReg q ≠ s.canalOf q → (s.link q).sending ≠ none →
              (t.link q).oldCanal = some (s.canalOf q)) ∧
            (∀ q, (18 ≤ q ∨ s.canalOf q = none ∨ n.canalReg q = s.canalOf q ∨ (s.link q).sending ≠ none) →
              (t.link q).general = (s.link q).general ∧ (t.link q).bounce = (s.link q).bounce ∧
              (t.link q).input = (s.link q).input)) ∧
          t = { s with links := t.links }))

/-- A good flit that carries the next sequence number is taken once and counted, and its acknowledgement frees the flits
it covers; one that does not check, or is out of order, changes nothing of the sequence and asks for a replay once. A
NAK starts a replay, and past REPLAY_LIMIT the link retrains; an acknowledgement ends the count of replays. The loss
of all lanes retrains; the loss of one, or too many errors, makes it FAILED. At a marker the announced map takes
effect and the far end's FAILED lanes are FAILED here. (R249, R250, R251, R252, R259, R260, R262, R275) -/
def Obligations.LinkService : Prop :=
  ∀ (s : State) (l : Nat) (x : Link), s.clocked = true → x = s.link l →
    (x.st.flits = false → (∀ f, exec (.flitReceive l f) s = .next s) ∧ (∀ p all, exec (.laneSignalLoss l p all) s = .next s) ∧
      (∀ errs, exec (.symbolWindowEnd l errs) s = .next s) ∧ (∀ a b, exec (.markerReceive l a b) s = .next s)) ∧
    (∀ f : Flit, x.st.flits = true → x.disableAt = none → x.cnt.length = 9 → f.type ≠ 1 → f.nak = false →
      ∃ t, exec (.flitReceive l f) s = .next t ∧ t = s.setLink l (t.link l) ∧ (t.link l).st = x.st ∧
        (t.link l).cnt.getD 0 0 = x.cnt.getD 0 0 + 1 ∧
        (t.link l).cnt.getD 1 0 = x.cnt.getD 1 0 + (if f.decodes = true ∧ f.badSymbols ≠ [] then 1 else 0) ∧
        (t.link l).cnt.getD 2 0 = x.cnt.getD 2 0 + (if f.decodes then 0 else 1) ∧
        (t.link l).cnt.getD 5 0 = x.cnt.getD 5 0 + (if f.decodes = true ∧ f.crcOk = false then 1 else 0) ∧
        (f.decodes = true → f.crcOk = true → f.type ≠ 2 → f.seq = x.rxSeq →
          (t.link l).rxSeq = x.rxSeq + 1 ∧ (t.link l).nakOut = false ∧
          (t.link l).cnt.getD 4 0 = x.cnt.getD 4 0 + 1 ∧ (t.link l).replayBuf = (x.acked f.ackSeq).replayBuf) ∧
        (f.decodes = true → f.crcOk = true → f.type ≠ 2 → f.seq ≠ x.rxSeq →
          (t.link l).rxSeq = x.rxSeq ∧ (t.link l).nakOut = true ∧ (t.link l).cnt.getD 4 0 = x.cnt.getD 4 0 ∧
          (t.link l).cnt.getD 6 0 = x.cnt.getD 6 0 + (if x.nakOut then 0 else 1)) ∧
        ((f.decodes = false ∨ f.crcOk = false) → (t.link l).rxSeq = x.rxSeq ∧ (t.link l).nakOut = true ∧
          (t.link l).replayBuf = x.replayBuf ∧ (t.link l).cnt.getD 4 0 = x.cnt.getD 4 0)) ∧
    (∀ f : Flit, x.st.flits = true → x.disableAt = none → f.decodes = true → f.crcOk = true → f.type ≠ 1 → f.nak = true →
      (x.acked f.ackSeq).replayBuf ≠ [] → ∃ t, exec (.flitReceive l f) s = .next t ∧ t = s.setLink l (t.link l) ∧
        ((x.lastNak = none ∨ (x.acked f.ackSeq).replayBuf ≠ x.replayBuf) → x.replayLimit ≠ 0 → (t.link l).replayAt = some 0 ∧ (t.link l).replayCnt = 1 ∧
          (t.link l).lastNak = some (f.ackSeq, s.now) ∧ (t.link l).st = x.st) ∧
        (∀ t0, (x.acked f.ackSeq).replayBuf = x.replayBuf → x.lastNak = some (f.ackSeq, t0) → t0.toNat + 2000 ≤ s.now.toNat →
          (x.replayLimit.toNat ≤ x.replayCnt → (t.link l).st = .retrain ∧ (t.link l).prev = x.st) ∧
          (x.replayCnt < x.replayLimit.toNat → (t.link l).replayAt = some 0 ∧
            (t.link l).replayCnt = x.replayCnt + 1 ∧ (t.link l).st = x.st))) ∧
    (∀ p, x.st.flits = true → ∃ t, exec (.laneSignalLoss l p true) s = .next t ∧ t = s.setLink l (t.link l) ∧
      (t.link l).st = .retrain ∧ (t.link l).prev = x.st ∧ (t.link l).replayBuf = x.replayBuf ∧
      (t.link l).retrainAt = s.now) ∧
    (∀ p, x.st.flits = true → x.rx.at p ≠ .active → x.rx.at p ≠ .standby →
      exec (.laneSignalLoss l p false) s = .next s) ∧
    (∀ p, x.st.flits = true → (x.rx.at p = .active ∨ x.rx.at p = .standby) →
      ∃ t, exec (.laneSignalLoss l p false) s = .next t ∧ s.onlyLink l t ∧ (t.link l).rx.at p = .failed ∧
        (∀ q, q ≠ p → (t.link l).rx.at q = x.rx.at q) ∧ (t.link l).laneFail = true ∧
        (x.rx.at p = .standby → (t.link l).rx.spare = 7 ∧
          ∃ r ∈ t.host.recs.take 2, r.type = 0x42 ∧ r.cls = 2 ∧ r.index = BitVec.ofNat 16 l)) ∧
    (∀ errs : List (BitVec 32), x.st.flits = true → ∃ t, exec (.symbolWindowEnd l errs) s = .next t ∧ s.onlyLink l t ∧
      (t.link l).sym = (List.range 5).map (fun p => satAdd (errs.getD p 0) (x.symRun.getD p 0).toNat) ∧
      (t.link l).symRun = [0, 0, 0, 0, 0] ∧ ∀ p, p < 5 → (t.link l).rx.at p =
        if x.laneThresh.toNat * 1024 < (satAdd (errs.getD p 0) (x.symRun.getD p 0).toNat).toNat ∧ (x.rx.at p = .active ∨ x.rx.at p = .standby) then .failed
        else x.rx.at p) ∧
    (∀ failed p, x.st.flits = true → x.laneMapNext = none → x.tx.st.length = 5 → p ∈ failed → p < 5 →
      ∃ t, exec (.markerReceive l failed none) s = .next t ∧ t = s.setLink l (t.link l) ∧ (t.link l).st = x.st ∧
        (t.link l).tx.at p = .failed ∧ (t.link l).tx.width = x.tx.width -
          ((List.range 5).filter (fun q => failed.contains q && x.tx.at q == .active)).length) ∧
    (∀ n, x.st.flits = true → x.laneMapNext = some n → (∀ p, p < 5 → n.at p ≠ .failed) →
      (if s.narrowAt l then 1 else x.minWidth.toNat) ≤ n.width →
      ∃ t, exec (.markerReceive l [] none) s = .next t ∧ t = s.setLink l (t.link l) ∧ (t.link l).tx = n ∧
        (t.link l).laneMapNext = none ∧ (t.link l).st = x.st) ∧
    (∀ map spare n, x.st.flits = true → x.laneMapNext = none → (∀ p, p < 5 → x.tx.at p ≠ .failed) →
      n = x.rx.remap (map.filter (fun p => decide (p < 5) && x.rx.at p != .failed)) spare →
      (if s.narrowAt l then 1 else x.minWidth.toNat) ≤ n.width →
      ∃ t, exec (.markerReceive l [] (some (map, spare))) s = .next t ∧ s.onlyLink l t ∧ (t.link l).rx = n ∧
        (t.link l).st = x.st ∧ (t.link l).spareIn = (x.spareIn || n.active.any (fun p => x.rx.at p == .standby)) ∧
        (n.active.any (fun p => x.rx.at p == .standby) = true → (x.rx.active.length ≤ n.width ∨ s.narrowAt l = true) →
          s.posted t 0x41 3 l [x.tx.word, n.word]) ∧
        (n.width < x.rx.active.length → s.narrowAt l = false → t.host.recs ≠ [] ∧ ∀ r, t.host.recs.head? = some r →
          r.type = 0x42 ∧ r.cls = 2 ∧ r.index.toNat = l % 65536 ∧ r.payload = [x.tx.word, n.word]))

/-- A retrain that ends with the stored Bib returns to the state before it (UP or HELD as the admission of both ends asks,
HELD where discovery has yet to decide) and waits for the far end's first flit to replay from, with another Bib to
HELD with nothing to replay, and posts LINK_RETRAIN; after 10 ms the link trains anew. LINK_ENABLE needs the seal open
and acts on each link of its mask; LINK_RETRAIN acts on links that carry flits or are FAILED and otherwise answers
STATE. LANE_REQUALIFY answers RANGE, STATE or BUSY or is accepted; it ends with the lane STANDBY if it passes, and
CMD_DONE carries the lanes. (R255, R261, R262, R263, R265, R326, R394, R395, R396, R424) -/
def Obligations.LinkRetrainAndCommands : Prop :=
  ∀ (s : State), s.clocked = true →
    (∀ l b, (s.link l).st ≠ .retrain → exec (.retrainComplete l b) s = .next s) ∧
    (∀ l b, (s.link l).st = .retrain → bibOk b = false →
      exec (.retrainComplete l b) s = .next (s.setLink l { s.link l with bibBad := true })) ∧
    (∀ l b x, x = s.link l → x.st = .retrain → bibOk b = true → x.bibValid = true → x.bibRx = b →
      (x.prev = .held → x.admits = true → x.peerAdmit = true → x.undecided = false → ∃ t, exec (.retrainComplete l b) s = .next t ∧
        (t.link l).st = .up) ∧
      (x.prev = .up → (x.admits = false ∨ x.peerAdmit = false) → ∃ t, exec (.retrainComplete l b) s = .next t ∧
        (t.link l).st = .held ∧ (t.link l).general = []) ∧
      (x.prev.known = true → x.undecided = true → ∃ t, exec (.retrainComplete l b) s = .next t ∧ (t.link l).st = .held)) ∧
    (∀ l b x, x = s.link l → x.st = .retrain → bibOk b = true → (x.prev = .held → x.admits = false ∨ x.peerAdmit = false) →
      (x.prev = .up → x.admits = true ∧ x.peerAdmit = true) → ∃ t, exec (.retrainComplete l b) s = .next t ∧
      (∀ q, q ≠ l → t.link q = { s.link q with canalMismatch := (t.link q).canalMismatch }) ∧
      State.sameButEvents { s with links := t.links } t ∧
      (t.link l).retrained = true ∧ (t.link l).resync = true ∧ (t.link l).replayAt = none ∧
      (2, BitVec.ofNat 256 (b2n x.admits)) ∈ (t.link l).ctlQ ∧
      (x.bibValid = true → x.bibRx = b → x.undecided = false → (t.link l).st = x.prev ∧ (t.link l).replayBuf = x.replayBuf ∧
        s.posted t 0x43 1 l [(t.link l).stat]) ∧
      (x.bibRx ≠ b → (t.link l).st = .held ∧ (t.link l).bibRx = b ∧ (t.link l).undecided = true ∧ (t.link l).replayBuf = []) ∧
      ∃ r, t.host.recs.head? = some r ∧ r.type = 0x43 ∧ r.cls = 1 ∧ r.payload = [(t.link l).stat] ∧ r.dseq = x.cmd) ∧
    (∀ l, (s.link l).st ≠ .retrain → exec (.retrainTimeout l) s = .next s) ∧
    (∀ l u, (s.link l).st = .retrain → u = s.advanceTo ((s.link l).retrainAt.toNat + 10000000) →
      ∃ t, exec (.retrainTimeout l) s = .next t ∧ u.onlyLink l t ∧ (t.link l).st = .training ∧
        (t.link l).step = .equalise ∧ (t.link l).replayBuf = [] ∧ (t.link l).bibValid = false) ∧
    (∀ w (mask value d : BitVec 32), s.carries w 0x60 [mask.toNat, value.toNat] = some d →
      ((2 ^ 18 ≤ mask.toNat ∨ 1 < value.toNat) → exec (.linkEnable w mask value) s = .next (answer w d stRsvEnc [] s)) ∧
      (mask.toNat < 2 ^ 18 → value.toNat ≤ 1 → s.cfgSeal.st ≠ .open →
        exec (.linkEnable w mask value) s = .next (answer w d stState [] s)) ∧
      (mask.toNat < 2 ^ 18 → value.toNat ≤ 1 → s.cfgSeal.st = .open → ∃ t,
        exec (.linkEnable w mask value) s = .next (answer w d stOk [] t) ∧
        (∀ l, mask.getLsbD l = true → (t.link l).enable = value.getLsbD 0 ∧
          (value.getLsbD 0 = true → (t.link l).st = if (s.link l).st = .disabled then .training else (s.link l).st) ∧
          (value.getLsbD 0 = false → (s.link l).st = .training → (s.link l).disableAt = none → (t.link l).st = .disabled)) ∧
        (∀ l, mask.getLsbD l = false → t.link l = s.link l) ∧ State.sameButEvents { s with links := t.links } t)) ∧
    (∀ w (mask d : BitVec 32), s.carries w 0x61 [mask.toNat] = some d →
      (2 ^ 18 ≤ mask.toNat → exec (.linkRetrain w mask) s = .next (answer w d stRsvEnc [] s)) ∧
      (mask.toNat < 2 ^ 18 →
        (∃ l, mask.getLsbD l = true ∧ (s.link l).st.flits = false ∧ (s.link l).st ≠ .failed) →
        exec (.linkRetrain w mask) s = .next (answer w d stState [] s)) ∧
      (mask.toNat < 2 ^ 18 → (∀ l, mask.getLsbD l = true → (s.link l).st.flits = true ∨ (s.link l).st = .failed) →
        ∃ t, exec (.linkRetrain w mask) s = .next (answer w d stOk [] t) ∧
        (∀ l, mask.getLsbD l = true → (t.link l).st = (if (s.link l).st = .failed then .training else .retrain) ∧
          ((s.link l).st ≠ .failed → (t.link l).cmd = d)) ∧
        (∀ l, mask.getLsbD l = false → t.link l = s.link l) ∧ t = { s with links := t.links })) ∧
    (∀ w (link lane d : BitVec 32) x, x = s.link link.toNat → s.carries w 0x62 [link.toNat, lane.toNat] = some d →
      ((18 ≤ link.toNat ∨ 5 ≤ lane.toNat) → exec (.laneRequalify w link lane) s = .next (answer w d stRange [] s)) ∧
      (link.toNat < 18 → lane.toNat < 5 →
        ((x.st.flits = false ∨ x.rx.at lane.toNat ≠ .failed) →
          exec (.laneRequalify w link lane) s = .next (answer w d stState [] s)) ∧
        (x.st.flits = true → x.rx.at lane.toNat = .failed →
          (x.requal ≠ none → exec (.laneRequalify w link lane) s = .next (answer w d stBusy [] s)) ∧
          (x.requal = none → exec (.laneRequalify w link lane) s = .next (answer w d stAccepted []
            (startLong w 0x62 d (link.toNat * 8 + lane.toNat)
              (s.setLink link.toNat { x with requal := some (lane.toNat, d) }))))))) ∧
    (∀ l pass, (s.link l).requal = none → exec (.laneRequalifyComplete l pass) s = .next s) ∧
    (∀ l pass p d, (s.link l).requal = some (p, d) → ∃ z : Link,
      exec (.laneRequalifyComplete l pass) s = .next (finishLong d stOk [z.rx.word] (s.setLink l z)) ∧
      (pass = true → (s.link l).rx.at p = .failed → z.rx.at p = .standby) ∧
      (pass = false → z.rx = (s.link l).rx) ∧ z = { s.link l with requal := none, rx := z.rx })

/-- On a link that is UP a packet of no legal form is discarded, a Spillway credit whose CRC holds is taken, one that does
not fit its input is discarded with OVERFLOW, and any other waits at the input with its arrival time. A discard counts
and posts FABRIC_DISCARD of class STEP_FATAL. A flit carries the link's acknowledgement and a good CRC: it is a
replayed one first, then a CONTROL flit at most every 64, then data, which is 628 bytes of the packet being sent, or
of the next one of the link-local queue, the bounce place and the general place, in that order, and IDLE where there
is none, the replay buffer is full, a lane switch is announced or the link waits after a RETRAIN. At a Spillway turn a
waiting Spillway packet goes. (R249, R250, R251, R276, R277, R278, R279, R280, R290, R291, R296) -/
def Obligations.PacketTransfer : Prop :=
  ∀ (s : State) (l : Nat) (x : Link), s.clocked = true → x = s.link l →
    (∀ pk, x.st ≠ .up → exec (.packetReceive l pk) s = .next s) ∧
    (∀ pk : Packet, x.st = .up → pk.legal = false → exec (.packetReceive l pk) s = .next (fabDiscard l 0 1 s)) ∧
    (∀ pk : Packet, x.st = .up → pk.legal = true → pk.op = 0xC →
      exec (.packetReceive l pk) s = .next (if pk.crc = pk.goodCrc then s.setLink l { x with spillCredit := true }
        else fabDiscard 31 256 1 s)) ∧
    (∀ pk : Packet, pk.op = 0xB → pk.legal = true → exec (.packetReceive l pk) s = .next s) ∧
    (∀ pk : Packet, x.st = .up → pk.legal = true → pk.op ≠ 0xB → pk.op ≠ 0xC →
      (4176 < bytesOf (x.input.map (·.2)) + pk.size → exec (.packetReceive l pk) s = .next (fabDiscard l 128 1 s)) ∧
      (bytesOf (x.input.map (·.2)) + pk.size ≤ 4176 →
        exec (.packetReceive l pk) s = .next (s.setLink l { x with input := x.input ++ [(s.now, pk)] }))) ∧
    (∀ index bits n t, t = fabDiscard index bits n s → t.router.discard = true ∧
      t.router.noRoute = (s.router.noRoute || bitOf bits 6) ∧ t.router.overflow = (s.router.overflow || bitOf bits 7) ∧
      (s.router.cnt.length = 10 → t.router.cnt.getD 7 0 = s.router.cnt.getD 7 0 + BitVec.ofNat 64 n) ∧
      s.posted t 0x8A 4 index [w32 (bits + 16), w32 n] ∧ t.links = s.links ∧
      State.sameButEvents { s with router := t.router } t) ∧
    (exec (.spillCredit l) s = .next (if x.st = .up then s.setLink l { x with spillCredit := true } else s)) ∧
    (x.st.flits = false → exec (.flitTransmit l) s = .next s) ∧
    (∀ y, x.st.flits = true → y = { x with slotsSinceCtl := min 64 (x.slotsSinceCtl + 1) } →
      (∀ i f, x.replayAt = some i → f = x.replayBuf.getD i {} → ∃ t, exec (.flitTransmit l) s = .next t ∧
        t = s.setLink l { y with
          replayAt := if i + 1 < x.replayBuf.length then some (i + 1) else none
          cnt := listUpd x.cnt 7 (wrapAdd · 1), txOut := (t.link l).txOut } ∧
        (t.link l).sent (if f.ctl then 1 else 0) f.seq f.firstPkt f.payload true) ∧
      (x.replayAt = none → (204 ≤ x.replayBuf.length ∨ x.resync = true) → ∃ t, exec (.flitTransmit l) s = .next t ∧
        t = s.setLink l { y with txOut := (t.link l).txOut } ∧ (t.link l).sent 2 0 1023 [] false) ∧
      (x.replayAt = none → x.replayBuf.length < 204 → x.resync = false →
        (∀ kind body r, x.ctlQ = (kind, body) :: r → 63 ≤ x.slotsSinceCtl → ∃ t, exec (.flitTransmit l) s = .next t ∧
          t = s.setLink l { x with
            ctlQ := r, slotsSinceCtl := 0, txSeq := x.txSeq + 1
            replayBuf := x.replayBuf ++
              [{ seq := x.txSeq, ctl := true, ends := [], payload := kind :: leBytes 32 body.toNat }]
            cnt := listUpd x.cnt 3 (wrapAdd · 1), txOut := (t.link l).txOut } ∧
          (t.link l).sent 1 x.txSeq 1023 (kind :: leBytes 32 body.toNat) false) ∧
        ((x.ctlQ = [] ∨ x.slotsSinceCtl < 63) →
          ((x.st ≠ .up ∨ x.laneMapNext ≠ none ∨ (x.sending = none ∧ x.turn ≠ 15 ∧ x.localQ = [] ∧ x.bounce = [] ∧ x.general = [])) →
            ∃ t, exec (.flitTransmit l) s = .next t ∧ t = s.setLink l { y with txOut := (t.link l).txOut } ∧
            (t.link l).sent 2 0 1023 [] false) ∧
          (x.st = .up → x.laneMapNext = none →
            (∀ k b pl, x.sending = some (k, b) → 628 < b → pl = (k.bytes.drop (k.size - b)).take 628 →
              ∃ t, exec (.flitTransmit l) s = .next t ∧ t = s.setLink l { y with
                sending := some (k, b - 628), txSeq := x.txSeq + 1
                replayBuf := x.replayBuf ++ [{ seq := x.txSeq, ctl := false, ends := [], payload := pl }]
                cnt := listUpd x.cnt 3 (wrapAdd · 1), txOut := (t.link l).txOut } ∧
              (t.link l).sent 0 x.txSeq 1023 pl false) ∧
            (∀ k b pl, x.sending = some (k, b) → 0 < b → b ≤ 628 → x.oldCanal = none → x.turn ≠ 15 → x.localQ = [] →
              x.bounce = [] → x.general = [] → pl = (k.bytes.drop (k.size - b)).take b →
              ∃ t, exec (.flitTransmit l) s = .next t ∧ t = s.setLink l { y with
                sending := none, txSeq := x.txSeq + 1
                replayBuf := x.replayBuf ++ [{ seq := x.txSeq, ctl := false, ends := [k], payload := pl }]
                cnt := listUpd x.cnt 3 (wrapAdd · 1), txOut := (t.link l).txOut } ∧
              (t.link l).sent 0 x.txSeq 1023 pl false) ∧
            (∀ k, x.sending = none → x.turn ≠ 15 → x.disableAt = none → 628 < k.size →
              (x.localQ.head? = some k ∨ (x.localQ = [] ∧ x.bounce.head? = some k) ∨
                (x.localQ = [] ∧ x.bounce = [] ∧ x.general.head? = some k)) →
              ∃ t, exec (.flitTransmit l) s = .next t ∧ (t.link l).sending = some (k, k.size - 628) ∧
                (t.link l).turn = (x.turn + 1) % 16 ∧ t = s.setLink l (t.link l) ∧
                (t.link l).sent 0 x.txSeq 0 (k.bytes.take 628) false))))) ∧
    ((x.st ≠ .up ∨ x.sending ≠ none ∨ x.turn ≠ 15 ∨ s.spillFor l = none) → exec (.spillwayTurn l) s = .next s) ∧
    (∀ j k, x.st = .up → x.sending = none → x.turn = 15 → s.spillFor l = some (j, k) → s.router.cnt.length = 10 →
      ∃ t, exec (.spillwayTurn l) s = .next t ∧ (t.link j).spill = none ∧ (t.link l).spillCredit = false ∧
        (t.link l).sending = some ({ k with down := k.down || !rtEscUp (s.route k.dst.toNat) }, k.size) ∧
        (t.link l).turn = 0 ∧ (∀ q, q ≠ l → q ≠ j → t.link q = s.link q) ∧
        t.router = { s.router with cnt := t.router.cnt } ∧ t.router.cnt.getD 6 0 = s.router.cnt.getD 6 0 + 1 ∧
        t = { s with links := t.links, router := t.router })

/-- With no packet in a Spillway buffer, the head of an input without a valid entry is discarded with NOROUTE; one for
this device goes to the ejection buffer or a Baton to the park; one with 12 deflections takes its free Spillway
buffer; any other goes to the general place of its choice, alone contending, deflected where no productive one has
room, or else to the bounce place where that has room, or waits. An injected packet of a unit's queue takes a
productive Canal, the ejection buffer, or waits, and the core cycles it waits are counted; a drain stops all but RSP
and CTRL. (R281, R283, R284, R286, R287, R288, R290, R298, R302, R305) -/
def Obligations.RoutingSteps : Prop :=
  (∀ (s : State) (l : Nat) (x : Link) (t0 : BitVec 64) (k : Packet) (rest : List (BitVec 64 × Packet)) (e die : Nat) (z : State),
    s.clocked = true → (∀ q, q < 18 → (s.link q).spill = none) → l < 18 → x = s.link l → x.input = (t0, k) :: rest →
    k.spill = false → e = s.route k.dst.toNat → die = dieOf l → s.router.cnt.length = 10 →
    z = s.setLink l { x with input := rest, lostTo := [] } →
    (rtValid e = false → exec (.routePacket l) s = .next (fabDiscard 31 64 1 z)) ∧
    (rtValid e = true → rtLocal e = true → s.endsAt die k = .eject → ∃ t, exec (.routePacket l) s = .next t ∧
      t.router.eject.get die [] = s.router.eject.get die [] ++ [k] ∧ t.router.cnt.getD 1 0 = s.router.cnt.getD 1 0 + 1 ∧
      t.router.park = s.router.park ∧ t = { z with router := t.router }) ∧
    (rtValid e = true → rtLocal e = true → s.endsAt die k = .park → ∃ t, exec (.routePacket l) s = .next t ∧
      t.router.park = s.router.park ++ [k] ∧ t.router.eject = s.router.eject ∧
      (k.cls.toNat, k.src.toNat) ∉ t.router.turnaway ∧ (k.cls.toNat, k.src.toNat) ∉ t.router.granted ∧
      t = { z with router := t.router }) ∧
    (rtValid e = true → rtLocal e = false → k.defl = 12 → x.spillMaxW = none → ∃ t, exec (.routePacket l) s = .next t ∧
      t.link l = { x with input := rest, lostTo := [], spill := some { k with spill := true } } ∧
      t.router.cnt.getD 5 0 = s.router.cnt.getD 5 0 + 1 ∧ (∀ q, q ≠ l → t.link q = s.link q) ∧
      t = { s with links := t.links, router := t.router }) ∧
    (rtValid e = true → rtLocal e = false → k.defl ≠ 12 →
      (∀ d c m, s.choice l = some (d, c, m) → (∀ q, q < 18 → q ≠ l → (s.link q).input = []) →
        ∃ t, exec (.routePacket l) s = .next t ∧ (t.link l).input = rest ∧
          (t.link m).general = (s.link m).general ++ [if d then { k with defl := k.defl + 1 } else k] ∧
          t.router.cnt.getD (if d then 3 else 2) 0 = s.router.cnt.getD (if d then 3 else 2) 0 + 1 ∧
          (∀ q, q ≠ l → q ≠ m → t.link q = s.link q) ∧ t = { s with links := t.links, router := t.router }) ∧
      (s.choice l = none → s.bounceRoom l k.size = true → ∃ t, exec (.routePacket l) s = .next t ∧
        t.link l = { x with input := rest, lostTo := [], bounce := x.bounce ++ [{ k with defl := k.defl + 1 }] } ∧
        t.router.cnt.getD 3 0 = s.router.cnt.getD 3 0 + 1 ∧ t.router.cnt.getD 4 0 = s.router.cnt.getD 4 0 + 1 ∧
        (∀ q, q ≠ l → t.link q = s.link q) ∧ t = { s with links := t.links, router := t.router }) ∧
      (s.choice l = none → s.bounceRoom l k.size = false → exec (.routePacket l) s = .next s)) ∧
    (rtLocal e = false → ∀ d c m, s.choice l = some (d, c, m) →
      m ∈ s.canalActive c ∧ m ∉ x.lostTo ∧ s.linkOpen m = true ∧ bytesOf (s.link m).general + k.size ≤ 2088 ∧
      (d = false → c ∈ rtProductive e k.cls.toNat) ∧
      (d = true → c ∉ rtProductive e k.cls.toNat ∧ ∀ a, a ∈ rtProductive e k.cls.toNat → ∀ b, b ∈ s.canalActive a →
        s.linkOpen b = true → b ∉ x.lostTo → 2088 < bytesOf (s.link b).general + k.size))) ∧
  (∀ (r : Router) (n : Nat), r.cnt.length = 10 →
    (r.injWaits = [] → r.waited n = r) ∧
    (r.injWaits ≠ [] → (r.waited n).cnt.getD 9 0 = r.cnt.getD 9 0 + BitVec.ofNat 64 n ∧ (r.waited n).winInjWait = r.winInjWait + n)) ∧
  (∀ (s : State) (cls unit key : Nat), s.clocked = true → key = injKey cls unit →
    (s.injHead cls unit = none → exec (.packetInject cls unit) s = .next s) ∧
    (s.router.injStopped = true → cls ≠ 1 → cls ≠ 5 → exec (.packetInject cls unit) s = .next s) ∧
    (∀ k rest e w, s.injHead cls unit = some (k, rest) → e = s.route k.dst.toNat → w = (s.stamp k).1 →
      s.router.cnt.length = 10 → (∀ q, q < 18 → (s.link q).spill = none) →
      (w.crc = w.goodCrc ∧ w = { k with epoch := w.epoch, bcount := w.bcount, crc := w.crc }) ∧
      (rtValid e = false → k.answered = false → exec (.packetInject cls unit) s = .next { s with router := { s.router with
        injQ := s.router.injQ.put key rest, injWaits := s.router.injWaits.filter (· != key), noRoute := true } }) ∧
      (rtValid e = true → rtLocal e = true → s.endsAt 0 w = .eject → ∃ t, exec (.packetInject cls unit) s = .next t ∧
        t.router.eject.get 0 [] = s.router.eject.get 0 [] ++ [w] ∧ t.router.injQ.get key [] = rest ∧
        key ∉ t.router.injWaits ∧
        t.router.out = s.router.out + (if k.answered then 1 else 0) ∧ t = { s with router := t.router }) ∧
      (rtValid e = true → ((rtLocal e = true ∧ (s.endsAt 0 w = .full ∨ s.endsAt 0 w = .away)) ∨
          (rtLocal e = false ∧ s.injPick k = none)) → ∃ t, exec (.packetInject cls unit) s = .next t ∧
        key ∈ t.router.injWaits ∧ t = { s with router := { s.router with injWaits := t.router.injWaits } }) ∧
      (∀ c m, rtValid e = true → rtLocal e = false → cls < 6 → s.injPick k = some (c, m) →
        (∀ q ∈ s.router.injQ, q.1 ≠ key → s.injHead (q.1 % 8) (q.1 / 8) = none) → ∃ t, exec (.packetInject cls unit) s = .next t ∧
        (t.link m).general = (s.link m).general ++ [w] ∧ (∀ q, q ≠ m → t.link q = s.link q) ∧
        t.router.injQ.get key [] = rest ∧ key ∉ t.router.injWaits ∧
        t.router.out = s.router.out + (if k.answered then 1 else 0) ∧
        t.router.cnt.getD 0 0 = s.router.cnt.getD 0 0 + 1 ∧ t = { s with links := t.links, router := t.router })))

/-- An ejected packet whose CRC fails is discarded; a good one is counted in its stream or, as a Baton, ends the epoch and
is answered with BATON_DONE, and it waits to be served unless the Relay takes it. A parked Baton is delivered when it
is due, and a freed place is granted to the oldest stream turned away. A WRITE that can be made is made and answered
with an ACK, a READ gives READ_DATA; an access that fails is answered with a NACK and its code, and changes nothing.
Memory that cannot be accessed yet makes both wait. (R138, R155, R156, R277, R278, R294, R299, R300, R302) -/
def Obligations.PacketService : Prop :=
  ∀ (s : State), s.clocked = true →
    (∀ die, s.router.eject.get die [] = [] → exec (.ejection die) s = .next s) ∧
    (∀ die k r z, s.router.eject.get die [] = k :: r →
      z = { s with router := { s.router with eject := s.router.eject.put die r } } →
      (k.crc ≠ k.goodCrc → exec (.ejection die) s = .next (fabDiscard 31 256 1 z)) ∧
      (k.crc = k.goodCrc → ∃ t, exec (.ejection die) s = .next t ∧
        t.router.deliv = s.router.deliv ++ (if k.cls = 3 then [] else [k]) ∧
        (counted k.cls = false → t.router.dstStreams = s.router.dstStreams ∧ t.router.injQ = s.router.injQ) ∧
        (counted k.cls = true → k.baton = false → t.router.injQ = s.router.injQ ∧
          t.inStream k = { s.inStream k with arrived := listUpd (s.inStream k).arrived k.epoch.toNat (· + 1) }) ∧
        (counted k.cls = true → k.baton = true → (t.inStream k).expect = (s.inStream k).expect + 1 ∧
          t.router.injQ.get 5 [] = s.router.injQ.get 5 [] ++
            [{ cls := 5, op := 0xA, dst := k.src, src := s.router.id, arg := w32 k.cls.toNat }]) ∧
        t = { z with router := t.router })) ∧
    (∀ cls src, (∀ k ∈ s.router.park, k.cls.toNat = cls → k.src.toNat = src → s.batonDue k = false) →
      exec (.batonParkDeliver cls src) s = .next s) ∧
    (∀ cls src k r, s.router.park = k :: r → k.cls.toNat = cls → k.src.toNat = src → s.batonDue k = true →
      k.crc = k.goodCrc → ∃ t, exec (.batonParkDeliver cls src) s = .next t ∧ t.router.park = r ∧
        t.router.deliv = s.router.deliv ++ (if k.cls = 3 then [] else [k]) ∧
        t.router.turnaway = s.router.turnaway.drop 1 ∧ t.router.granted = s.router.granted ++ s.router.turnaway.take 1 ∧
        t = { s with router := t.router }) ∧
    ((∀ k ∈ s.router.deliv, k.op ≠ 0) → ∀ ecc, exec (.write ecc) s = .next s) ∧
    ((∀ k ∈ s.router.deliv, k.op ≠ 3) → ∀ ecc, exec (.read ecc) s = .next s) ∧
    ((∀ k ∈ s.router.deliv, k.op ≠ 4) → exec .readData s = .next s) ∧
    (∀ k r z ecc, s.router.deliv = k :: r → z = { s with router := { s.router with deliv := r } } →
      (k.op = 0 → s.memWaits k.addr.toNat k.payload.length = true → exec (.write ecc) s = .next s) ∧
      (k.op = 0 → k.arg.getLsbD 8 = false → s.memWaits k.addr.toNat k.payload.length = false → 0 < k.payload.length →
        (∀ c, c ≠ 0 → s.memErr none k.addr.toNat k.payload.length = c →
          exec (.write ecc) s = .next (enqueue { cls := 1, op := 6, dst := k.src, tag := k.tag, arg := w32 c } z)) ∧
        (∀ l o p, spaceOf k.addr.toNat = .rsv l o → s.phys? l = some p → o + k.payload.length ≤ rsvBytes →
          ∃ t, exec (.write ecc) s = .next (enqueue { cls := 1, op := 5, dst := k.src, tag := k.tag } t) ∧
            (t.plot p).resv = (s.plot p).resv.write o k.payload ∧ (∀ q, q ≠ p → t.plot q = s.plot q) ∧
            (ecc = [] → t = { z with plots := t.plots }) ∧ State.sameButEvents { z with plots := t.plots } t)) ∧
      (k.op = 0 → k.arg.getLsbD 8 = true → k.arg.getLsbD 7 = true → k.payload = [] →
        ∀ l o p, spaceOf k.addr.toNat = .rsv l o → s.phys? l = some p →
        exec (.write ecc) s = .next (raiseLocal p (k.arg.toNat % 64)
          (enqueue { cls := 1, op := 5, dst := k.src, tag := k.tag } z))) ∧
      (∀ n, k.op = 3 → n = k.arg.toNat % 4096 + 1 → s.memWaits k.addr.toNat n = true → exec (.read ecc) s = .next s) ∧
      (∀ n, k.op = 3 → n = k.arg.toNat % 4096 + 1 → s.memWaits k.addr.toNat n = false →
        (2048 < n → exec (.read ecc) s = .next (enqueue { cls := 1, op := 6, dst := k.src, tag := k.tag, arg := 2 } z)) ∧
        (∀ l o p, n ≤ 2048 → spaceOf k.addr.toNat = .rsv l o → o + n ≤ rsvBytes →
          (s.phys? l = none →
            exec (.read ecc) s = .next (enqueue { cls := 1, op := 6, dst := k.src, tag := k.tag, arg := 2 } z)) ∧
          (s.phys? l = some p → (s.plot p).resvPoison = [] → ecc = [] → exec (.read ecc) s = .next (enqueue
            { cls := 1, op := 4, dst := k.src, tag := k.tag, payload := (s.plot p).resv.bytes o n } z)))) ∧
      (k.op = 4 → exec .readData s = .next { z with router := { z.router with
        out := s.router.out - 1
        reqs := match takeFirst (fun q => q.tag == k.tag) s.router.reqs with | some (_, q) => q | none => s.router.reqs
        reply := if s.router.reqs.any (fun q => q.tag == k.tag) then s.router.reply ++ [(k.tag, k.payload)] else s.router.reply } }))

/-- An append that names no Plot, or whose inbox does not take it, is answered with a NACK; one that its inbox takes
reserves and is acknowledged. An ACK or a NACK ends its request, which its transfer, a NACK of any code as REMOTE, or
its collective then takes, and reduces the count of requests. A CREDIT adds one to the outbox it names, up to 15, then
sets its overflow. BATON_DONE reduces the Batons not delivered. A MGMT packet lands in the mailbox while that has room
and is counted as dropped otherwise. (R114, R154, R156, R278, R294, R295, R298, R306, R361, R430) -/
def Obligations.PacketAnswers : Prop :=
  ∀ (s : State), s.clocked = true →
    ((∀ k ∈ s.router.deliv, k.op ≠ 1) → ∀ ecc, exec (.appendRow ecc) s = .next s) ∧
    ((∀ k ∈ s.router.deliv, k.op ≠ 2) → ∀ ecc, exec (.appendSlot ecc) s = .next s) ∧
    ((∀ k ∈ s.router.deliv, k.op ≠ 5) → exec .ack s = .next s) ∧ ((∀ k ∈ s.router.deliv, k.op ≠ 6) → exec .nack s = .next s) ∧
    ((∀ k ∈ s.router.deliv, k.op ≠ 9) → exec .credit s = .next s) ∧
    ((∀ k ∈ s.router.deliv, k.op ≠ 0xA) → exec .batonDone s = .next s) ∧
    ((∀ k ∈ s.router.deliv, k.op ≠ 0xD) → exec .mgmt s = .next s) ∧
    (∀ k r z ecc, s.router.deliv = k :: r → z = { s with router := { s.router with deliv := r } } →
      (k.op = 1 → s.farPlot k.addr.toNat = none →
        exec (.appendRow ecc) s = .next (enqueue { cls := 1, op := 6, dst := k.src, tag := k.tag, arg := 2 } z)) ∧
      (k.op = 2 → s.farPlot k.addr.toNat = none →
        exec (.appendSlot ecc) s = .next (enqueue { cls := 1, op := 6, dst := k.src, tag := k.tag, arg := 2 } z)) ∧
      (∀ slot p n b rows rowB tag o, k.op = (if slot then 2 else 1) → s.farPlot k.addr.toNat = some p →
        n = k.arg.toNat % 4 → (s.plot p).pacer.inboxes[n]? = some b → k.arg.getLsbD 8 = false → k.payload ≠ [] →
        tag = remoteTag k.src k.tag → tag ∉ (s.plot p).lostAppends → (∀ q ∈ b.resv, q.tag ≠ tag) →
        rowB = (if slot then field k.arg.toNat 9 22 * 128 else field k.arg.toNat 21 10 * 128) → rowB ≠ 0 →
        rows = (if slot then 1 else field k.arg.toNat 9 12) → rows ≠ 0 → o = k.addr.toNat % rsvBytes →
        (b.matches slot rows rowB = false → ∃ t,
          exec (if slot then .appendSlot ecc else .appendRow ecc) s =
            .next (enqueue { cls := 1, op := 6, dst := k.src, tag := k.tag, arg := 4 } t) ∧
          t.plot p = { s.plot p with lostAppends := tag :: (s.plot p).lostAppends } ∧ t = z.setPlot p (t.plot p)) ∧
        (b.matches slot rows rowB = true →
          b.present + b.openSlots + b.reserved + (if slot then 1 else rows) ≤ b.units → ∃ t q,
          exec (if slot then .appendSlot ecc else .appendRow ecc) s =
            .next (enqueue { cls := 1, op := 5, dst := k.src, tag := k.tag } t) ∧
          ((t.plot p).pacer.inbox n).resv = b.resv ++ [q] ∧ q.tag = tag ∧ q.slot = slot ∧
          q.units = (if slot then 1 else rows) ∧ q.landed = [(o, k.payload.length)] ∧
          q.start = (b.head + (b.present + b.reserved) * b.unitRows) % b.cap.toNat ∧
          (ecc = [] → t = z.setPlot p (t.plot p)) ∧ z.onlyPlot p t)) ∧
      ((k.op = 5 ∨ k.op = 6) → ∀ c y, c = (if k.op = 5 then 0 else 5) →
        y = { z with router := { z.router with out := s.router.out - 1 } } →
        ((∀ q ∈ s.router.reqs, q.tag ≠ k.tag) → exec (if k.op = 5 then .ack else .nack) s = .next y) ∧
        (∀ q rs, s.router.reqs = q :: rs → q.tag = k.tag → exec (if k.op = 5 then .ack else .nack) s = .next
          (if q.relay then relayAnswer q.owner q.item (decide (c ≠ 0)) { y with router := { y.router with reqs := rs } }
            else dmaAck q.owner q.item q.bytes c { y with router := { y.router with reqs := rs } }))) ∧
      (k.op = 9 → ∀ l n, l = k.arg.toNat % 256 → n = k.arg.toNat / 256 % 4 →
        (s.phys? l = none → exec .credit s = .next z) ∧
        (∀ p b, s.phys? l = some p → (s.plot p).pacer.outboxes[n]? = some b → exec .credit s = .next (z.onPlot p (fun x =>
          x.onPacer (fun q => { q with
            outboxes := q.outboxes.set n
              (if b.credits = 15 then { b with ovf := true } else { b with credits := b.credits + 1 }) }))))) ∧
      (k.op = 0xA → ∀ key d, key = k.arg.toNat % 8 * 16384 + k.src.toNat → d = s.router.srcStreams.get key {} →
        exec .batonDone s = .next { z with router := { z.router with
          srcStreams := s.router.srcStreams.put key { d with undelivered := d.undelivered - 1 } } }) ∧
      (k.op = 0xD →
        (s.router.mbox.length < 64 → exec .mgmt s = .next { z with router := { z.router with
          mbox := s.router.mbox ++ [k] } }) ∧
        (∀ m x, 64 ≤ s.router.mbox.length → s.holder 3 = some m → s.boot.marshals[m]? = some x → exec .mgmt s =
          .next { z with boot := { s.boot with
            marshals := s.boot.marshals.set m { x with drop := satAdd x.drop 1 } } }))) ∧
    (∀ k, s.router.mgmtOut[k]? = none → exec (.mgmtRetry k) s = .next s) ∧
    (∀ k p, s.router.mgmtOut[k]? = some p →
      exec (.mgmtRetry k) s = .next (if s.roleUp 3 then enqueue p s else s)) ∧
    (∀ p t, t = enqueue p s → t = { s with router := { s.router with injQ := t.router.injQ } } ∧
      t.router.injQ.get p.cls.toNat [] = s.router.injQ.get p.cls.toNat [] ++ [{ p with src := s.router.id }] ∧
      ∀ c, c ≠ p.cls.toNat → t.router.injQ.get c [] = s.router.injQ.get c [])

/-- DRAIN_BEGIN stops injection. ROUTE_SWAP without it is refused; drained it swaps the banks at once, else it waits;
DRAIN_END after a pending swap waits, when drained it resumes injection, else it leaves injection stopped. When the
device has drained a waiting swap is made late; 1 ms after its time it is made with every packet discarded,
STEP_FATAL. ROUTE_LOAD writes the shadow bank with the seal open. Each flow-map window starts anew. (R233, R303, R305,
R306, R307, R308, R309, R310, R396, R424, R474) -/
def Obligations.DrainAndSwap : Prop :=
  ∀ (s : State),
    (∀ e v set u rivals, s.atEvent e 0x0C v set u →
      (u.loses (.starter e) rivals = false → exec (.drainBegin e rivals) s = .next (starterEnd e 2 (s.isLate v)
        { u with router := { u.router with injStopped := true } })) ∧
      (u.loses (.starter e) rivals = true → exec (.drainBegin e rivals) s = .next (starterEnd e 4 (s.isLate v) u))) ∧
    (∀ e v set u rivals, s.atEvent e 0x0E v set u → (∀ t f, s.router.swapAt = some (t, f) → f ≠ e) →
      (u.loses (.starter e) rivals = true → exec (.routeSwap e rivals) s = .next (starterEnd e 4 (s.isLate v) u)) ∧
      (u.loses (.starter e) rivals = false → s.router.injStopped = false → exec (.routeSwap e rivals) s = .next (starterEnd e 3 (s.isLate v) u)) ∧
      (u.loses (.starter e) rivals = false → s.router.injStopped = true → s.router.drained = true → exec (.routeSwap e rivals) s =
        .next (starterEnd e 2 (s.isLate v)
          { u with router := { u.router with bank := !s.router.bank, swapAt := none } })) ∧
      (u.loses (.starter e) rivals = false → s.router.injStopped = true → s.router.drained = false → exec (.routeSwap e rivals) s =
        .next { u with router := { u.router with swapAt := some (v.time, e) } })) ∧
    (∀ e v set u rivals, s.atEvent e 0x0D v set u → s.router.endPending ≠ some e →
      (u.loses (.starter e) rivals = true → exec (.drainEnd e rivals) s = .next (starterEnd e 4 (s.isLate v) u)) ∧
      (u.loses (.starter e) rivals = false → s.router.swapAt ≠ none → exec (.drainEnd e rivals) s =
        .next { u with router := { u.router with endPending := some e } }) ∧
      (u.loses (.starter e) rivals = false → s.router.swapAt = none → s.router.drained = true → exec (.drainEnd e rivals) s = .next (starterEnd e 2 (s.isLate v)
        { u with router := { u.router with injStopped := false, drained := false } })) ∧
      (u.loses (.starter e) rivals = false → s.router.swapAt = none → s.router.drained = false →
        exec (.drainEnd e rivals) s = .next (starterEnd e 2 (s.isLate v) u))) ∧
    (s.clocked = true →
      ((s.router.injStopped = false ∨ s.router.drained = true ∨ s.drainedNow = false) →
        exec .deviceDrained s = .next s) ∧
      (s.router.injStopped = true → s.router.drained = false → s.drainedNow = true →
        (s.router.swapAt = none → exec .deviceDrained s = .next { s with router := { s.router with drained := true } }) ∧
        (∀ ts e, s.router.swapAt = some (ts, e) → s.router.endPending = none →
          ∃ t, exec .deviceDrained s = .next t ∧ t.router.bank = !s.router.bank ∧ t.router.swapAt = none ∧
            t.router.swapLate = true ∧ t.router.drained = true ∧ t.router.injStopped = true ∧ (t.ev e).held = none ∧
            t.links = s.links ∧ ∃ r, t.host.recs.head? = some r ∧ r.type = 0x50 ∧ r.cls = 0 ∧
              r.payload = [w32 (s.now.toNat - ts.toNat), 0])) ∧
      (s.router.swapAt = none → exec .swapDeadline s = .next s) ∧
      (∀ ts e u, s.router.swapAt = some (ts, e) → s.router.endPending = none → u = s.advanceTo (ts.toNat + 1000000) →
        ∃ t, exec .swapDeadline s = .next t ∧ t.router.bank = !s.router.bank ∧ t.router.swapAt = none ∧
          t.router.out = 0 ∧ t.router.drained = true ∧ t.commit.cause.getLsbD 0 =
            (s.commit.cause.getLsbD 0 || (s.commit.st != .verdict && s.commit.st != .pending)) ∧
          (∀ l, l < 18 → (t.link l).input = [] ∧ (t.link l).general = [] ∧ (t.link l).bounce = [] ∧ (t.link l).spill = none ∧
            (t.link l).sending = none) ∧ t.router.park = [] ∧ (∀ die, t.router.eject.get die [] = []) ∧
          (s.router.cnt.length = 10 →
            t.router.cnt.getD 7 0 = s.router.cnt.getD 7 0 + BitVec.ofNat 64 s.heldPackets) ∧
          ∃ r, t.host.recs.head? = some r ∧ r.type = 0x50 ∧ r.cls = (if s.heldPackets = 0 then 0 else 4) ∧
            r.payload = [w32 (u.now.toNat - ts.toNat), w32 s.heldPackets]) ∧
      (∀ w (addr : BitVec 64) (first count d : BitVec 32) ecc, s.carries w 0x64 [addr.toNat, first.toNat, count.toNat] = some d →
        ((count = 0 ∨ 16384 < first.toNat + count.toNat ∨ addr.toNat % 4 ≠ 0 ∨ 2 ^ 48 < addr.toNat + 4 * count.toNat) →
          exec (.routeLoad w addr first count ecc) s = .next (answer w d stRange [] s)) ∧
        (count ≠ 0 → first.toNat + count.toNat ≤ 16384 → addr.toNat % 4 = 0 → addr.toNat + 4 * count.toNat ≤ 2 ^ 48 →
          ∀ g, g = (devRead none addr.toNat (4 * count.toNat) ecc s).1 →
          (g.err ≠ 0 → exec (.routeLoad w addr first count ecc) s = .next (answer w d stRange [] s)) ∧
          (g.err = 0 → s.cfgSeal.st ≠ .open → exec (.routeLoad w addr first count ecc) s = .next (answer w d stState [] s)) ∧
          (g.err = 0 → s.cfgSeal.st = .open → ∃ t, exec (.routeLoad w addr first count ecc) s = .next (answer w d stOk [] t) ∧
            (∀ i, i < count.toNat → ∀ v, v = leNat ((g.bytes.drop (4 * i)).take 4) →
              (if s.router.bank then t.router.bank0 else t.router.bank1).get (first.toNat + i) 0 =
                if rtReserved v then (if s.router.bank then s.router.bank0 else s.router.bank1).get (first.toNat + i) 0
                else w32 v &&& 0x7FFFFFFF) ∧
            (∀ n, t.route n = s.route n) ∧
            t.router = { s.router with bank0 := t.router.bank0, bank1 := t.router.bank1 } ∧
            State.sameButEvents { s with router := t.router, plots := t.plots, stks := t.stks } t))) ∧
      (∀ u, u = s.advanceTo (s.router.winStart.toNat + 1000) → ∃ t, exec .flowMapWindowEnd s = .next t ∧
        t.router.winDefl = [] ∧ t.router.winEscal = 0 ∧ t.router.winBounce = 0 ∧ t.router.winInjWait = 0 ∧
        t.router.winStart = BitVec.ofNat 64 (u.now.toNat / 1000 * 1000) ∧
        ((s.router.fmapEn = false ∨ s.router.fmapDepth = 0) → t = { u with router := t.router } ∧
          t.router.fmapPtr = s.router.fmapPtr) ∧
        (s.router.fmapEn = true → s.router.fmapDepth ≠ 0 → s.router.fmapThresh = 0 →
          t.router.fmapPtr = (if s.router.fmapPtr.toNat + 1 < s.router.fmapDepth.toNat then s.router.fmapPtr + 1 else 0))))

/-- HEATSHEET_INSTALL answers RANGE, or REFUSED with the reason it keeps, or puts the Heat Sheet in force: the ID is its
SELF_ID, every link's settle time starts anew, an UP or QUARANTINE link is HELD, and those that exchange Bibs send
theirs again. A pass decides the link, every PENDING one and the other links of the pairs made or dissolved: each
takes the outcome, admission and pair of its decision, a change posts DISCOVERY, and its state follows: QUARANTINE for
a wrong or stale link, HELD while pending, UP where both ends admit it; no other link changes. A link settles once its
time has passed and is then decided. (R317, R319, R320, R322, R323, R324, R326, R327, R328, R396) -/
def Obligations.Discovery : Prop :=
  ∀ (s : State), s.clocked = true →
    (∀ w (addr : BitVec 64) ecc d g z c, s.carries w 0x63 [addr.toNat] = some d → (g, z) = devRead none addr.toNat 352 ecc s →
      c = hsReject g.bytes s.sec.serial.toNat →
      ((addr.toNat % 64 ≠ 0 ∨ 2 ^ 48 < addr.toNat + 352 ∨ g.err ≠ 0) →
        exec (.heatsheetInstall w addr ecc) s = .next (answer w d stRange [] s)) ∧
      (addr.toNat % 64 = 0 → addr.toNat + 352 ≤ 2 ^ 48 → g.err = 0 →
        (c ≠ 0 → exec (.heatsheetInstall w addr ecc) s = .next (answer w d stRefused (pack [(4, c)])
          (caused s.host.jhead d { z with router := { s.router with hsReject := true, hsRejCode := BitVec.ofNat 3 c } }))) ∧
        (c = 0 → ∃ t, exec (.heatsheetInstall w addr ecc) s = .next (answer w d stOk (pack [(4, 0)]) t) ∧
          t.router = { s.router with
            hs := g.bytes, id := BitVec.ofNat 14 (hsSelf g.bytes), idSrc := false
            strapDiff := s.router.strapDiff || hsSelf g.bytes != s.boot.strap.toNat % 2 ^ 14 } ∧
          (∀ l, l < 18 → (t.link l).settled = false ∧ (t.link l).settleFrom = s.now ∧ (t.link l).undecided = true ∧
            (t.link l).st = (if (s.link l).st = .up ∨ (s.link l).st = .quarantine then .held else (s.link l).st) ∧
            ((s.link l).st.flits = true → (t.link l).bibTx = t.ownBib l ∧ (t.link l).bibAcked = false ∧ (t.link l).bibSent = s.now) ∧
            (t.link l).ctlQ = (s.link l).ctlQ ++ (if (s.link l).st.flits then
              [(1, t.ownBib l), (2, BitVec.ofNat 256 (b2n (s.link l).admits))] else [])) ∧
          State.sameButEvents { s with router := t.router, links := t.links, plots := t.plots, stks := t.stks } t))) ∧
    (∀ l, 18 ≤ l → exec (.discoveryPass l) s = .next s) ∧
    (∀ l, l < 18 → ∃ t, exec (.discoveryPass l) s = .next t ∧
      (∀ m, m < 18 → ¬ s.decides l m → t.link m = s.link m) ∧
      (∀ m, m < 18 → s.decides l m → ∀ v, v = s.judge m → (t.link m).undecided = false ∧
        (t.link m).outcome = BitVec.ofNat 3 v.out ∧ (t.link m).admits = v.admits ∧ (t.link m).pair = BitVec.ofNat 5 v.pair ∧
        (t.link m).remap = v.remap ∧ (t.link m).dup = v.dup ∧
        ((s.link m).st.known = false → (t.link m).st = (s.link m).st) ∧
        ((s.link m).st.known = true → (t.link m).st =
          if v.out = 4 ∨ v.out = 5 ∨ (v.out = 2 ∧ v.admits = false) then .quarantine
          else if v.out = 7 then .held
          else if v.admits then (if (s.link m).peerAdmit then .up else .held)
          else if (s.link m).st = .up then .held else (s.link m).st) ∧
        (((s.link m).outcome.toNat ≠ v.out ∨ (s.link m).admits ≠ v.admits) → t.router.hsChange = true ∧
          ∃ r ∈ t.host.recs.take 128, r.type = 0x48 ∧ r.index = BitVec.ofNat 16 m)) ∧
      State.sameButEvents { s with links := t.links, router := { s.router with hsChange := t.router.hsChange } } t) ∧
    (∀ l, (18 ≤ l ∨ ((s.link l).settled = true ∧ s.settledAt l = true)) → exec (.linkSettle l) s = .next s) ∧
    (∀ l u, l < 18 → ((s.link l).settled = false ∨ s.settledAt l = false) →
      u = s.advanceTo ((s.link l).settleFrom.toNat + s.router.settle.toNat * 1000000) →
      ∃ t, exec (.discoveryPass l) (u.setLink l { u.link l with settled := true }) = .next t ∧
        exec (.linkSettle l) s = .next t)

/-- GROUP_LOAD answers RANGE, OWNER, STATE or REFUSED in that order, the last two RANGE and REFUSED by the member list it
reads, or holds the group with its size, generation, this device's rank and its window; GROUP_UNLOAD drops it.
COLL_STATUS answers the context's word and SEQ. COLL_ABORT answers RANGE, STATE, OWNER or SUPERSEDED, or frees a
POSTED context with code 5, or has rank 0 abort one that has launched, once the context's tables can be read. Other
groups stay. (R334, R335, R341, R351, R363, R365, R395, R396) -/
def Obligations.RelayCommands : Prop :=
  ∀ (s : State) (w : Win), s.clocked = true →
    (∀ (group n gen : BitVec 32) (list : BitVec 64) ecc d g, s.carries w 0x40 [group.toNat, n.toNat, gen.toNat, list.toNat] = some d →
      g = group.toNat →
      ((4096 ≤ g ∨ n = 0 ∨ 16384 < n.toNat ∨ 65536 ≤ gen.toNat ∨ 2 ^ 48 ≤ list.toNat) →
        exec (.groupLoad w group n gen list ecc) s = .next (answer w d stRange [] s)) ∧
      (g < 4096 → n ≠ 0 → n.toNat ≤ 16384 → gen.toNat < 65536 → list.toNat < 2 ^ 48 →
        (∀ o, s.relay.groups.get? g = some o → o.jcw ≠ winJcw w →
          exec (.groupLoad w group n gen list ecc) s = .next (answer w d stOwner [] s)) ∧
        ((∀ o, s.relay.groups.get? g = some o → o.jcw = winJcw w) →
          (s.groupUsed g = true → exec (.groupLoad w group n gen list ecc) s = .next (answer w d stState [] s)) ∧
          (∀ z, s.groupUsed g = false → readWords list.toNat 2 n.toNat ecc s = (none, z) →
            exec (.groupLoad w group n gen list ecc) s = .next (answer w d stRange [] (caused s.host.jhead d z))) ∧
          (∀ ids z, s.groupUsed g = false → readWords list.toNat 2 n.toNat ecc s = (some ids, z) →
            ((¬ ids.Nodup ∨ s.router.id.toNat ∉ ids) →
              exec (.groupLoad w group n gen list ecc) s = .next (answer w d stRefused [] (caused s.host.jhead d z))) ∧
            (ids.Nodup → s.router.id.toNat ∈ ids → ∃ t o,
              exec (.groupLoad w group n gen list ecc) s = .next (answer w d stOk [] (caused s.host.jhead d t)) ∧
              t.relay.groups.get? g = some o ∧ o.n = n.toNat ∧ o.gen = gen.setWidth 16 ∧ o.list.toNat = list.toNat ∧
              ids[o.rank]? = some s.router.id.toNat ∧ o.jcw = winJcw w ∧
              (∀ k, k ≠ g → t.relay.groups.get? k = s.relay.groups.get? k) ∧
              t = { z with relay := { s.relay with groups := t.relay.groups } } ∧
              State.sameButEvents { s with plots := z.plots, stks := z.stks } z))))) ∧
    (∀ (group : BitVec 32) d g, s.carries w 0x41 [group.toNat] = some d → g = group.toNat →
      (4096 ≤ g → exec (.groupUnload w group) s = .next (answer w d stRange [] s)) ∧
      (g < 4096 → s.relay.groups.get? g = none → exec (.groupUnload w group) s = .next (answer w d stState [] s)) ∧
      (∀ o, g < 4096 → s.relay.groups.get? g = some o →
        (o.jcw ≠ winJcw w → exec (.groupUnload w group) s = .next (answer w d stOwner [] s)) ∧
        (o.jcw = winJcw w → s.groupUsed g = true → exec (.groupUnload w group) s = .next (answer w d stState [] s)) ∧
        (o.jcw = winJcw w → s.groupUsed g = false → ∃ t,
          exec (.groupUnload w group) s = .next (answer w d stOk [] t) ∧ t.relay.groups.get? g = none ∧
          (∀ k, k ≠ g → t.relay.groups.get? k = s.relay.groups.get? k) ∧
          t = { s with relay := { s.relay with groups := t.relay.groups } }))) ∧
    (∀ (ctx : BitVec 32) d, s.carries w 0x44 [ctx.toNat] = some d →
      (128 ≤ ctx.toNat → exec (.collStatus w ctx) s = .next (answer w d stRange [] s)) ∧
      (ctx.toNat < 128 → exec (.collStatus w ctx) s = .next (answer w d stOk
        (leBytes 4 (s.ctx ctx.toNat).word ++ leBytes 4 (s.ctx ctx.toNat).d.seq) s))) ∧
    (∀ (ctx seq d : BitVec 32) c x, s.carries w 0x43 [ctx.toNat, seq.toNat] = some d → c = ctx.toNat → x = s.ctx c →
      (128 ≤ c → ∀ rivals, exec (.collAbort w ctx seq rivals) s = .next (answer w d stRange [] s)) ∧
      (c < 128 → (x.st = .free ∨ x.st = .closing ∨ x.d.seq ≠ seq.toNat) →
        ∀ rivals, exec (.collAbort w ctx seq rivals) s = .next (answer w d stState [] s)) ∧
      (c < 128 → x.st ≠ .free → x.st ≠ .closing → x.d.seq = seq.toNat →
        (x.jcw ≠ winJcw w → ∀ rivals, exec (.collAbort w ctx seq rivals) s = .next (answer w d stOwner [] s)) ∧
        (∀ rivals, x.jcw = winJcw w → s.loses (winOrder w) rivals = true →
          exec (.collAbort w ctx seq rivals) s = .next (answer w d stSuperseded [] s)) ∧
        (∀ rivals, x.jcw = winJcw w → s.loses (winOrder w) rivals = false →
          (x.st = .posted → exec (.collAbort w ctx seq rivals) s = .next (answer w d stOk (pack [(4, 1)])
            (s.onCtx c (fun _ => { status := 5, jcw := x.jcw, desc := x.desc, posted := x.posted })))) ∧
          ((x.st = .rendezvous ∨ x.st = .running) → ∀ a : AbortMsg,
            a = { code := 5, rank := (s.grp x).rank, own := x.digest, other := x.digest, missing := [] } →
            exec (.collAbort w ctx seq rivals) s = .next (answer w d stOk (pack [(4, if x.st = .running then 3 else 2)])
              (caused s.host.jhead d (withTables c { kind := .ask, msg := some a } (fun s =>
                if (s.grp x).rank = 0 then abortDown c a s else msgRank x 0 4 (abortBody a) s) s)))))))

/-- COLL_POST is refused with the first reason that holds, sets REFUSED and changes nothing else; otherwise the lowest
free context holds the collective, POSTED, and with LAUNCH 0 it launches at once. COLL_LAUNCH launches a POSTED
context of LAUNCH 1 and is refused on any other. Flags launch the first posted context whose flags are all set and
clear them, not in RETAIN. A launched context is in RENDEZVOUS; a member other than rank 0 sends its POST, once the
context's tables can be read. (R207, R233, R341, R342, R343, R344, R345, R346, R464) -/
def Obligations.CollectiveLaunch : Prop :=
  ∀ (s : State), s.clocked = true →
    (∀ w (desc : List Byte) d x r, s.carries w 0x42 [leNat desc] = some d → x = s.newCtx desc (winJcw w) →
      r = { s with relay := { s.relay with sRefused := true } } →
      (s.sec.clearing = true → exec (.collPost w desc) s = .next (answer w d stState [] r)) ∧
      (s.sec.clearing = false →
        (s.postRsv x = true → exec (.collPost w desc) s = .next (answer w d (stColl 10) [] r)) ∧
        (s.postRsv x = false →
          (s.relay.groups.get? x.d.group = none → exec (.collPost w desc) s = .next (answer w d (stColl 8) [] r)) ∧
          (s.relay.groups.get? x.d.group ≠ none →
            (s.liveCtx x.d.group (w32 x.d.seq) ≠ none → exec (.collPost w desc) s = .next (answer w d (stColl 9) [] r)) ∧
            (s.liveCtx x.d.group (w32 x.d.seq) = none →
              ((∀ c, c < 128 → (s.ctx c).st ≠ .free) →
                exec (.collPost w desc) s = .next (answer w d (stColl 1) [] r)) ∧
              (∀ c, c < 128 → (s.ctx c).st = .free → (∀ b, b < c → (s.ctx b).st ≠ .free) →
                (∀ e, e ≠ 0 → s.postRange x = e → exec (.collPost w desc) s = .next (answer w d (stColl e) [] r)) ∧
                (s.postRange x = 0 →
                  ((s.storeFree (c % 4) < x.store ∨ (x.d.op = 7 ∧ x.d.scratchBytes < s.overSource x)) →
                    exec (.collPost w desc) s = .next (answer w d (stColl 2) [] r)) ∧
                  (x.store ≤ s.storeFree (c % 4) → (x.d.op = 7 → s.overSource x ≤ x.d.scratchBytes) → ∃ t,
                    exec (.collPost w desc) s =
                      .next (answer w d stOk (pack [(4, c)]) (caused s.host.jhead d (if x.d.launch = 0 then launchCtx c t else t))) ∧
                    t.ctx c = x ∧ x.st = .posted ∧ x.posted = s.relay.nposts ∧ t.relay.nposts = s.relay.nposts + 1 ∧
                    (∀ b, b ≠ c → t.ctx b = s.ctx b) ∧ t = { s with relay := { s.relay with
                      ctxs := t.relay.ctxs, nposts := t.relay.nposts, cnt := t.relay.cnt } })))))))) ∧
    (∀ e v set u c rivals, s.atEvent e 5 v set u → c = v.argA.toNat % 128 →
      (u.loses (.starter e) rivals = true → exec (.collLaunch e rivals) s = .next (starterEnd e 4 (s.isLate v) u)) ∧
      (u.loses (.starter e) rivals = false → (s.ctx c).st = .posted → (s.ctx c).d.launch = 1 →
        exec (.collLaunch e rivals) s = .next (starterEnd e 2 (s.isLate v) (launchCtx c u))) ∧
      (u.loses (.starter e) rivals = false → ((s.ctx c).st ≠ .posted ∨ (s.ctx c).d.launch ≠ 1) →
        exec (.collLaunch e rivals) s = .next (starterEnd e 3 (s.isLate v) u))) ∧
    (∀ f m, m = s.relay.rdy.get f 0 →
      ((∀ c, c < 128 → (s.ctx c).st = .posted → (s.ctx c).d.launch = 2 → (s.ctx c).d.rdyFlag = f →
        m &&& (s.ctx c).d.rdySet ≠ (s.ctx c).d.rdySet) → exec (.flagsLaunch f) s = .next s) ∧
      ((s.power.st = .retain ∨ s.power.st = .idle) → exec (.flagsLaunch f) s = .next s) ∧
      (∀ c, c < 128 → (s.ctx c).st = .posted → (s.ctx c).d.launch = 2 → (s.ctx c).d.rdyFlag = f →
        m &&& (s.ctx c).d.rdySet = (s.ctx c).d.rdySet → s.power.st ≠ .retain → s.power.st ≠ .idle →
        (∀ b, b < 128 → b ≠ c → (s.ctx b).st = .posted → (s.ctx b).d.launch = 2 → (s.ctx b).d.rdyFlag = f →
          m &&& (s.ctx b).d.rdySet = (s.ctx b).d.rdySet → (s.ctx c).posted < (s.ctx b).posted) →
        exec (.flagsLaunch f) s = .next (launchCtx c { s with relay := { s.relay with
          rdy := s.relay.rdy.put f (m &&& ~~~ (s.ctx c).d.rdySet) } }))) ∧
    ((∀ c, c < 128 → (s.ctx c).st = .posted → (s.ctx c).d.launch ≠ 3) → launchVerdict s = s) ∧
    (∀ c z, z = collCount 1 1 (s.onCtx c (fun x => { x with st := .rendezvous, launchAt := s.now, lastRx := s.now })) →
      launchCtx c s = withTables c { kind := .launch } (sendPost c) z) ∧
    (∀ c t x, t = launchCtx c s → x = s.ctx c → (s.grp x).rank ≠ 0 → s.relay.cnt.length = 8 → s.tablesReady c →
      t.ctx c = { x with st := .rendezvous, launchAt := s.now, lastRx := s.now } ∧ (∀ b, b ≠ c → t.ctx b = s.ctx b) ∧
      t.relay.cnt.getD 1 0 = s.relay.cnt.getD 1 0 + 1 ∧
      t.router.injQ.get 11 [] = s.router.injQ.get 11 [] ++ [{ collMsg (s.rankDev (s.grp x) 0) x.d.group x.d.seq 1
        (s.grp x).rank (leBytes 8 x.digest.toNat) with src := s.router.id }] ∧
      t = { s with relay := t.relay, router := { s.router with injQ := t.router.injQ } })

/-- A POST is kept with its context, or with the early ones while fewer than 256 wait, else answered with RETRY; in
RENDEZVOUS rank 0 sends GO when all N agree, or aborts with the lowest rank whose digest differs. A RETRY sends the
POST again 10 µs later. GO takes a context in RENDEZVOUS to RUNNING, and one of ALL_TO_ALL_V or PERMUTE waits for its
counts. ABORT ends a context that has launched and is forwarded. A context whose tables cannot be read keeps what it
has to do, and fails where they are not mapped. Messages for no live context are counted. (R346, R348, R349, R350,
R351, R361, R363) -/
def Obligations.CollectiveRendezvous : Prop :=
  ∀ (s : State), s.clocked = true →
    (∀ group seq, s.liveCtx group seq = none → s.relay.cnt.length = 8 → ∃ t,
      t = { s with relay := { s.relay with cnt := t.relay.cnt } } ∧ t.relay.cnt.getD 6 0 = s.relay.cnt.getD 6 0 + 1 ∧
      (exec (.retry group seq) s = .next t) ∧ (exec (.go group seq) s = .next t) ∧
      (∀ a, exec (.abort group seq a) s = .next t) ∧ (∀ r n, exec (.collCount group seq r n) s = .next t) ∧
      (∀ r, exec (.collCredit group seq r) s = .next t)) ∧
    (∀ src group seq rank digest, s.liveCtx group seq = none →
      (s.relay.early.length < 256 → exec (.post src group seq rank digest) s = .next { s with relay := { s.relay with
        early := s.relay.early ++ [(group, seq, rank, digest)] } }) ∧
      (256 ≤ s.relay.early.length → exec (.post src group seq rank digest) s =
        .next (enqueueAt 1 (collMsg src group seq.toNat 2 0 []) s))) ∧
    (∀ src group seq rank digest c x z, s.liveCtx group seq = some c → x = s.ctx c →
      z = s.onCtx c (fun x => { x with posts := x.posts.filter (fun p => p.1 != rank) ++ [(rank, digest)] }) →
      (x.st = .posted → exec (.post src group seq rank digest) s = .next z) ∧
      (x.st = .rendezvous → exec (.post src group seq rank digest) s =
        .next (withTables c { kind := .zero } (rankZero c) z)) ∧
      ((x.st = .running ∨ x.st = .closing) → exec (.post src group seq rank digest) s = .next s)) ∧
    (∀ c x, x = s.ctx c →
      ((∀ p ∈ x.posts, p.2 = x.digest) → x.posts.length ≠ (s.grp x).n → rankZero c s = s) ∧
      ((∀ p ∈ x.posts, p.2 = x.digest) → x.posts.length = (s.grp x).n → rankZero c s = goCtx c s) ∧
      (∀ p ∈ x.posts, p.2 ≠ x.digest → (∀ q ∈ x.posts, q.2 ≠ x.digest → q = p ∨ p.1 < q.1) → rankZero c s =
        abortDown c { code := 3, rank := p.1, own := x.digest, other := p.2, missing := [] } s)) ∧
    (∀ group seq c, s.liveCtx group seq = some c → exec (.retry group seq) s = .next (if (s.ctx c).st = .rendezvous then
      s.onCtx c (fun x => { x with retry := some s.now }) else s)) ∧
    (∀ c, (s.ctx c).retry = none → exec (.postRetryTimer c) s = .next s) ∧
    (∀ c x t0 u, x = s.ctx c → x.retry = some t0 → u = s.advanceTo (t0.toNat + 10000) → ∃ t,
      exec (.postRetryTimer c) s = .next t ∧ t.ctx c = { x with retry := none } ∧ (∀ b, b ≠ c → t.ctx b = s.ctx b) ∧
      t.router.injQ.get 11 [] = s.router.injQ.get 11 [] ++ [{ collMsg (u.rankDev (u.grp x) 0) x.d.group x.d.seq 1
        (u.grp x).rank (leBytes 8 x.digest.toNat) with src := u.router.id }]) ∧
    (∀ group seq c, s.liveCtx group seq = some c →
      exec (.go group seq) s = .next (if (s.ctx c).st = .rendezvous then withTables c { kind := .go } (goCtx c) s else s)) ∧
    (∀ (c : Nat) (a : RelayAct) (f : State → State), (s.tablesReady c → withTables c a f s = f s) ∧
      (s.tablesWait (s.ctx c) = true → withTables c a f s = { s with relay := { s.relay with
        acts := s.relay.acts ++ [{ a with ctx := c, posted := (s.ctx c).posted }] } }) ∧
      (s.tablesWait (s.ctx c) = false → s.tablesOk (s.ctx c) = false → withTables c a f s = failCtx c 11 0 false none none s)) ∧
    (∀ c x t, x = s.ctx c → t = goCtx c s → 6 ≤ x.d.op → x.finished = false →
      (x.counts.filter (fun e => e.1 != (s.grp x).rank)).length + 1 ≠ (s.grp x).n →
      t.ctx c = { x with st := .running, lastRx := s.now, retry := none,
                         counts := ((s.grp x).rank, runTotal (s.sendRuns x (s.grp x).rank)) :: x.counts } ∧
      (∀ b, b ≠ c → t.ctx b = s.ctx b) ∧
      t = { s with relay := t.relay, router := { s.router with injQ := t.router.injQ } }) ∧
    (∀ group seq a c, s.liveCtx group seq = some c →
      exec (.abort group seq a) s = .next (withTables c { kind := .abort, msg := some a } (takeAbort c a) s)) ∧
    (∀ group seq a c x, s.liveCtx group seq = some c → x = s.ctx c → s.tablesReady c →
      (x.st = .closing → (s.grp x).rank = 0 → exec (.abort group seq a) s = .next s) ∧
      (x.st = .closing → (s.grp x).rank ≠ 0 → a.code ≠ 4 →
        exec (.abort group seq a) s = .next (msgDown x 4 (abortBody a) s)) ∧
      (x.st = .closing → (s.grp x).rank ≠ 0 → a.code = 4 → exec (.abort group seq a) s = .next (writeMissing a.missing
        ((msgDown x 4 (abortBody a) s).onCtx c (fun x => { x with missing := a.missing })))) ∧
      (x.st ≠ .closing → exec (.abort group seq a) s = .next (abortDown c a s))) ∧
    (∀ c code rank part other miss t x, t = failCtx c code rank part other miss s → x = s.ctx c →
      ((x.st ≠ .rendezvous ∧ x.st ≠ .running) → t = s) ∧
      ((x.st = .rendezvous ∨ x.st = .running) → code < 16 → rank < 2 ^ 14 →
        (t.ctx c).st = (if x.unacked = 0 then .free else .closing) ∧ (t.ctx c).status = BitVec.ofNat 4 code ∧
        (t.ctx c).toSend = [] ∧ (t.ctx c).held = [] ∧ t.relay.errValid = true ∧
        (s.relay.errValid = false → t.relay.errCode.toNat = code ∧ t.relay.errRank.toNat = rank) ∧
        (∃ r ∈ t.host.recs.take 2, r.type = 0x60 ∧ r.cls = 4 ∧ r.index = BitVec.ofNat 16 c ∧
          r.payload = [w32 code, w32 x.d.group, w32 x.d.seq, w32 rank])))

/-- A count is kept; where RECV names another the collective aborts with the sender's rank, and with all counts held data
moves. A credit is added for its sender. A block is kept in RENDEZVOUS or while counts or memory are missing, taken in
RUNNING, acknowledged to its sender, NACKed where its destination is not mapped, and otherwise only acknowledged. A
block to send up waits for a credit. A piece whose bytes have all moved is done, its tag written, and makes its RAISE.
A timeout fails the context with code 4 and the missing ranks, through rank 0 in RENDEZVOUS. What reads the context's
tables waits while they cannot be read. (R294, R333, R349, R350, R351, R352, R353, R356, R357, R358, R361, R362) -/
def Obligations.CollectiveData : Prop :=
  ∀ (s : State), s.clocked = true →
    (∀ group seq rank count c x z, s.liveCtx group seq = some c → x = s.ctx c →
      z = s.onCtx c (fun x => { x with lastRx := s.now }) →
      ((x.st = .posted ∨ x.st = .closing ∨ x.d.op < 6) → exec (.collCount group seq rank count) s = .next s) ∧
      ((x.st = .rendezvous ∨ x.st = .running) → 6 ≤ x.d.op → exec (.collCount group seq rank count) s =
        .next (withTables c { kind := .count, rank, count } (takeCount c rank count) z))) ∧
    (∀ c rank count x z want, x = s.ctx c → (x.st = .rendezvous ∨ x.st = .running) →
      z = s.onCtx c (fun x => { x with counts := x.counts.filter (fun e => e.1 != rank) ++ [(rank, count)] }) →
      want = (if x.d.op = 7 then runTotal (s.recvRuns x rank) else ((s.devWords (x.d.recv + 4 * rank) 4 1).getD []).headD 0) →
      (x.d.learn = false →
        (want ≠ count → takeCount c rank count s =
          askAbort c { code := 3, rank, own := x.digest, other := x.digest, missing := [] } z) ∧
        (want = count → x.st = .rendezvous → takeCount c rank count s = z) ∧
        (want = count → x.st = .running → takeCount c rank count s = closeIfDone c (startIfReady c z))) ∧
      (x.d.learn = true → ∀ e y, (e, y) = devWrite none (x.d.recv + 4 * rank) (leBytes 4 count) [] [] z →
        (e ≠ 0 → takeCount c rank count s = failCtx c 11 0 false none none y) ∧
        (e = 0 → x.st = .rendezvous → takeCount c rank count s = y) ∧
        (e = 0 → x.st = .running → takeCount c rank count s = closeIfDone c (startIfReady c y)))) ∧
    (∀ group seq rank c, s.liveCtx group seq = some c →
      exec (.collCredit group seq rank) s = .next (if (s.ctx c).st = .rendezvous ∨ (s.ctx c).st = .running then
        s.onCtx c (fun x => { x with lastRx := s.now, credits := x.credits.upd rank 0 (· + 1) }) else s)) ∧
    (∀ (b : CollBlock) op arg t, t = answerBlock op arg b s → t.router.injQ.get 1 [] = s.router.injQ.get 1 [] ++
        b.pkts.map (fun g => ({ cls := 1, op, dst := b.dev, src := s.router.id, tag := g, arg } : Packet)) ∧
      t = { s with router := { s.router with injQ := t.router.injQ } }) ∧
    (∀ group seq b ecc,
      (s.liveCtx group seq = none →
        exec (.collData group seq b ecc) s = .next (answerBlock 5 0 b (collCount 6 b.pkts.length s))) ∧
      (∀ c x n rx, s.liveCtx group seq = some c → x = s.ctx c →
        n = collPayload (x.d.sendBytes b.up (decide (b.b - b.a = 1))) b.data.length b.tags.length →
        rx = (fun t => answerBlock 5 0 b (collCount 5 n t)) →
        (x.st = .rendezvous → exec (.collData group seq b ecc) s = .next (rx (keepEarly c b s))) ∧
        (x.st = .running → s.tablesWait x = true → exec (.collData group seq b ecc) s = .next (rx (stageBlock c b s))) ∧
        (x.st = .running → s.tablesWait x = false → s.tablesOk x = false →
          exec (.collData group seq b ecc) s = .next (answerBlock 6 1 b (failCtx c 11 0 false none none s))) ∧
        (x.st = .running → s.tablesReady c → 6 ≤ x.d.op → s.countsHeld x = false →
          exec (.collData group seq b ecc) s = .next (rx (keepEarly c b s))) ∧
        (x.st = .running → s.tablesReady c → (x.d.op < 6 ∨ s.countsHeld x = true) →
          (takeBlock c b ecc s = none → exec (.collData group seq b ecc) s = .next (rx (stageBlock c b s))) ∧
          (∀ t, takeBlock c b ecc s = some t → exec (.collData group seq b ecc) s =
            .next (if (t.ctx c).st = .running then closeIfDone c (rx t) else answerBlock 6 1 b t))) ∧
        ((x.st = .posted ∨ x.st = .closing) → exec (.collData group seq b ecc) s = .next (answerBlock 5 0 b s)))) ∧
    (∀ c b, keepEarly c b s = s.onCtx c (fun x => { x with early := x.early ++ [b], lastRx := s.now }) ∧
      stageBlock c b s = s.onCtx c (fun x => { x with
        early := x.early ++ [b], lastRx := s.now, toSend := x.toSend ++ [{ kind := 3 }] })) ∧
    (s.relay.acts = [] → catchUp s = s) ∧
    (∀ c k ecc z x, z = catchUp s → x = z.ctx c →
      ((x.toSend[k]? = none ∨ x.st ≠ .running ∨ z.tablesWait x = true) → exec (.collBlockSend c k ecc) s = .next z) ∧
      (∀ e, x.toSend[k]? = some e → x.st = .running → z.tablesWait x = false → z.tablesOk x = false →
        exec (.collBlockSend c k ecc) s = .next (failCtx c 11 0 false none none z)) ∧
      (∀ e, x.toSend[k]? = some e → x.st = .running → z.tablesReady c →
        (sendOne c e ecc z = none → exec (.collBlockSend c k ecc) s = .next z) ∧
        (∀ t, sendOne c e ecc z = some t → exec (.collBlockSend c k ecc) s = .next (closeIfDone c (releaseHeld c t))) ∧
        (∀ a b h, e.kind = 0 → parentOf ((z.grp x).n * x.d.nleaf) (e.shard * x.d.nleaf) e.a e.b = some (a, b, h) →
          h / x.d.nleaf ≠ (z.grp x).rank → x.credits.get (h / x.d.nleaf) 0 = 0 →
          exec (.collBlockSend c k ecc) s = .next z) ∧
        (∀ q, e.kind = 1 → e.a ≠ (z.grp x).rank → x.block? false e.shard 0 0 e.blk = some q → ecc = [] →
          x.held = [] → x.toSend.erase e ≠ [] → ∃ t y, exec (.collBlockSend c k ecc) s = .next t ∧
          y = sendBlock c e.a e q.data q.tags (z.onCtx c (fun x => { x with toSend := x.toSend.erase e })) ∧
          (t.ctx c).toSend = x.toSend.erase e ∧ t.router = y.router ∧ t.host = z.host))) ∧
    (∀ c r e data tags t, t = sendBlock c r e data tags s → data ≠ [] →
      (t.ctx c).unacked = (s.ctx c).unacked + t.router.reqs.length - s.router.reqs.length ∧
      s.router.reqs.length < t.router.reqs.length ∧
      t = { s with relay := t.relay, router := { s.router with
        injQ := t.router.injQ, nextTag := t.router.nextTag, reqs := t.router.reqs } }) ∧
    (∀ c dst i x pc, x = s.ctx c → pc = (if dst then x.dst else x.src).getD i { done := true } →
      ((x.st ≠ .running ∨ s.tablesWait x = true ∨ pc.done = true ∨ pc.left ≠ 0 ∨ (5 < x.d.op ∧ s.countsHeld x = false)) →
        exec (.pieceComplete c dst i) s = .next s) ∧
      (∀ p o n fin, (s.ctxPieces x dst).find? (fun e => e.2.2.2 == i) = some (p, o, n, i) → x.st = .running →
        s.tablesWait x = false → pc.done = false → pc.left = 0 → (5 < x.d.op → s.countsHeld x = true) →
        (p.kind = 2 → dst = false → ∀ g ∈ pc.segs, (pc.served.get? g.1).isSome = true) →
        fin = (fun z : State => closeIfDone c (pieceRaise p (z.onCtx c (fun x =>
          if dst then { x with dst := listUpd x.dst i (fun q => { q with done := true }) }
          else { x with src := listUpd x.src i (fun q => { q with done := true }) })))) →
        (¬(dst = true ∧ p.kind = 1 ∧ p.tag = true) → ¬(dst = true ∧ p.kind = 3) →
          exec (.pieceComplete c dst i) s = .next (fin s)) ∧
        (dst = true → p.kind = 1 → p.tag = true → ∀ v y e z, (v, y) = tagRecord pc s →
          (e, z) = devWrite none (p.at n) (leBytes 8 v) [] [] y →
          exec (.pieceComplete c dst i) s = .next (if e = 0 then fin z else failCtx c 11 0 false none none z)) ∧
        (dst = true → p.kind = 3 → ∃ ws : List (BitVec 32), ws.length = 16 ∧
          exec (.pieceComplete c dst i) s = .next (fin (takeResult ws s))))) ∧
    (∀ c x, x = s.ctx c → (x.st = .free ∨ x.st = .posted ∨ x.st = .closing) → exec (.collTimeout c) s = .next s) ∧
    (∀ c x u, x = s.ctx c → x.st = .rendezvous → u = s.advanceTo (x.launchAt.toNat + s.collTimeout x) →
      (u.tablesWait x = true → exec (.collTimeout c) s = .next u) ∧
      (∀ m, u.tablesWait x = false → (s.grp x).rank = 0 →
        m = (List.range (s.grp x).n).filter (fun r => !x.posts.any (fun p => p.1 == r)) →
        exec (.collTimeout c) s = .next (abortDown c
          { code := 4, rank := m.headD 0, own := x.digest, other := x.digest, missing := m } u)) ∧
      (∀ m, u.tablesWait x = false → (s.grp x).rank ≠ 0 → m = subtreeOf (s.grp x).n x.d.nleaf (s.grp x).rank →
        exec (.collTimeout c) s = .next (failCtx c 4 (m.headD 0) true none (some m) u))) ∧
    (∀ c x u m, x = s.ctx c → x.st = .running → u = s.advanceTo (x.lastRx.toNat + s.collTimeout x) →
      m = (List.range (s.grp x).n).filter (fun r => if 6 ≤ x.d.op ∧ s.countsHeld x = false then
          r != (s.grp x).rank && !x.counts.any (fun e => e.1 == r)
        else x.awaited.any (fun e => e.1 == r && e.2 != 0)) →
      exec (.collTimeout c) s = .next (if u.tablesWait x then u else failCtx c 4 (m.headD 0) false none (some m) u)) ∧
    (∀ c x t, t = closeIfDone c s → x = s.ctx c → ((x.st ≠ .running ∨ x.finished = false) → t = s) ∧
      (x.st = .running → x.finished = true → x.poison = false → (t.ctx c).status = 0 ∧
        (t.ctx c).st = (if x.unacked = 0 then .free else .closing)))

/-- A gather waits while the controller is PENDING, unless its segment is STATIC. One of a segment that is not valid gets
zeros, of the size it had at the post, and SEG_ERR. Without an expectation it is served the step its segment serves,
with that step's tag. One that expects a later step waits while the policy says so and its timeout has not passed; a
step that differs otherwise is recorded as GATHER_STALE with the cause STALE, and served from the found half. A
waiting gather is tried again alone. (R194, R206, R210, R211, R212, R213, R214, R359) -/
def Obligations.GathersServed : Prop :=
  ∀ (s : State) (k : Nat), s.clocked = true →
    (∀ q : Gather, (s.gatherPiece q.ctx k q.seg = none ∨ (q.ctx, q.seg) ∈ (s.sluice k).waiting) →
      exec (.sluiceGatherServe k q) s = .next s) ∧
    (∀ j, (s.sluice k).waiting.length ≤ j → exec (.gatherWaitRetry k j) s = .next s) ∧
    (∀ j c seg rest, takeAt (s.sluice k).waiting j = some ((c, seg), rest) → ∀ z, z = s.onSluice k (fun x =>
        { x with waiting := rest }) →
      (z.gatherPiece c k seg = none → exec (.gatherWaitRetry k j) s = .next z) ∧
      (∀ i, z.gatherPiece c k seg = some i → exec (.gatherWaitRetry k j) s = .next (gather k c i seg z))) ∧
    (∀ q : Gather, ∀ i, s.gatherPiece q.ctx k q.seg = some i → (q.ctx, q.seg) ∉ (s.sluice k).waiting →
      exec (.sluiceGatherServe k q) s = .next (gather k q.ctx i q.seg (tagFault k q.seg q.tagErr s)) ∧
      (q.tagErr = none → tagFault k q.seg q.tagErr s = s)) ∧
    (∀ c i seg e z x t n wait, (e, z) = readSeg k seg s → x = s.ctx c → t = gather k c i seg s →
      n = (((x.src.getD i {}).segs.find? (fun g => g.1 == seg)).map (fun g => g.2.1 * g.2.2)).getD 0 → i < x.src.length →
      wait = z.onSluice k (fun x => { x with waiting := x.waiting ++ [(c, seg)] }) →
      (s.commit.st = .pending →
        (e.static = false ∨ e.valid = false ∨ (z.sluice k).cur.smapCount.toNat ≤ seg ∨ seg ∈ (z.sluice k).rejected) → t = wait) ∧
      ((e.valid = false ∨ (z.sluice k).cur.smapCount.toNat ≤ seg ∨ seg ∈ (z.sluice k).rejected) → s.commit.st ≠ .pending →
        (t.sluice k).segErr = true ∧
        ((t.ctx c).src.getD i {}).served.get? seg = some { bytes := List.replicate n 0, tag := s.commit.step }) ∧
      (seg < (z.sluice k).cur.smapCount.toNat → e.valid = true → seg ∉ (z.sluice k).rejected →
        (e.static = true ∨ s.commit.st ≠ .pending) →
        (z.hbmWaits (arrAddr e.cc e.ccBytes ((s.served k seg).toNat % 2) 0) n = true → t = wait) ∧
        (z.hbmWaits (arrAddr e.cc e.ccBytes ((s.served k seg).toNat % 2) 0) n = false →
          ((e.static = true ∨ (x.d.expect = 0 ∧ x.d.holdOp = 0)) →
            ∃ v, ((t.ctx c).src.getD i {}).served.get? seg = some v ∧ v.tag = s.served k seg ∧
              (∀ r, s.hbmRead (arrAddr e.cc e.ccBytes ((s.served k seg).toNat % 2) 0) n = some r → v.bytes = r.1) ∧
              (t.sluice k).waiting = (s.sluice k).waiting) ∧
          (∀ want : BitVec 31, e.static = false → x.d.expect = 1 → want = BitVec.ofNat 31 x.d.stepArg → s.served k seg ≠ want →
            ((s.served k seg).toNat < want.toNat → s.commit.stalePolicy = false →
              s.now.toNat < x.launchAt.toNat + s.collTimeout x → t = wait) ∧
            ((want.toNat ≤ (s.served k seg).toNat ∨ s.commit.stalePolicy = true ∨
                x.launchAt.toNat + s.collTimeout x ≤ s.now.toNat) →
              (t.sluice k).stale = true ∧
              ((s.sluice k).stale = false → (t.sluice k).stale0.toNat = seg % 2 ^ 18 ∧ (t.sluice k).stale1 = want ∧
                (t.sluice k).stale2 = s.served k seg) ∧
              (if s.commit.st = .verdict then t.commit.nextCause else t.commit.cause).getLsbD 5 = true ∧
              (∃ v, ((t.ctx c).src.getD i {}).served.get? seg = some v ∧ v.tag = s.served k seg))))))

/-- For every command and state, a step with that command in front of the queue answers what the command's meaning answers
on the same state with the rest of the queue. With nothing waiting, a step answers a next state whose queue is empty.
(R393, R396) -/
def Obligations.StepTakesFront : Prop :=
  (∀ (c : Instr) (rest : List Instr) (s : State),
    step { s with pending := c :: rest } = exec c { s with pending := rest }) ∧
  (∀ s : State, s.pending = [] → ∃ t, step s = .next t ∧ t.pending = [])

/-- A COMMIT is ignored in OFFLINE, noted in BUSY, latched while the Command role is down, and otherwise read: a bad
length or value is BAD_PACKET, the last HSEQ returns the cached reply as DUPLICATE, the next one is consumed with a
new DSEQ and its checks, and any other is GAP with LAST_HSEQ. A reply makes the window DONE, is kept for DUPLICATE and
signals the window's vector if asked. ECHO returns its data, IDENTIFY the identity, and JOURNAL_FETCH writes the
records held from a JSEQ on to the host. (R386, R387, R388, R390, R391, R392, R393, R395, R396, R398, R401) -/
def Obligations.CommandWindows : Prop :=
  (∀ (s : State) (w : Win) (v : BitVec 32), s.clocked = true → s.host.d3hot = false →
    ((s.window w).st = .offline → exec (.cmdCommit w v) s = .next s) ∧
    ((s.window w).st = .busy →
      exec (.cmdCommit w v) s = .next (s.onWindow w (fun q => { q with commitIgnored := true }))) ∧
    (∀ u : State, ((s.window w).st = .idle ∨ (s.window w).st = .done) →
      u = s.onWindow w (fun q => { q with st := .busy, reply := [] }) →
      (s.roleUp 1 = false →
        exec (.cmdCommit w v) s = .next (u.onWindow w (fun q => { q with latched := some v }))) ∧
      (∀ (q : Window) (len op h : Nat), s.roleUp 1 = true → q = s.window w → len = q.req.le 0 4 / 65536 % 2048 →
        op = q.req.le 0 1 → h = q.req.le 4 4 →
        ((v.toNat ≠ h ∨ len < 16 ∨ 1024 < len ∨ len % 4 ≠ 0) → exec (.cmdCommit w v) s =
          .next (sendReply w (replyBytes op (BitVec.ofNat 32 h) noDseq stBadPacket 0 []) u)) ∧
        (v.toNat = h → 16 ≤ len → len ≤ 1024 → len % 4 = 0 →
          (h = q.lastHseq.toNat → q.cache ≠ [] → exec (.cmdCommit w v) s = .next (sendReply w
            (q.cache.take 12 ++ leBytes 2 stDuplicate ++ (q.cache.drop 12).take 2 ++ q.cache.drop 16) u)) ∧
          (BitVec.ofNat 32 h ≠ q.lastHseq + 1 → (h ≠ q.lastHseq.toNat ∨ q.cache = []) →
            exec (.cmdCommit w v) s = .next (sendReply w
              (replyBytes op (BitVec.ofNat 32 h) noDseq stGap 0 (leBytes 4 q.lastHseq.toNat)) u)) ∧
          (∀ (d : BitVec 32) (x : State), BitVec.ofNat 32 h = q.lastHseq + 1 → d = s.host.dseq + 1 →
            x = ({ u with host := { u.host with dseq := d } }).onWindow w
              (fun q => { q with lastHseq := BitVec.ofNat 32 h, cur := some d }) →
            (opInfo op = none → exec (.cmdCommit w v) s = .next (answer w d stUnknownOp [] x)) ∧
            (∀ both sizes, opInfo op = some (both, sizes) →
              (both = false → w = .jcw → op ≠ 0xA2 → op ≠ 0xA3 →
                exec (.cmdCommit w v) s = .next (answer w d stDenied [] x)) ∧
              ((both = true ∨ w = .pcw) → q.reserved op len sizes = true → op ≠ 0xA2 → op ≠ 0xA3 →
                exec (.cmdCommit w v) s = .next (answer w d stRsvEnc [] x)) ∧
              ((both = true ∨ w = .pcw) → q.reserved op len sizes = false →
                exec (.cmdCommit w v) s = .next x))))))) ∧
  (∀ (s t : State) (w o : Win) (d : BitVec 32) (st : Nat) (res b : List Byte), t = answer w d st res s → o ≠ w →
    b = replyBytes ((s.window w).req.le 0 1) (BitVec.ofNat 32 ((s.window w).req.le 4 4)) d st 0 res →
    t.window w = { s.window w with st := .done, reply := b, cache := b, cur := none } ∧ t.window o = s.window o ∧
    ((s.window w).irqEn = false → t.host.msixSent = s.host.msixSent ∧ t.host.msixPba = s.host.msixPba) ∧
    ((s.window w).irqEn = true → s.host.d3hot = false →
      (s.host.msixTable.read (16 * (if w = .pcw then 0 else 1) + 12)).getLsbD 0 = false →
      t.host.msixSent = (if w = .pcw then 0 else 1) :: s.host.msixSent) ∧
    t = { s with host := { s.host with
      pcw := t.host.pcw, jcw := t.host.jcw, msixSent := t.host.msixSent, msixPba := t.host.msixPba } }) ∧
  (∀ (s : State) (w : Win), s.clocked = true →
    (∀ (data : List Byte) d, s.carries w 0x00 [] = some d →
      data = (s.window w).req.bytes 16 ((s.window w).req.le 0 4 / 65536 % 2048 - 16) →
      exec (.echo w data) s = .next (answer w d stOk data s)) ∧
    (∀ d, s.carries w 0x01 [] = some d → exec (.identify w) s = .next (answer w d stOk (identity s) s)) ∧
    (∀ (first host : BitVec 64) (count d : BitVec 32), s.host.d3hot = false →
      s.carries w 0x02 [first.toNat, count.toNat, host.toNat] = some d →
      ((count = 0 ∨ 65536 < count.toNat) → exec (.journalFetch w first count host) s = .next (answer w d stRange [] s)) ∧
      (∀ f (rs : List Rec), count ≠ 0 → count.toNat ≤ 65536 → f = s.host.jhead.toNat - s.host.recs.length →
        rs = (if s.host.jhead.toNat < first.toNat then []
          else (s.host.recs.reverse.drop (max first.toNat f - f)).take count.toNat) →
        exec (.journalFetch w first count host) s = .next (answer w d stOk (pack [(8, f), (4, rs.length)])
          { s with host := { s.host with hostMem := s.host.hostMem.write host.toNat (rs.flatMap Rec.bytes) } })))) ∧
  (∀ (s : State) (w : Win), s.winWord w 0x80C = s.host.dseq.toNat ∧ s.winWord w 0x808 = (s.window w).lastHseq.toNat)

/-- With EN set and out of D3hot, a ring write puts the records from JWRITTEN up to the lower of JHEAD and JTAIL plus the
ring's size into their slots, moves JWRITTEN, writes it back where asked, and signals vector 2 where MOD is 0. A JTAIL
write that finds records lost moves JWRITTEN on, sets GAP and posts JOURNAL_GAP. CMD_JCFG takes a size only while EN
is 0, and setting EN starts at JTAIL. A full ring takes no record and skips none. The MOD timer signals only if
JWRITTEN has moved since the last signal. (R399, R402, R403, R406) -/
def Obligations.JournalRing : Prop :=
  ∀ s : State, s.clocked = true →
    ((s.host.jen = false ∨ s.host.d3hot = true) → exec .journalRingWrite s = .next s) ∧
    (∀ (n upto : Nat) (h : HostPort), s.host.jen = true → s.host.d3hot = false → h = s.host → n = h.jwritten.toNat →
      upto = min h.jhead.toNat (h.jtail.toNat + 2 ^ h.jsize.toNat) →
      (h.jhead.toNat - 65536 ≤ n ∨ h.jtail.toNat + 2 ^ h.jsize.toNat ≤ n) →
      (upto ≤ n → ∃ t, exec .journalRingWrite s = .next t ∧ t = { s with host := { h with jfull := t.host.jfull } }) ∧
      (∀ (rs : List Rec) (m : Mem) (u : State), n < upto →
        rs = (h.recs.reverse.drop (n - (h.jhead.toNat - h.recs.length))).take (upto - n) →
        m = rs.foldl (fun m r => m.write (h.jbase.toNat + 64 * (r.jseq.toNat % 2 ^ h.jsize.toNat)) r.bytes) h.hostMem →
        u = { s with host := { h with
          jwritten := BitVec.ofNat 64 upto
          jfull := decide (upto = h.jtail.toNat + 2 ^ h.jsize.toNat)
          hostMem := if h.jheadWb = 0 then m else m.write h.jheadWb.toNat (leBytes 8 upto) } } →
        exec .journalRingWrite s = .next (if h.jmod = 0 then
          signalMsix 2 { u with host := { u.host with jsignalled := BitVec.ofNat 64 upto } } else u))) ∧
    (s.host.jen = true → s.host.d3hot = false → s.host.ringFull = false →
      exec .journalRingWrite s = exec .journalRingWrite (skipLost s)) ∧
    (∀ v : BitVec 64, s.host.d3hot = false → ∃ t, exec (.cmdJtailWrite v) s = .next t ∧ t.host.jtail = v ∧
      t.host.stage = (dropStage 0 0x3018 s).host.stage ∧
      (s.host.jen = false ∨ s.host.jhead.toNat - 65536 ≤ s.host.jwritten.toNat ∨
          v.toNat + 2 ^ s.host.jsize.toNat ≤ s.host.jwritten.toNat →
        t = { s with host := { s.host with jtail := v, jfull := t.host.jfull, stage := t.host.stage } } ∧
        (t.host.jfull = true → v.toNat + 2 ^ s.host.jsize.toNat ≤ s.host.jwritten.toNat)) ∧
      (∀ n, s.host.jen = true → s.host.jwritten.toNat < s.host.jhead.toNat - 65536 →
        s.host.jwritten.toNat < v.toNat + 2 ^ s.host.jsize.toNat →
        n = s.host.jhead.toNat + 1 - 65536 - s.host.jwritten.toNat →
        t.host.jwritten.toNat = s.host.jwritten.toNat + n ∧ t.host.jgap = true ∧
        s.posted t 0xF1 0 0 [lo32 s.host.jwritten, hi32 s.host.jwritten, w32 n, w32 (n / 2 ^ 32)])) ∧
    (∀ (v : BitVec 32) (size : Nat), s.host.d3hot = false → size = v.toNat / 2 % 32 → ∃ t,
      exec (.cmdJcfgWrite v) s = .next t ∧ t.host.jen = v.getLsbD 0 ∧ t.host.jmod.toNat = v.toNat / 65536 ∧
      t.host.jsize = (if s.host.jen = false ∧ 6 ≤ size ∧ size ≤ 20 then BitVec.ofNat 5 size else s.host.jsize) ∧
      t.host.jwritten = (if s.host.jen = false ∧ v.getLsbD 0 = true then s.host.jtail else s.host.jwritten) ∧
      t = { s with host := { s.host with
        jen := t.host.jen, jmod := t.host.jmod, jsize := t.host.jsize, jwritten := t.host.jwritten,
        jsignalled := t.host.jsignalled } }) ∧
    (s.host.jmod = 0 → exec .journalModTimer s = .next s) ∧
    (∀ (per : Nat) (u : State), s.host.jmod ≠ 0 → per = s.host.jmod.toNat * 1000 →
      u = s.advanceTo ((s.now.toNat / per + 1) * per) → exec .journalModTimer s =
        .next (if u.host.jwritten = u.host.jsignalled then u
          else signalMsix 2 { u with host := { u.host with jsignalled := u.host.jwritten } }))

/-- A write to any BAR2 offset outside the JCW changes nothing but CMD_BAR2_WCNT, which counts it (and holds at its
largest value, R406), and BAR2_WRITE, which it sets; only where BAR2_WRITE was clear does it post a BAR2_WRITE record,
with the offset. (R383) -/
def Obligations.StrayBar2Writes : Prop :=
  ∀ (s : State) (off : Nat), s.clocked = true → s.host.d3hot = false → 0x1000 ≤ off → off < 0x100000 →
    ∃ t, exec (.bar2Write off) s = .next t ∧ (∀ data race ecc, exec (.registerWrite true off data race ecc) s = .next t) ∧
      t.host.bar2Write = true ∧
      t.host.bar2Cnt.toNat = min (2 ^ 32 - 1) (s.host.bar2Cnt.toNat + 1) ∧
      (s.host.bar2Write = true → t = { s with host := { s.host with bar2Cnt := t.host.bar2Cnt } }) ∧
      (s.host.bar2Write = false → s.posted t 0xF3 0 0 [w32 off] ∧
        t.host.recs = (t.host.recs.head?.toList ++ s.host.recs).take 65536 ∧
        t = { s with host := { s.host with
          bar2Cnt := t.host.bar2Cnt, bar2Write := true, recs := t.host.recs, jhead := t.host.jhead } })

/-- A read of a form that is not accepted or beyond the registers returns zeros, a register wider than 64 bits is captured
by the read of its first word, and any other read returns its words and changes nothing else. A write of another form
changes nothing, a lower word of a 64-bit register is staged, its upper word commits both, and an 8-byte write commits
at once and drops a staged word. A W1C bit that is set in the cycle of its clear stays 1 and is counted. CMD_REQ takes
writes only where its window is not BUSY. PLT_PSTART takes writes only in STOPPED. With the seal open, a region write
after which the region is valid and overlaps another valid region, or is out of range, changes nothing but OVERLAP or
RANGE and REGION; any other replaces its register, a reserved encoding leaving its field; with the seal closed it is
ignored. BAR4 reads and writes reach device memory from the base on, and an access that fails sets BAR4_ERR and keeps
the first address. (R10, R126, R147, R149, R384, R385, R386, R409, R410, R412, R413, R424) -/
def Obligations.RegisterAccess : Prop :=
  (∀ (s : State) (off size : Nat), s.clocked = true →
    (s.host.d3hot = true → ∀ bar2, exec (.wideRegisterRead bar2 off size) s = .next s) ∧
    (s.host.d3hot = false →
      ((accessOk off size = false ∨ 0x100000 ≤ off) → exec (.wideRegisterRead true off size) s =
        .next { s with host := { s.host with rdData := List.replicate size 0 } }) ∧
      (accessOk off size = true → off < 0x100000 → exec (.wideRegisterRead true off size) s =
        .next { s with host := { s.host with rdData := wordsBytes s.word2 off size } }) ∧
      ((accessOk off size = false ∨ 0x4000000 ≤ off) → exec (.wideRegisterRead false off size) s =
        .next { s with host := { s.host with rdData := List.replicate size 0 } }) ∧
      (accessOk off size = true → off < 0x4000000 →
        (wideReg off = none → exec (.wideRegisterRead false off size) s =
          .next { s with host := { s.host with rdData := wordsBytes s.word0 off size } }) ∧
        (wideReg off = some off → exec (.wideRegisterRead false off size) s = .next { s with host := { s.host with
          bar0Cap := some (off, s.wideVal off)
          rdData := wordsBytes (fun o => wordAt (s.wideVal off).toNat (o - off)) off size } }) ∧
        (∀ a v, wideReg off = some a → off ≠ a → s.host.bar0Cap = some (a, v) →
          exec (.wideRegisterRead false off size) s = .next { s with host := { s.host with
            rdData := wordsBytes (fun o => wordAt v.toNat (o - a)) off size } })))) ∧
  (∀ (s : State) (off : Nat) (data : List Byte) (v : BitVec 32) race ecc, s.clocked = true → s.host.d3hot = false →
    ((off < 0x1000 ∨ 0x3000 ≤ off) → (accessOk off data.length = false ∨ 0x4000000 ≤ off) →
      exec (.registerWrite false off data race ecc) s = .next s) ∧
    (∀ key open_, s.reg64 off = some (key, open_) → off % 8 = 0 → data.length = 4 → v = BitVec.ofNat 32 (leNat data) →
      exec (.registerWrite false off data race ecc) s =
        .next (if open_ then { s with host := { s.host with stage := s.host.stage.put key (off, v) } } else s)) ∧
    (∀ key low, s.reg64 off = some (key, true) → off % 8 = 0 → data.length = 4 → v = BitVec.ofNat 32 (leNat data) →
      s.staged key off = some low → exec (.registerWrite false (off + 4) data race ecc) s =
        .next (commit64 off (v ++ low) { s with host := { s.host with stage := s.host.stage.del key } })) ∧
    (∀ key, s.reg64 off = some (key, true) → off % 8 = 0 → data.length = 8 → s.staged key off = none →
      exec (.registerWrite false off data race ecc) s = .next (commit64 off (BitVec.ofNat 64 (leNat data)) s)) ∧
    (∀ w, data.length = 4 → off % 4 = 0 → off < 0x400 →
      exec (.registerWrite false ((if w = .pcw then 0x1000 else 0x2000) + off) data race ecc) s = .next (match (s.window w).st with
        | .offline => s
        | .busy => s.onWindow w (fun q => { q with reqIgnored := true })
        | _ => s.onWindow w (fun q => { q with req := q.req.write off data }))) ∧
    (∀ p, p < 272 → s.plotWritable p = true → data.length = 4 → ∃ t,
      exec (.registerWrite false (0x1000000 + p * 0x8000 + 0x604) data race ecc) s = .next t ∧
      t.plot p = (if (s.plot p).pacer.st = .stopped then
        (s.plot p).onPacer (fun q => { q with startEntry := BitVec.ofNat 12 (leNat data) }) else s.plot p) ∧
      (∀ q, q ≠ p → t.plot q = s.plot q) ∧ t = { s with plots := t.plots }) ∧
    (∀ p x, p < 272 → x = s.plot p → s.plotWritable p = true → data.length = 4 → (BitVec.ofNat 32 (leNat data)).getLsbD 0 = true →
      x.numev.valid = true → exec (.registerWrite false (0x1000000 + p * 0x8000 + 0x510) data race ecc) s =
        .next (s.setPlot p (if race.getLsbD 0 then { x with swcnt := wrapAdd x.swcnt 1 }
          else { x with numev := { x.numev with valid := false } })))) ∧
  (∀ (s : State) (off a : Nat), s.clocked = true → s.host.d3hot = false → a = s.host.bar4Base.toNat * 2 ^ 30 + off →
    (∀ len errs ecc, (len = 0 ∨ s.host.bar4Size < off + len) → exec (.bar4Read off len errs ecc) s = .next s) ∧
    (∀ ecc data, (data = [] ∨ s.host.bar4Size < off + data.length) → exec (.bar4Write off data ecc) s = .next s) ∧
    (∀ len errs ecc, 0 < len → off + len ≤ s.host.bar4Size →
      (s.bar4Bad a len = true → ∃ t, exec (.bar4Read off len errs ecc) s = .next t ∧ t.host.bar4Err = true ∧
        t.host.bar4Status = 2 ∧ t.host.bar4Data = [] ∧
        t.host.bar4ErrAddr = (if s.host.bar4Err then s.host.bar4ErrAddr else BitVec.ofNat 48 a) ∧
        t = { s with host := { s.host with bar4Err := true, bar4ErrAddr := t.host.bar4ErrAddr, bar4Data := [],
                                           bar4Status := 2 } }) ∧
      (s.bar4Bad a len = false → s.memWaits a len = true → exec (.bar4Read off len errs ecc) s = .next s) ∧
      (∀ r, s.bar4Bad a len = false → s.memWaits a len = false → r = devRead none a len ecc (demandUnits a len errs s) →
        exec (.bar4Read off len errs ecc) s = .next { r.2 with host := { r.2.host with
          bar4Data := r.1.bytes, bar4Status := if r.1.bad.isEmpty then 0 else 1
          aerPoisoned := r.2.host.aerPoisoned || !r.1.bad.isEmpty } })) ∧
    (∀ data ecc, data ≠ [] → off + data.length ≤ s.host.bar4Size →
      (s.bar4Bad a data.length = true → ∃ t, exec (.bar4Write off data ecc) s = .next t ∧ t.host.bar4Err = true ∧
        t.host.bar4ErrAddr = (if s.host.bar4Err then s.host.bar4ErrAddr else BitVec.ofNat 48 a) ∧
        t = { s with host := { s.host with bar4Err := true, bar4ErrAddr := t.host.bar4ErrAddr } }) ∧
      (s.bar4Bad a data.length = false → s.memWaits a data.length = true → exec (.bar4Write off data ecc) s = .next s) ∧
      (s.bar4Bad a data.length = false → s.memWaits a data.length = false →
        exec (.bar4Write off data ecc) s = .next (devWrite none a data [] ecc s).2)) ∧
    (∀ (v : BitVec 64) u, u = dropStage 0 0x3108 s → exec (.cmdBar4BaseWrite v) s =
      .next { u with host := { u.host with bar4Base := v.extractLsb' 30 18 } })) ∧
  (∀ (s : State) (key a : Nat), ((s.staged key a).isSome = false → dropStage key a s = s) ∧
    ((s.staged key a).isSome = true →
      dropStage key a s = { s with host := { s.host with stage := s.host.stage.del key } })) ∧
  (∀ (s u : State) (n : Nat) (reg : RgnReg) (v : BitVec 64) (r : Region) (ovl rng : Bool), u = dropRegion n reg s →
     s.clocked = true → s.host.d3hot = false → n < 64 →
     r = (s.regions.tbl.get n {}).set reg v →
     ovl = (r.valid && s.regions.tbl.any (fun e => e.1 != n && e.2.valid && r.clash e.2)) →
     rng = (r.valid && r.outOfRange) →
     (s.cfgSeal.st ≠ .open → exec (.regionWrite n reg v) s = .next s) ∧
     (s.cfgSeal.st = .open → (ovl || rng) = true → exec (.regionWrite n reg v) s = .next { u with regions := { s.regions with
       overlap := s.regions.overlap || ovl, range := s.regions.range || rng, region := BitVec.ofNat 6 n } }) ∧
     (s.cfgSeal.st = .open → (ovl || rng) = false →
       exec (.regionWrite n reg v) s = .next { u with regions := { s.regions with tbl := s.regions.tbl.put n r } }) ∧
     (r.valid = false → (ovl || rng) = false) ∧
     (reg = .cfg → v.truncate 2 = (3#2) → r.mode = (s.regions.tbl.get n {}).mode))

/-- A set with an unmapped Plot is RANGE and the commands are refused with STATE in RETAIN, as starts and resumes are
while the Plots are off. PLAN_LOAD puts the bytes of device memory into the table of each STOPPED Plot and names the
others; a run control starts, stops, pauses or resumes each Plot that accepts it, its STATUS is that of the first Plot
that did not carry it out, and its sets name those that refused and those where a higher order won; a stop or a pause
in the cycle of a trap or a refusal leaves the halt; FLAG_RAISE raises the flag; PACER_SET writes the register of each
STOPPED Plot and names the others; PLOT_RESET resets each Plot's registers and queues and keeps its memories. No other
Plot changes. (R11, R12, R91, R106, R115, R126, R242, R395, R396, R467, R481) -/
def Obligations.HostPlotCommands : Prop :=
  ∀ (s : State) (w : Win) (set : BitVec 256), s.clocked = true → s.plotsOneToOne →
    (∀ (kind first count : BitVec 32) (src : BitVec 64) ecc d n,
      n = count.toNat * (if kind = 0 then 16 else 32) →
      s.carries w 0x10 [set.toNat, kind.toNat, first.toNat, count.toNat, src.toNat] = some d →
      (2 < kind.toNat → s.memWaits src.toNat n = false →
        exec (.planLoad w set kind first count src ecc) s = .next (answer w d stRsvEnc [] s)) ∧
      (kind.toNat ≤ 2 → s.memWaits src.toNat n = false →
        (s.psetBad set = true ∨ (if kind = 0 then 4096 else 256) < first.toNat + count.toNat ∨
          2 ^ 48 < src.toNat + n ∨ s.memErr none src.toNat n ≠ 0) →
        exec (.planLoad w set kind first count src ecc) s = .next (answer w d stRange [] s)) ∧
      (∀ g, kind.toNat ≤ 2 → s.psetBad set = false → first.toNat + count.toNat ≤ (if kind = 0 then 4096 else 256) →
        src.toNat + n ≤ 2 ^ 48 → s.memErr none src.toNat n = 0 →
        (s.power.st = .retain →
          exec (.planLoad w set kind first count src ecc) s = .next (answer w d stState [] s)) ∧
        (s.power.st ≠ .retain → s.memWaits src.toNat n = false → g = devRead none src.toNat n ecc s →
          (g.1.bad ≠ [] → exec (.planLoad w set kind first count src ecc) s = .next (answer w d stFailed (pack [(4, 3)]) (caused s.host.jhead d g.2))) ∧
          (g.1.bad = [] → ∃ t ref, exec (.planLoad w set kind first count src ecc) s =
              .next (answer w d stOk (pack [(32, BitVec.toNat (w := 256) ref)]) (caused s.host.jhead d t)) ∧
            (∀ l p, l < 256 → s.phys? l = some p → (ref.getLsbD l = true ↔
              set.getLsbD l = true ∧ (s.plot p).pacer.st ≠ .stopped)) ∧
            g.2.ordered t (s.psetPhys set) 0 (fun _ _ => true)
              (fun _ x => if x.pacer.st = .stopped then x.loadTable kind.toNat first.toNat g.1.bytes else x))))) ∧
    (∀ (entry : BitVec 32) (rivals : List (Nat × Order)) (lost trapped : BitVec 256) ecc (d : BitVec 32) (k : Nat) (c : Instr),
      lost = s.lostAt (winOrder w) rivals →
      (k, c) ∈ [(0, Instr.runControlStart w set entry rivals), (1, .runControlStop w set entry rivals trapped ecc),
        (2, .runControlPause w set entry rivals trapped), (3, .runControlResume w set entry rivals)] →
      s.carries w 0x11 [set.toNat, k, entry.toNat] = some d →
      ((s.psetBad set = true ∨ (k = 0 ∧ entry ≠ 0xFFFFFFFF ∧ 4095 < entry.toNat)) →
        exec c s = .next (answer w d stRange [] s)) ∧
      (s.psetBad set = false → (k = 0 → entry ≠ 0xFFFFFFFF → entry.toNat ≤ 4095) →
        ((s.power.st = .retain ∨ ((k = 0 ∨ k = 3) ∧ s.plotsOff = true)) → exec c s = .next (answer w d stState [] s)) ∧
        (s.power.st ≠ .retain → ((k = 0 ∨ k = 3) → s.plotsOff = false) → ∃ (t : State) (code : Nat) (ref sup : BitVec 256),
          exec c s = .next (answer w d (if code = 2 then stOk else if code = 4 then stSuperseded else stRefused)
            (pack [(32, ref.toNat), (32, sup.toNat)]) (caused s.host.jhead d t)) ∧
          (∀ l, l < 256 → (sup.getLsbD l = true ↔ set.getLsbD l = true ∧ lost.getLsbD l = true)) ∧
          (k = 0 → s.ordered t (s.psetPhys set) lost (fun _ x => x.pacer.canStart)
              (fun _ x => x.start (if entry = 0xFFFFFFFF then x.pacer.startEntry else entry.truncate 12)) ∧
            s.orderCode (s.psetPhys set) lost (fun _ x => x.pacer.canStart) code ∧
            (∀ l p, l < 256 → s.phys? l = some p → (ref.getLsbD l = true ↔
              set.getLsbD l = true ∧ lost.getLsbD l = false ∧ (s.plot p).pacer.canStart = false))) ∧
          (k = 1 → ref = 0 ∧ s.orderCode (s.psetPhys set) lost (fun _ _ => true) code ∧
            (∀ l p, set.getLsbD l = true → s.phys? l = some p → (t.plot p).pacer =
              if lost.getLsbD l = true ∨ haltStands trapped l (s.plot p) = true then (s.plot p).pacer else (s.plot p).pacer.stop) ∧
            (∀ p, (∀ l, set.getLsbD l = true → s.phys? l ≠ some p) → t.plot p = s.plot p) ∧
            State.sameButEvents { s with plots := t.plots } t) ∧
          (k = 2 → s.ordered t (s.psetPhys set) lost (fun l x => haltStands trapped l x || x.pacer.st == .running)
              (fun l x => if haltStands trapped l x then x
                else x.onPacer (fun q => { q with st := .draining, drainTo := .toPaused })) ∧
            s.orderCode (s.psetPhys set) lost (fun l x => haltStands trapped l x || x.pacer.st == .running) code) ∧
          (k = 3 → s.ordered t (s.psetPhys set) lost (fun _ x => x.pacer.st == .paused || x.pacer.st == .numericHalt)
              (fun _ x => x.onPacer (fun q => { q with st := .running, checked := false })) ∧
            s.orderCode (s.psetPhys set) lost (fun _ x => x.pacer.st == .paused || x.pacer.st == .numericHalt) code)))) ∧
    (∀ (flag d : BitVec 32), s.carries w 0x13 [set.toNat, flag.toNat] = some d →
      ((s.psetBad set = true ∨ 63 < flag.toNat) → exec (.flagRaise w set flag) s = .next (answer w d stRange [] s)) ∧
      (s.psetBad set = false → flag.toNat ≤ 63 → s.power.st = .retain →
        exec (.flagRaise w set flag) s = .next (answer w d stState [] s)) ∧
      (s.psetBad set = false → flag.toNat ≤ 63 → s.power.st ≠ .retain → ∃ t,
        exec (.flagRaise w set flag) s = .next (answer w d stOk [] t) ∧
        s.ordered t (s.psetPhys set) 0 (fun _ _ => true) (fun _ x => x.onPacer (fun q =>
          if q.flags.get flag.toNat 0 = 15 then { q with flagOvf := true }
          else { q with flags := q.flags.put flag.toNat (q.flags.get flag.toNat 0 + 1) })))) ∧
    (∀ (offset : BitVec 32) (value : BitVec 64) d o, s.carries w 0x14 [set.toNat, offset.toNat, value.toNat] = some d →
      o = offset.toNat →
      (pacerSetReg o = none → exec (.pacerSet w set offset value) s = .next (answer w d stRange [] s)) ∧
      (∀ wide, pacerSetReg o = some wide →
        (pacerSetBad o wide value = true → exec (.pacerSet w set offset value) s = .next (answer w d stRsvEnc [] s)) ∧
        (pacerSetBad o wide value = false →
          (s.psetBad set = true → exec (.pacerSet w set offset value) s = .next (answer w d stRange [] s)) ∧
          (s.psetBad set = false → s.power.st = .retain →
            exec (.pacerSet w set offset value) s = .next (answer w d stState [] s)) ∧
          (s.psetBad set = false → s.power.st ≠ .retain → ∃ t ref, exec (.pacerSet w set offset value) s =
              .next (answer w d stOk (pack [(32, BitVec.toNat (w := 256) ref)]) t) ∧
            (∀ l p, l < 256 → s.phys? l = some p →
              (ref.getLsbD l = true ↔ set.getLsbD l = true ∧ (s.plot p).pacer.st ≠ .stopped) ∧
              t.plot p = if set.getLsbD l = true ∧ (s.plot p).pacer.st = .stopped then
                (pacerSetOne o wide value p s).plot p else s.plot p) ∧
            (∀ p, (∀ l, set.getLsbD l = true → s.phys? l ≠ some p) → t.plot p = s.plot p) ∧
            t = { s with plots := t.plots })))) ∧
    (∀ ecc d, s.carries w 0x12 [set.toNat] = some d →
      (s.psetBad set = true → exec (.plotReset w set ecc) s = .next (answer w d stRange [] s)) ∧
      (s.psetBad set = false → s.power.st = .retain → exec (.plotReset w set ecc) s = .next (answer w d stState [] s)) ∧
      (s.psetBad set = false → s.power.st ≠ .retain → ∃ t, exec (.plotReset w set ecc) s = .next (answer w d stOk [] (caused s.host.jhead d t)) ∧
        (∀ l p, set.getLsbD l = true → s.phys? l = some p →
          (t.plot p).pacer = { seq := (s.plot p).pacer.seq } ∧ (t.plot p).streams = [] ∧ (t.plot p).loadQ = [] ∧
          (t.plot p).vecQ = [] ∧ (t.plot p).dmaQ = [] ∧ (t.plot p).resv = (s.plot p).resv ∧
          (t.plot p).stepMem = (s.plot p).stepMem ∧ (t.plot p).vtab = (s.plot p).vtab ∧ (t.plot p).dtab = (s.plot p).dtab ∧
          (∀ f, ((t.plot p).furrow f).words = [] ∧ ((t.plot p).furrow f).tags = [] ∧
            ((t.plot p).furrow f).map = ((s.plot p).furrow f).map) ∧ (t.plot p).sparesWait = false) ∧
        (∀ p, (∀ l, set.getLsbD l = true → s.phys? l ≠ some p) → t.plot p = s.plot p) ∧
        State.sameButEvents { s with plots := t.plots, host := { s.host with stage := t.host.stage } } t))

/-- DMA_TO_DEVICE and DMA_TO_HOST take 1 to 4,096 entries, else RANGE; DMA_FILL takes a mapped run, else RANGE; each is
accepted and starts a transfer. The next entry of a list that can move copies its bytes and raises its flag, and the
last one ends the transfer OK with the bytes moved. An entry that is malformed, unmapped or poisoned ends it FAILED,
with the entry's index and the cause. A fill writes its pattern and ends OK. CMD_DONE carries the command's sequence
numbers and status. (R106, R156, R394, R395, R396, R397, R398) -/
def Obligations.HostTransfers : Prop :=
  (∀ (s : State) (w : Win) (list : BitVec 64) (count d h : BitVec 32), s.clocked = true →
    h = BitVec.ofNat 32 ((s.window w).req.le 4 4) →
    (∀ op kind c, (op, kind, c) ∈ [(0x20, HostKind.toDevice, Instr.dmaToDevice w list count),
        (0x21, .toHost, .dmaToHost w list count)] → s.carries w op [list.toNat, count.toNat] = some d →
      ((count = 0 ∨ 4096 < count.toNat) → exec c s = .next (answer w d stRange [] s)) ∧
      (count ≠ 0 → count.toNat ≤ 4096 → exec c s = .next (answer w d stAccepted [] { s with host := { s.host with
        dmas := s.host.dmas ++
          [{ kind, win := w, hseq := h, dseq := d, list := list.toNat, count := count.toNat, pattern := 0 }] } }))) ∧
    (∀ (bytes : BitVec 64) (pattern : BitVec 32),
      s.carries w 0x22 [list.toNat, bytes.toNat, pattern.toNat] = some d →
      ((bytes = 0 ∨ 2 ^ 48 < list.toNat + bytes.toNat ∨ s.memErr none list.toNat bytes.toNat ≠ 0) →
        exec (.dmaFill w list bytes pattern) s = .next (answer w d stRange [] s)) ∧
      (bytes ≠ 0 → list.toNat + bytes.toNat ≤ 2 ^ 48 → s.memErr none list.toNat bytes.toNat = 0 →
        exec (.dmaFill w list bytes pattern) s = .next (answer w d stAccepted [] { s with host := { s.host with
          dmas := s.host.dmas ++ [{ kind := .fill, win := w, hseq := h, dseq := d, list := list.toNat,
                                    count := bytes.toNat, pattern }] } })))) ∧
  (∀ (s : State) (k : Nat) (x : HostDma), s.clocked = true → s.host.dmas[k]? = some x →
    ((s.host.d3hot = true ∨ s.roleUp 1 = false ∨ x.kind = .fill) → ∀ ecc, exec (.hostDmaEntryComplete k ecc) s = .next s) ∧
    (∀ ecc (m : Mem) (a host dev n raise : Nat), s.host.d3hot = false → s.roleUp 1 = true → m = s.host.hostMem →
      a = x.list + 32 * x.next → host = m.le a 8 → dev = m.le (a + 8) 6 → n = m.le (a + 16) 8 → raise = m.le (a + 24) 4 →
      (∀ (c : Nat) (bad : Bool), bad = decide (n = 0 ∨ 2 ^ 32 < n ∨ m.le (a + 14) 2 ≠ 0 ∨ m.le (a + 28) 4 ≠ 0 ∨ raise % 128 ≠ 0 ∨ 4194304 ≤ raise) →
        c = (if n = 0 ∨ 2 ^ 32 < n ∨ m.le (a + 14) 2 ≠ 0 ∨ m.le (a + 28) 4 ≠ 0 ∨ raise % 128 ≠ 0 ∨
          4194304 ≤ raise ∨ 2 ^ 48 < dev + n then 2 else s.memErr none dev n) → c ≠ 0 → x.kind ≠ .fill →
        exec (.hostDmaEntryComplete k ecc) s = .next (endHostDma k x stFailed [w32 x.next, w32 c]
          (if x.kind = .toDevice ∧ bad = false then freeRun dev n s else s))) ∧
      (x.kind ≠ .fill → s.listErr (listEntry m a) = 0 → s.memWaits dev n = true → exec (.hostDmaEntryComplete k ecc) s = .next s) ∧
      (∀ g z b y, x.kind = .toHost → s.listErr (listEntry m a) = 0 → s.memWaits dev n = false →
        (g, z) = devRead none dev n ecc s → g.bad ≠ [] → (b, y) = z.drawBytes n →
        exec (.hostDmaEntryComplete k ecc) s = .next (endHostDma k x stFailed [w32 x.next, 3] (y.hostPut host b))) ∧
      (∀ u : State, 0 < n → n ≤ 2 ^ 32 → m.le (a + 14) 2 = 0 → m.le (a + 28) 4 = 0 → raise % 128 = 0 →
        raise < 4194304 → dev + n ≤ 2 ^ 48 → s.memErr none dev n = 0 → s.memWaits dev n = false →
        ((x.kind = .toDevice ∧ u = (devWrite none dev (m.bytes host n) [] ecc s).2) ∨
          (x.kind = .toHost ∧ (devRead none dev n ecc s).1.bad = [] ∧
            u = (devRead none dev n ecc s).2.hostPut host (devRead none dev n ecc s).1.bytes)) →
        (x.next + 1 ≠ x.count → exec (.hostDmaEntryComplete k ecc) s = .next { listRaise raise u with host :=
          { (listRaise raise u).host with dmas :=
            (listRaise raise u).host.dmas.set k { x with next := x.next + 1, bytes := x.bytes + n } } }) ∧
        (x.next + 1 = x.count → exec (.hostDmaEntryComplete k ecc) s = .next (endHostDma k x stOk
          [w32 (x.bytes + n), w32 ((x.bytes + n) / 2 ^ 32)] (listRaise raise u))))) ∧
    ((x.kind ≠ .fill ∨ s.roleUp 1 = false ∨ (s.memErr none x.list x.count = 0 ∧ s.memWaits x.list x.count = true)) →
      ∀ ecc, exec (.dmaFillComplete k ecc) s = .next s) ∧
    (∀ ecc e z, x.kind = .fill → s.roleUp 1 = true → (s.memErr none x.list x.count ≠ 0 ∨ s.memWaits x.list x.count = false) →
      (e, z) = devWrite none x.list (fillBytes x.pattern x.count) [] ecc s →
      (e = 0 → exec (.dmaFillComplete k ecc) s = .next (endHostDma k x stOk [] z)) ∧
      (e ≠ 0 → exec (.dmaFillComplete k ecc) s =
        .next (endHostDma k x stFailed [0, w32 e] (freeRun x.list x.count z))))) ∧
  (∀ (s t : State) (k op : Nat) (x : HostDma) (st : Nat) (res : List (BitVec 32)), t = endHostDma k x st res s →
    op = (match x.kind with | .toDevice => 0x20 | .toHost => 0x21 | .fill => 0x22) →
    t.host.dmas = s.host.dmas.eraseIdx k ∧
    (∃ r, t.host.recs.head? = some r ∧ r.type = 0xF0 ∧ r.dseq = x.dseq ∧ r.payload = [x.hseq, w32 op, w32 st] ++ res.take 4) ∧
    t = { s with host := { s.host with dmas := t.host.dmas, recs := t.host.recs, jhead := t.host.jhead } }) ∧
  (∀ (p : BitVec 32) (n i : Nat), i < n → (fillBytes p n)[i]? = some (BitVec.ofNat 8 (p.toNat / 256 ^ (i % 4))))

/-- BOOT_READY brings INIT to READY once the HBM is ready. GO, in READY and REJECTED alone, copies the image into slot A.
Verification rejects an unreadable image with code 1 or 2 and one that fails a check with code 3 and its step, or
starts every Marshal that holds a role from slot A, opens both windows and posts FW_LOADED. A Marshal that crashes
posts MARSHAL_CRASH and restarts, hands its role to a usable spare at the third crash of the role within an hour, or
stays off with a DEVICE_FATAL where its image no longer hashes right; the Power role's crash engages the hold
governor. When a role is back it posts MARSHAL_UP, and the Command role ends what waited. (R386, R398, R431, R432,
R438, R439, R440, R442, R446, R451, R452) -/
def Obligations.BootAndMarshals : Prop :=
  (∀ s : State, s.clocked = true →
    (s.boot.st = .init → s.boot.hbmReady = true → s.ras.bootFault = false →
      exec .bootReady s = .next { s with boot := { s.boot with st := .ready } }) ∧
    ((s.boot.st ≠ .init ∨ s.boot.hbmReady = false ∨ s.ras.bootFault = true) → exec .bootReady s = .next s) ∧
    (s.host.d3hot = false → s.boot.st ≠ .ready → s.boot.st ≠ .rejected → ∀ ecc, exec (.bootGo ecc) s = .next s) ∧
    (s.host.d3hot = true → ∀ ecc, exec (.bootGo ecc) s = .next s) ∧
    (∀ r ecc, s.host.d3hot = false → (s.boot.st = .ready ∨ s.boot.st = .rejected) →
      r = readImage s.boot.addr.toNat s.boot.len.toNat ecc s → exec (.bootGo ecc) s = .next { r.2 with boot := { r.2.boot with
        slotA := r.1.getD [], hashA := [], st := .loading, code := 0 } }) ∧
    (∀ (a n : Nat) ecc (g : Got × State), g = devRead none a n ecc s →
      ((n < 4096 ∨ 12582912 < n ∨ 2 ^ 48 < a + n ∨ s.memErr none a n ≠ 0) → readImage a n ecc s = (none, s)) ∧
      (4096 ≤ n → n ≤ 12582912 → a + n ≤ 2 ^ 48 → s.memErr none a n = 0 →
        readImage a n ecc s = (if g.1.bad = [] then some g.1.bytes else none, g.2))) ∧
    (∀ fails, s.boot.st ≠ .loading → exec (.bootVerifyComplete fails) s = .next s) ∧
    (∀ (fails : List Nat) (img : List Byte), s.boot.st = .loading → img = s.boot.slotA →
      (img = [] → exec (.bootVerifyComplete fails) s = .next { s with boot := { s.boot with
        st := .rejected, code := if 4096 ≤ s.boot.len.toNat ∧ s.boot.len.toNat ≤ 12582912 then 2 else 1 } }) ∧
      (∀ k, img ≠ [] → imageStep s.sec img = some k → ∃ t, exec (.bootVerifyComplete fails) s = .next t ∧
        t.boot = { s.boot with st := .rejected, code := 3, slotA := [], hashA := [] } ∧
        t.sec = { s.sec with bootErr := BitVec.ofNat 4 k, bootErrSlot := false } ∧
        s.posted t 0xC4 0 0 [w32 k, w32 (imgVersion img), w32 (imgSvn img)] ∧
        t = { s with boot := t.boot, sec := t.sec, host := { s.host with recs := t.host.recs, jhead := t.host.jhead } }) ∧
      (img ≠ [] → imageStep s.sec img = none → ∃ t, exec (.bootVerifyComplete fails) s = .next t ∧
        t.boot.st = .running ∧ t.boot.slot = false ∧ t.boot.slotA = img ∧ t.boot.hashA = sha512 img ∧
        t.boot.active = BitVec.ofNat 32 (imgVersion img) ∧
        (∀ m, (s.marshal m).role ≠ 0 → t.marshal m = { s.marshal m with st := .running, slot := false, wdog := s.now }) ∧
        (∀ w, (t.window w).st = if (s.window w).st = .offline then .idle else (s.window w).st) ∧
        (∃ r ∈ t.host.recs.take 2, r.type = 0x70 ∧ r.payload = [w32 (imgVersion img), 0]) ∧
        (imgSvn img ≤ 64 → (leAt img 0xA8 4).testBit 7 = true → s.sec.lc = 2 → s.sec.svnMin < imgSvn img →
          t.sec.svnMin = imgSvn img) ∧
        ((s.sec.lc ≠ 2 ∨ imgSvn img ≤ s.sec.svnMin) → t.sec = s.sec))) ∧
    (∀ m ok, s.crashable m = false → exec (.watchdogExpiry m ok) s = .next s) ∧
    (∀ m ok, s.crashable m = true → exec (.watchdogExpiry m ok) s =
      .next (crash m 1 0 ok (s.advanceTo ((s.marshal m).wdog.toNat + 10000000)))) ∧
    (∀ m (cause : BitVec 4) pc ok, s.crashable m = true → (cause = 2 ∨ cause = 3 ∨ cause = 5) →
      exec (.marshalFault m cause pc ok) s = .next (crash m cause.toNat pc ok s)) ∧
    (∀ w (role d : BitVec 32), s.carries w 0xF3 [role.toNat] = some d →
      ((role = 0 ∨ 4 < role.toNat) → exec (.marshalRestart w role) s = .next (answer w d stRange [] s)) ∧
      (role ≠ 0 → role.toNat ≤ 4 → s.holder role.toNat = none →
        exec (.marshalRestart w role) s = .next (answer w d stState [] s)) ∧
      (∀ m, role ≠ 0 → role.toNat ≤ 4 → s.holder role.toNat = some m →
        (s.roleUp role.toNat = false → exec (.marshalRestart w role) s = .next (answer w d stState [] s)) ∧
        (s.roleUp role.toNat = true → exec (.marshalRestart w role) s = .next (answer w d stAccepted []
          (startLong w 0xF3 d role.toNat (s.onMarshal m (fun x =>
            { x with st := .restarting, wdog := s.now, halted := false }))))))) ∧
    (∀ role m, s.holder role = some m → role ≠ 0 →
      ((s.marshal m).st ≠ .restarting → (s.marshal m).st ≠ .starting → exec (.marshalRestartComplete role) s = .next s) ∧
      (((s.marshal m).st = .restarting ∨ (s.marshal m).st = .starting) → ∃ t,
        exec (.marshalRestartComplete role) s = .next t ∧ (t.marshal m).st = .running ∧ (t.marshal m).wdog = s.now ∧
        (role ≠ 1 → ∃ r ∈ t.host.recs.take 2, r.type = 0x72 ∧ r.payload = [w32 role, w32 (b2n (s.marshal m).slot),
          w32 ((s.now.toNat - (s.marshal m).wdog.toNat) / 1000)]) ∧
        (role = 1 → t.host.longs = [] ∧ t.host.dmas = [] ∧ t.host.pcw.latched = none ∧ t.host.jcw.latched = none))) ∧
    ((s.boot.st ≠ .running ∨ s.power.hold = true) → exec .grantMissing s = .next s) ∧
    (∀ u cap, s.boot.st = .running → s.power.hold = false → u = s.advanceTo (s.power.lastGrant.toNat + 20000) →
      cap = s.power.capAtGrant * 95 / 100 → ∃ t, exec .grantMissing s = .next t ∧ t.power.hold = true ∧
        t.power.capHold = BitVec.ofNat 16 cap ∧ u.posted t 0x75 0 0 [1, w32 cap, 0, 0] ∧
        t = { u with power := t.power, host := t.host })) ∧
  (∀ (s t : State) (m cause role n : Nat) (pc : BitVec 64) (ok : Bool), t = crash m cause pc ok s → role = (s.marshal m).role.toNat →
    role ≠ 0 → s.boot.marshals.length = 6 →
    n = (s.boot.crashes.filter (fun c => c.1 = role && s.now.toNat - c.2.toNat ≤ 3600000000000)).length + 1 →
    ((ok = true ∨ ∀ p, (s.plot p).sparesWait = false) → ∃ r ∈ t.host.recs.take 3, r.type = 0x71 ∧ r.cls = 1 ∧ r.payload = [w32 role, w32 cause, w32 n, lo32 pc, hi32 pc]) ∧
    (ok = true → n < 3 → (t.marshal m).st = .restarting ∧ (t.marshal m).wdog = s.now ∧ (t.marshal m).role = (s.marshal m).role) ∧
    (∀ k, ok = true → 3 ≤ n → s.firstSpare = some k → (t.marshal k).role = (s.marshal m).role ∧
      (t.marshal k).st = .starting ∧ (t.marshal k).slot = (s.marshal m).slot ∧ (t.marshal m).role = 0 ∧ (t.marshal m).st = .failed ∧
      (∃ r ∈ t.host.recs.take 1, r.type = 0x73 ∧ r.cls = 3)) ∧
    (ok = true → 3 ≤ n → s.firstSpare = none → (t.marshal m).st = .restarting ∧ (t.marshal m).role = (s.marshal m).role) ∧
    (ok = false → (t.marshal m).st = .off ∧ (t.marshal m).cause = 4 ∧ t.ras.fatal = true ∧
      (role = 1 → ∀ w, (t.window w).st = .offline)) ∧
    (role = 2 → t.power.hold = true) ∧ (∀ j, j ≠ m → s.firstSpare ≠ some j → t.marshal j = s.marshal j))

/-- FW_STAGE copies an image into the slot that is not active, and its verification ends it OK or FAILED with the check's
step. FW_ACTIVATE needs a verified image and moves one role after another to a spare; without a spare, or with another
state version, it ends FAILED. DEVICE_RESET is followed by a warm reset 10 µs later, SYS_RESET_N is ignored within 50
ms of one, and a Function Level Reset is one and ends D3hot. A cold reset holds the device until PERST_N is released
and keeps what the fuses hold; power removal also leaves it OFF. The release of PERST_N samples the straps, takes a
reference, and brings into force the lifecycle that the fuses give. (R11, R171, R380, R396, R443, R444, R451, R453,
R459, R496, R498, R502) -/
def Obligations.FirmwareAndResets : Prop :=
  (∀ (s : State) (w : Win), s.clocked = true →
    (∀ (addr : BitVec 64) (bytes : BitVec 32) ecc, 4096 ≤ bytes.toNat → bytes.toNat ≤ 12582912 →
      s.memWaits addr.toNat bytes.toNat = true → exec (.fwStage w addr bytes ecc) s = .next s) ∧
    (∀ (addr : BitVec 64) (bytes d : BitVec 32) ecc (n : Nat), n = bytes.toNat → s.carries w 0xF0 [addr.toNat, n] = some d →
      (n < 4096 ∨ 12582912 < n ∨ s.memWaits addr.toNat n = false) →
      ((s.bothSlots = true ∨ s.fwLong 0xF0 ≠ none ∨ s.fwLong 0xF1 ≠ none) →
        exec (.fwStage w addr bytes ecc) s = .next (answer w d stState [] s)) ∧
      (s.bothSlots = false → s.fwLong 0xF0 = none → s.fwLong 0xF1 = none →
        ((n < 4096 ∨ 12582912 < n ∨ 2 ^ 48 < addr.toNat + n ∨ s.memErr none addr.toNat n ≠ 0) →
          exec (.fwStage w addr bytes ecc) s = .next (answer w d stRange [] s)) ∧
        (∀ g : Got × State, 4096 ≤ n → n ≤ 12582912 → addr.toNat + n ≤ 2 ^ 48 → s.memErr none addr.toNat n = 0 →
          g = devRead none addr.toNat n ecc s →
          (g.1.bad ≠ [] → exec (.fwStage w addr bytes ecc) s = .next (answer w d stFailed (pack [(4, 3)]) (caused s.host.jhead d g.2))) ∧
          (g.1.bad = [] → exec (.fwStage w addr bytes ecc) s = .next (answer w d stAccepted [] (caused s.host.jhead d (startLong w 0xF0 d 0
            { g.2 with boot := { g.2.boot.setImage (!s.boot.slot) g.1.bytes [] with staged := 0 } }))))))) ∧
    (s.fwLong 0xF0 = none → exec .fwStageComplete s = .next s) ∧
    (∀ l img, s.fwLong 0xF0 = some l → s.roleUp 1 = true → img = s.boot.image (!s.boot.slot) →
      (imageStep s.sec img = none → exec .fwStageComplete s = .next (finishLong l.dseq stOk [] { s with boot :=
        { s.boot.setImage (!s.boot.slot) img (sha512 img) with staged := BitVec.ofNat 32 (imgVersion img) } })) ∧
      (∀ k, imageStep s.sec img = some k → exec .fwStageComplete s = .next (finishLong l.dseq stFailed [w32 k]
        (rejectImage k (!s.boot.slot) img l.dseq { s with boot := s.boot.setImage (!s.boot.slot) [] [] })))) ∧
    (∀ (roles d : BitVec 32), s.carries w 0xF1 [roles.toNat] = some d →
      ((roles.getLsbD 0 = true ∨ 31 < roles.toNat ∨ roles = 0) →
        exec (.fwActivate w roles) s = .next (answer w d stRsvEnc [] s)) ∧
      (∀ h, roles.getLsbD 0 = false → roles.toNat ≤ 31 → roles ≠ 0 →
        h = (if s.boot.slot then s.boot.hashA else s.boot.hashB) →
        ((h = [] ∨ s.fwLong 0xF0 ≠ none ∨ s.fwLong 0xF1 ≠ none) →
          exec (.fwActivate w roles) s = .next (answer w d stState [] s)) ∧
        (h ≠ [] → s.fwLong 0xF0 = none → s.fwLong 0xF1 = none → exec (.fwActivate w roles) s =
          .next (answer w d stAccepted [] (startLong w 0xF1 d roles.toNat s))))) ∧
    (∀ c, s.fwLong 0xF1 = none → exec (.fwRoleMove c) s = .next s) ∧
    (∀ l c left role, s.fwLong 0xF1 = some l → left = l.arg % 32 →
      role = (if left.testBit 4 then 4 else if left.testBit 3 then 3 else if left.testBit 2 then 2 else 1) →
      (s.roleUp role = false ∨ s.roleUp 1 = false) ∨
        (role = 1 ∧ ¬ (s.host.pcw.cur = none ∧ s.host.jcw.cur = none)) →
      exec (.fwRoleMove c) s = .next s) ∧
    (∀ l left role m, s.fwLong 0xF1 = some l → left = l.arg % 32 →
      role = (if left.testBit 4 then 4 else if left.testBit 3 then 3 else if left.testBit 2 then 2 else 1) →
      s.roleUp role = true → s.roleUp 1 = true → (role = 1 → s.host.pcw.cur = none ∧ s.host.jcw.cur = none) →
      s.holder role = some m → s.boot.marshals.length = 6 →
      (s.firstSpare = none → ∀ c, exec (.fwRoleMove c) s = .next (finishLong l.dseq stFailed [1, w32 (l.arg / 32)] s)) ∧
      (∀ k, s.firstSpare = some k →
        (imgStateVer s.boot.slotA ≠ imgStateVer s.boot.slotB → ∀ c,
          exec (.fwRoleMove c) s = .next (finishLong l.dseq stFailed [2, w32 (l.arg / 32)] s)) ∧
        (imgStateVer s.boot.slotA = imgStateVer s.boot.slotB →
          (exec (.fwRoleMove true) s = .next (finishLong l.dseq stFailed [3, w32 (l.arg / 32)] s)) ∧
          (∃ t, exec (.fwRoleMove false) s = .next t ∧ (t.marshal k).role.toNat = role ∧ (t.marshal k).st = .running ∧
            (t.marshal k).slot = !s.boot.slot ∧ (t.marshal m).role = 0 ∧ (t.marshal m).st = .off ∧
            (∀ j, j ≠ k → j ≠ m → t.marshal j = s.marshal j) ∧
            (left ≠ 2 ^ role → t.boot.slot = s.boot.slot ∧ t.host.recs = s.host.recs))))) ∧
    (∀ d, s.carries w 0xF2 [] = some d → exec (.deviceReset w) s = .next (answer w d stOk []
      { s with boot := { s.boot with resetAt := some (s.now + 10000, 1) } })) ∧
    (s.boot.resetAt = none → exec .warmReset s = .next s) ∧
    (∀ at_ kind, s.boot.resetAt = some (at_, kind) → s.noRepair = true →
      exec .warmReset s = .next (warmReset kind (s.advanceTo at_.toNat))) ∧
    (s.noRepair = true → exec .functionLevelReset s =
      .next (warmReset 2 { s with host := { s.host with d3hot := false } })) ∧
    (s.noRepair = true → (∀ at_, s.boot.lastWarm = some at_ → 50000000 ≤ s.boot.upNs.toNat - at_.toNat) →
      exec .sysResetN s = .next (warmReset 1 s)) ∧
    (∀ at_, s.boot.lastWarm = some at_ → s.boot.upNs.toNat - at_.toNat < 50000000 → exec .sysResetN s = .next s)) ∧
  (∀ (s t : State) (kind : BitVec 2), t = warmReset kind s →
    t.host.dseq = 0 ∧ t.host.pcw.lastHseq = 0 ∧ t.host.jcw.lastHseq = 0 ∧ t.host.hostMem = s.host.hostMem ∧
    t.cfgSeal.st = .open ∧ t.regions = {} ∧ t.starter = {} ∧ t.relay = {} ∧ t.links = [] ∧ t.commit.step = s.commit.step ∧
    t.router.bank0 = [] ∧ t.sec.dbg = 0 ∧ t.sec.lc = s.sec.lc ∧ t.ras.plotMap = s.ras.plotMap ∧
    t.host.speed = 0 ∧ t.host.width = 0 ∧ t.host.flit = false ∧ t.ras.pllAlt = false ∧ t.ras.onDup = s.ras.onDup ∧
    (∀ k, (t.stack k).sluice.pipeNext = none) ∧ t.boot.slot = s.boot.slot ∧ t.boot.lastWarm = some s.boot.upNs ∧ t.pending = s.pending ∧
    (s.sec.clearing = false → ∀ k, (t.stack k).mem = (s.stack k).mem) ∧
    ((∀ e ∈ s.plots, e.2.repNext = [] ∧ ∀ fu ∈ e.2.furrows, fu.sparesNext = []) →
      ∃ r ∈ t.host.recs, r.type = 0xF2 ∧ r.jseq = 0 ∧ r.payload = [w32 kind.toNat])) ∧
  (∀ s : State, ∃ t u, exec .coldReset s = .next t ∧ exec .powerRemoval s = .next u ∧ u.power.off = true ∧
    u = { t with power := { t.power with off := true } } ∧ t.boot.perst = true ∧ t.clocked = false ∧
    t.ras.fuses = s.ras.fuses ∧ t.ras.spareFused = s.ras.spareFused ∧ t.sec.lcBits = s.sec.lcBits ∧ t.sec.devid = s.sec.devid ∧ t.host.recs = [] ∧
    t.host.hostMem = s.host.hostMem ∧ t.pending = s.pending) ∧
  (∀ (s : State) pos boot a b ones both, (s.boot.perst = false ∨ s.power.off = true) →
    exec (.perstRelease pos boot a b ones both) s = .next s) ∧
  (∀ (s : State) pos boot a b ones both, s.boot.perst = true → s.power.off = false → ∃ t,
    exec (.perstRelease pos boot a b ones both) s = .next t ∧ t.boot.perst = false ∧ t.router.id = pos ∧ t.router.idSrc = true ∧
    t.boot.strap.toNat % 2 ^ 14 = pos.toNat ∧
    (a = false → b = false → t.clocked = false ∧ t.ras.bootFault = true ∧ t.ras.fatalCause = 3) ∧
    ((a = true ∨ b = true) → t.ras.pllAlt = !a ∧ t.ras.onDup = !a ∧
      (both = true → t.ras.bootFault = true) ∧
      (both = false → t.boot.hsDone = true ∧ t.sec.lc = (if s.sec.lcBits.getLsbD 2 then 3 else
        if s.sec.lcBits.getLsbD 1 then 2 else if s.sec.lcBits.getLsbD 0 then 1 else 0))))

/-- SEAL_OPEN opens the seal; SEAL_COMMIT closes it where REF is the sealed set's CRC, keeping every entry's CRC, and else
is FAILED or STATE; SEAL_STATUS answers the state. A pass over a set that still matches changes GEN_SEALCUR alone, and
the first that does not breaks the seal and posts SEAL_BREAK. PLOT_REMAP takes a spare for a STOPPED logical Plot and
retires the old one, or only retires it. SPARE_FUSE burns up to four repairs not yet fused. The Health Marshal carries
out a repair that is due as a command without a host sequence. Corrections counted since the last summary are posted
and cleared. (R23, R122, R421, R422, R423, R425, R426, R476, R480, R481, R483, R484) -/
def Obligations.SealAndRepair : Prop :=
  (∀ (s : State) (w : Win), s.clocked = true →
    (∀ d, s.carries w 0x90 [] = some d → exec (.sealOpen w) s =
      .next (answer w d stOk [] { s with cfgSeal := { s.cfgSeal with st := .open, cur := 0 } })) ∧
    (∀ ref d, s.carries w 0x91 [BitVec.toNat (w := 32) ref] = some d →
      (s.cfgSeal.st = .open → s.sealRef = ref → exec (.sealCommit w ref) s = .next (answer w d stOk []
        { s with cfgSeal := { s.cfgSeal with st := .sealed, ref := ref, crcs := s.entryCrcs } })) ∧
      (s.cfgSeal.st = .open → s.sealRef ≠ ref → exec (.sealCommit w ref) s = .next (answer w d stFailed (pack [(4, 1)])
        { s with cfgSeal := { s.cfgSeal with commitFail := true } })) ∧
      (s.cfgSeal.st = .sealed → exec (.sealCommit w ref) s =
        .next (answer w d (if s.cfgSeal.ref = ref then stOk else stState) [] s)) ∧
      (s.cfgSeal.st = .broken → exec (.sealCommit w ref) s = .next (answer w d stState [] s))) ∧
    (∀ d, s.carries w 0x92 [] = some d → exec (.sealStatus w) s =
      .next (answer w d stOk (pack [(4, s.cfgSeal.stat), (4, s.cfgSeal.firstBad.toNat)]) s)) ∧
    (∀ u, s.cfgSeal.st = .open → exec (.sealPass u) s = .next s) ∧
    (s.cfgSeal.st ≠ .open → s.cfgSeal.crcs = s.entryCrcs → exec (.sealPass none) s =
      .next { s with cfgSeal := { s.cfgSeal with cur := s.sealRef } }) ∧
    (∀ e : Nat, s.cfgSeal.st = .sealed → e < sealDir.length → s.entryCrcs[e]? ≠ s.cfgSeal.crcs[e]? →
      (∀ i, i < e → s.entryCrcs[i]? = s.cfgSeal.crcs[i]?) → ∃ t, exec (.sealPass none) s = .next t ∧
        t.cfgSeal.st = .broken ∧ t.cfgSeal.brk = true ∧ t.cfgSeal.cur = s.sealRef ∧ t.cfgSeal.ref = s.cfgSeal.ref ∧
        t.cfgSeal.firstBad = (if s.cfgSeal.brk then s.cfgSeal.firstBad else BitVec.ofNat 8 e) ∧
        (∃ r, t.host.recs.head? = some r ∧ r.type = 0x89 ∧ r.cls = 4 ∧ r.index.toNat = e) ∧
        State.sameButEvents { s with cfgSeal := t.cfgSeal } t) ∧
    (s.cfgSeal.st = .broken → s.entryCrcs ≠ s.cfgSeal.crcs → s.entryCrcs.length = sealDir.length → s.cfgSeal.crcs.length ≤ sealDir.length →
      ∃ t, exec (.sealPass none) s = .next t ∧ t.cfgSeal = { s.cfgSeal with cur := s.sealRef, cnt := satAdd s.cfgSeal.cnt 1 } ∧
        State.sameButEvents { s with cfgSeal := t.cfgSeal } t) ∧
    (∀ (lplot phys d : BitVec 32) (ans : Bool), s.carries w 0x80 [lplot.toNat, phys.toNat] = some d →
      (s.phys? lplot.toNat = none → exec (.plotRemap w lplot phys ans) s = .next (answer w d stRange [] s)) ∧
      (∀ o p, s.phys? lplot.toNat = some o → p = phys.toNat →
        (p ≠ 0x1FF → (272 ≤ p ∨ s.plotState p ≠ .spare) →
          exec (.plotRemap w lplot phys ans) s = .next (answer w d stRange [] s)) ∧
        ((p = 0x1FF ∨ (p < 272 ∧ s.plotState p = .spare)) →
          ((s.power.st = .retain ∨ (s.plot o).pacer.st ≠ .stopped ∨ (p ≠ 0x1FF ∧ (s.plot p).pacer.st ≠ .stopped)) →
            exec (.plotRemap w lplot phys ans) s = .next (answer w d stState [] s)) ∧
          (s.power.st ≠ .retain → (s.plot o).pacer.st = .stopped → (p = 0x1FF ∨ (s.plot p).pacer.st = .stopped) →
            (p = 0x1FF ∨ o ≠ p) → ∃ t,
            exec (.plotRemap w lplot phys ans) s = .next (answer w d stOk [] t) ∧ t.plotState o = .retired ∧
            (p = 0x1FF → t.phys? lplot.toNat = none ∧ (∃ r, t.host.recs.head? = some r ∧ r.type = 0x84 ∧ r.cls = 2 ∧ r.dseq = d)) ∧
            (p ≠ 0x1FF → t.phys? lplot.toNat = some p ∧ t.plotState p = .enabled ∧
              (∃ r, t.host.recs.head? = some r ∧ r.type = 0x83 ∧ r.cls = 3 ∧ r.dseq = d) ∧
              (ans = true → (t.plot p).stepMem = (s.plot o).stepMem ∧ (t.plot p).vtab = (s.plot o).vtab ∧
                (t.plot p).dtab = (s.plot o).dtab ∧ (t.plot p).resv = (s.plot o).resv ∧ (t.plot p).wexp = (s.plot o).wexp ∧
                (t.plot p).pacer.ptime = (s.plot o).pacer.ptime ∧
                (t.plot p).pacer.startEntry = (s.plot o).pacer.startEntry) ∧
              (ans = false → (t.plot p).stepMem = [] ∧ (t.plot p).resv = [])) ∧
            (∀ q, q ≠ o → q ≠ p → t.plot q = s.plot q) ∧
            State.sameButEvents { s with plots := t.plots, ras := { s.ras with
              plotSt := t.ras.plotSt, plotMap := t.ras.plotMap, unmapped := t.ras.unmapped } } t)))) ∧
    (∀ d left ws, s.carries w 0x84 [] = some d → left = 1024 - s.ras.fuses.length → ws = s.unfused.take (min 4 left) →
      (left = 0 → exec (.spareFuse w) s = .next (answer w d stExhausted [] s)) ∧
      (left ≠ 0 → ∃ t, exec (.spareFuse w) s = .next (answer w d stOk (pack [(4, left - ws.length)]) t) ∧
        t.ras.fuses = s.ras.fuses ++ ws.map w32 ∧
        (∃ r, t.host.recs.head? = some r ∧ r.type = 0x8D ∧ r.dseq = d) ∧
        t = { s with ras := { s.ras with fuses := t.ras.fuses },
                     host := { s.host with recs := t.host.recs, jhead := t.host.jhead } }))) ∧
  (∀ s : State, s.clocked = true →
    (∀ a ecc, s.roleUp 4 = false → exec (.healthAutoRepair a ecc) s = .next s) ∧
    (∀ p f col ecc, s.roleUp 4 = true → s.ras.auto.getLsbD 0 = false → exec (.healthAutoRepair (.column p f col) ecc) s = .next s) ∧
    (∀ p f col ecc, s.roleUp 4 = true → s.ras.auto.getLsbD 0 = true → col < 65 →
      2 ≤ ((((s.plot p).residueCnt).get (f * 1024 + col) []).filter (fun t => s.now.toNat - t.toNat < 86400000000000)).length →
      f < (s.plot p).furrows.length → ((s.plot p).furrow f).map.spareEn = false → s.plotWritable p = true → ∃ t,
        exec (.healthAutoRepair (.column p f col) ecc) s = .next t ∧ t.host.dseq = s.host.dseq + 1 ∧
        ((t.plot p).furrow f).map = { badCol := BitVec.ofNat 7 col, spareEn := true } ∧
        ((t.plot p).furrow f).mapPending = true ∧ (∀ q, q ≠ p → t.plot q = s.plot q)) ∧
    (∀ per u, per = s.ras.ceSumMs.toNat * 1000000 → u = s.advanceTo ((s.now.toNat / per + 1) * per) →
      ((∀ n ∈ s.ras.ceNow, n = 0) → exec .ceSummaryTimer s = .next u) ∧
      ((∃ n ∈ s.ras.ceNow, n ≠ 0) → ∃ t, exec .ceSummaryTimer s = .next t ∧
        u.posted t 0x82 1 0 (s.ras.ceNow.map w32) ∧ t.ras = { u.ras with ceNow := [0, 0, 0, 0, 0, 0] } ∧
        t = { u with ras := t.ras, host := { u.host with recs := t.host.recs, jhead := t.host.jhead } })))

/-- A token that fails a check is rejected with its cause; a debug token that passes sets the level, or in PROD starts the
clear for FULL where the machine is quiet; lowering needs no token; a lifecycle token that passes burns the target's
bit, and withdraws signing. Each draws a new nonce. MEASUREMENTS and DEVID_CHAIN write at most MAX bytes to the host.
SPDM is answered while its role runs, beyond GET_CAPABILITIES only in DEV and PROD, and signed only while SIGN_OK. The
management controller reads sensors and sets TDP, cap and ceilings while the Health role runs. The test port answers
what the debug level opens; a Marshal's step is refused, as its instructions are not given. (R429, R454, R456, R457,
R458, R460, R462, R463, R464, R468, R469, R470) -/
def Obligations.TokensAndAttestation : Prop :=
  (∀ (s : State) (w : Win) (d : BitVec 32), s.clocked = true →
    (∀ (addr : BitVec 64) (bytes : BitVec 32) ecc n g b, n = bytes.toNat → s.carries w 0xA2 [addr.toNat, n] = some d →
      s.tokenWaits addr.toNat n = false → n ≠ 0 → g = devRead none addr.toNat n ecc s → b = g.1.bytes →
      ((s.sec.lcPending = true ∨ s.power.st = .retain) →
        exec (.debugToken w addr bytes ecc) s = .next (answer w d stState [] (newNonce s))) ∧
      (s.sec.lcPending = false → s.power.st ≠ .retain →
        (n ≠ 512 → exec (.debugToken w addr bytes ecc) s =
          .next (answer w d stFailed (pack [(4, 1)]) (newNonce (tokReject w 1 0 0 d s).s))) ∧
        (n = 512 → (2 ^ 48 < addr.toNat + n ∨ s.memErr none addr.toNat n ≠ 0) →
          exec (.debugToken w addr bytes ecc) s = .next (answer w d stRange [] (newNonce s))) ∧
        (n = 512 → addr.toNat + n ≤ 2 ^ 48 → s.memErr none addr.toNat n = 0 → g.1.bad ≠ [] →
          exec (.debugToken w addr bytes ecc) s = .next (answer w d stFailed (pack [(4, 1)])
            (caused s.host.jhead d (newNonce (tokReject w 1 0 0 d g.2).s)))) ∧
        (n = 512 → addr.toNat + n ≤ 2 ^ 48 → s.memErr none addr.toNat n = 0 → g.1.bad = [] →
          (∀ k, tokCause s.sec b 1 0 = some k → exec (.debugToken w addr bytes ecc) s = .next (answer w d stFailed (pack [(4, k)])
            (caused s.host.jhead d (newNonce (tokReject w k (tokKind b) (keyId b) d g.2).s)))) ∧
          (tokCause s.sec b 1 0 = none → (tokValue b ≠ 2 ∨ s.sec.lc ≠ 2) → exec (.debugToken w addr bytes ecc) s =
            .next (answer w d stOk (pack [(4, tokValue b)])
              (caused s.host.jhead d (newNonce (setDebug (tokValue b) (keyId b) d g.2))))) ∧
          (tokCause s.sec b 1 0 = none → tokValue b = 2 → s.sec.lc = 2 →
            (g.2.clearOk = false → exec (.debugToken w addr bytes ecc) s = .next (answer w d stState []
              (caused s.host.jhead d (newNonce g.2)))) ∧
            (g.2.clearOk = true → exec (.debugToken w addr bytes ecc) s = .next (answer w d stAccepted []
              (caused s.host.jhead d (newNonce (startLong w 0xA2 d 0 { g.2 with sec := { g.2.sec with
                clearing := true, clearTok := some (d, BitVec.ofNat 4 (keyId b), s.now) } }))))))))) ∧
    (∀ addr (bytes : BitVec 32) ecc, (bytes = 0 ∨ s.tokenWaits (BitVec.toNat (w := 64) addr) bytes.toNat = true) →
      exec (.debugToken w addr bytes ecc) s = .next s) ∧
    (∀ addr, s.power.busy = false → s.sec.clearing = false → s.carries w 0xA2 [BitVec.toNat (w := 64) addr, 0] = some d →
      exec (.debugTokenLower w addr) s = .next (answer w d stOk (pack [(4, 0)]) (newNonce (setDebug 0 0 d s)))) ∧
    (∀ (target bytes : BitVec 32) (addr : BitVec 64) ecc n g b, n = bytes.toNat →
      s.carries w 0xA3 [target.toNat, addr.toNat, n] = some d → s.tokenWaits addr.toNat n = false →
      g = devRead none addr.toNat n ecc s → b = g.1.bytes →
      (s.sec.lcPending = true → exec (.lifecycle w target addr bytes ecc) s = .next (answer w d stState [] (newNonce s))) ∧
      (s.sec.lcPending = false → n ≠ 512 → exec (.lifecycle w target addr bytes ecc) s =
        .next (answer w d stFailed (pack [(4, 1)]) (newNonce (tokReject w 1 0 0 d s).s))) ∧
      (s.sec.lcPending = false → n = 512 → (2 ^ 48 < addr.toNat + n ∨ s.memErr none addr.toNat n ≠ 0) →
        exec (.lifecycle w target addr bytes ecc) s = .next (answer w d stRange [] (newNonce s))) ∧
      (s.sec.lcPending = false → n = 512 → addr.toNat + n ≤ 2 ^ 48 → s.memErr none addr.toNat n = 0 → g.1.bad ≠ [] →
        exec (.lifecycle w target addr bytes ecc) s = .next (answer w d stFailed (pack [(4, 1)])
          (caused s.host.jhead d (newNonce (tokReject w 1 0 0 d g.2).s)))) ∧
      (s.sec.lcPending = false → n = 512 → addr.toNat + n ≤ 2 ^ 48 → s.memErr none addr.toNat n = 0 → g.1.bad = [] →
        (∀ k, tokCause s.sec b 2 target.toNat = some k → exec (.lifecycle w target addr bytes ecc) s =
          .next (answer w d stFailed (pack [(4, k)])
            (caused s.host.jhead d (newNonce (tokReject w k (tokKind b) (keyId b) d g.2).s)))) ∧
        (tokCause s.sec b 2 target.toNat = none → ∃ t, exec (.lifecycle w target addr bytes ecc) s =
          .next (answer w d stOk (pack [(4, target.toNat)]) (newNonce t)) ∧
          t.sec = { s.sec with lcBits := s.sec.lcBits ||| (1 <<< (target.toNat - 1)), lcPending := true,
                               lcTarget := target.truncate 2, signOk := false } ∧
          (∃ r ∈ t.host.recs.take 2, r.type = 0xC2 ∧ r.dseq = d ∧
            r.payload = [w32 s.sec.lc.toNat, target, w32 (keyId b)])))) ∧
    (∀ (host : BitVec 64) (max : BitVec 32) out, s.host.d3hot = false →
      (s.carries w 0xA0 [host.toNat, max.toNat] = some d → out = s.blocks.take max.toNat →
        exec (.measurements w host max) s = .next (answer w d stOk (pack [(4, out.length)]) (s.hostPut host.toNat out))) ∧
      (s.carries w 0xA1 [host.toNat, max.toNat] = some d → out = List.take max.toNat (if s.sec.lc = 0 then
          (if s.sec.devid = [] then [] else edPublic s.sec.devid) else s.sec.chain) →
        exec (.devidChain w host max) s = .next (answer w d stOk (pack [(4, out.length)]) (s.hostPut host.toNat out)))) ∧
    (s.sec.clearTok = none → exec .contentClearComplete s = .next s) ∧
    (∀ c key t0, s.sec.clearTok = some (c, key, t0) → ∃ t, exec .contentClearComplete s = .next t ∧
      t.sec.dbg = 2 ∧ t.sec.clearing = false ∧ t.sec.clearTok = none ∧ t.sec.signOk = false ∧
      (∀ p, (t.plot p).resv = [] ∧ (t.plot p).stepMem = []) ∧ (∀ k, (t.stack k).mem = []) ∧
      (s.roleUp 1 = true → ∀ l ∈ t.host.longs, l ∈ s.host.longs))) ∧
  (∀ (s t : State) (kind cause key : Nat) (w : Win) (d : BitVec 32), t = (tokReject w cause kind key d s).s →
    t.sec = { s.sec with tokReject := true,
                         tokCause := if s.sec.tokReject then s.sec.tokCause else BitVec.ofNat 4 cause } ∧
    s.posted t 0xC1 0 (if w = .pcw then 0 else 1) [w32 kind, w32 cause, w32 key]) ∧
  (∀ (s t : State) (level key : Nat) (d : BitVec 32), level < 4 → t = setDebug level key d s →
    t.sec.dbg.toNat = level ∧ (s.sec.dbg.toNat ≤ s.sec.debugMax.toNat → level ≤ t.sec.debugMax.toNat ∧
      s.sec.debugMax.toNat ≤ t.sec.debugMax.toNat) ∧ (s.sec.dbg.toNat = level → t = s)) ∧
  (∀ (s : State) (doe : Bool), s.clocked = true →
    (s.roleUp (if doe then 1 else 4) = false → ∀ q slot off len index signed nonce, ∀ c ∈ [Instr.getVersion doe,
      .getCapabilities doe, .negotiateAlgorithms doe q, .getDigests doe, .getCertificate doe slot off len,
      .challenge doe slot nonce, .getMeasurements doe index signed nonce], exec c s = .next s) ∧
    (s.roleUp (if doe then 1 else 4) = true →
      exec (.getVersion doe) s = .next { s with sec := { s.sec with spdm := [0x10, 0x04, 0, 0, 0, 1, 0, 0x12] } } ∧
      (∃ t, exec (.getCapabilities doe) s = .next t ∧ t.sec.spdm.take 2 = [0x12, 0x61] ∧
        (t.sec.spdm.drop 8).take 4 = [0x16, 0, 0, 0] ∧ t.sec.spdm.length = 20 ∧
        t = { s with free := s.free + 9, sec := { s.sec with spdm := t.sec.spdm } }) ∧
      (s.sec.lc ≠ 1 → s.sec.lc ≠ 2 → ∀ q slot off len index signed nonce, ∀ c ∈ [Instr.negotiateAlgorithms doe q,
        .getDigests doe, .getCertificate doe slot off len, .challenge doe slot nonce, .getMeasurements doe index signed nonce],
        exec c s = .next { s with sec := { s.sec with spdm := [0x12, 0x7F, 5, 0] } }) ∧
      ((s.sec.lc = 1 ∨ s.sec.lc = 2) →
        (∀ q, ∃ t, exec (.negotiateAlgorithms doe q) s = .next t ∧ t.sec.spdm.length = 36 ∧
          t.sec.spdm.take 2 = [0x12, 0x63] ∧ t = { s with sec := { s.sec with spdm := t.sec.spdm } }) ∧
        (s.sec.cert ≠ [] → exec (.getDigests doe) s =
          .next { s with sec := { s.sec with spdm := [0x12, 0x01, 0, 1] ++ sha512 s.sec.chain } }) ∧
        (∀ off len, off < s.sec.chain.length → len = min 1024 (s.sec.chain.length - off) → ∃ t,
          exec (.getCertificate doe 0 off len) s = .next t ∧ t.sec.spdm.drop 8 = (s.sec.chain.drop off).take len ∧
          t.sec.spdm.take 2 = [0x12, 0x02] ∧ t = { s with sec := { s.sec with spdm := t.sec.spdm } }) ∧
        (∀ slot nonce index, s.sec.signOk = false → ∀ c ∈ [Instr.challenge doe slot nonce, .getMeasurements doe index true nonce],
          exec c s = .next { s with sec := { s.sec with spdm := [0x12, 0x7F, 5, 0] } }) ∧
        (∀ nonce, s.sec.signOk = true → s.sec.cert ≠ [] → nonce.length = 32 → ∃ t,
          exec (.challenge doe 0 nonce) s = .next t ∧ t.sec.spdm.take 4 = [0x12, 0x03, 0, 1] ∧
          (t.sec.spdm.drop 4).take (sha512 s.sec.chain).length = sha512 s.sec.chain ∧
          t = { s with free := t.free, sec := { s.sec with spdm := t.sec.spdm } }) ∧
        (∀ nonce, ∃ t, exec (.getMeasurements doe 255 false nonce) s = .next t ∧ t.sec.spdm.take 5 = [0x12, 0x60, 0, 0, 7] ∧
          (t.sec.spdm.drop 8).take s.blocks.length = s.blocks ∧
          t = { s with free := t.free, sec := { s.sec with spdm := t.sec.spdm } })))) ∧
  (∀ s : State, s.clocked = true →
    (∀ q, s.roleUp 4 = false → exec (.mctpRequest q) s = .next s) ∧
    (s.roleUp 4 = true →
      exec (.mctpRequest .monitor) s = .next { s with sec := { s.sec with pldm := s.sensors } } ∧
      (∀ tdp : BitVec 16, exec (.mctpRequest (.setTdp tdp)) s = .next
        (if 2400 ≤ tdp.toNat ∧ tdp.toNat ≤ (if s.power.orderCode then 3200 else 3800) then
          { s with power := { s.power with tdp := tdp } } else s)) ∧
      (∀ cap, exec (.mctpRequest (.setCap cap)) s = .next { s with power := { s.power with capBmc := cap } }) ∧
      (∀ islands mhz, ∃ t, exec (.mctpRequest (.setCeil islands mhz)) s = .next t ∧
        (∀ i, i < s.power.islands.length → t.power.islands.getD i {} = if islands.getLsbD i then
          { s.power.islands.getD i {} with ceilBmc := mhz } else s.power.islands.getD i {}) ∧
        t = { s with power := { s.power with islands := t.power.islands } })) ∧
    (∀ op, s.portOpen op = false → exec (.debugPortAccess op) s = .next { s with host := { s.host with dbgData := [] } }) ∧
    (∀ op, s.portOpen op = true → s.portWaits op = true → exec (.debugPortAccess op) s = .next s) ∧
    (∀ op, s.portOpen op = true → s.portWaits op = false → (∀ m, op ≠ .step m) → exec (.debugPortAccess op) s = .next (debugOp op s)) ∧
    (∀ m, s.sec.dbg = 2 → m < 6 → (s.marshal m).halted = true →
      exec (.debugPortAccess (.step m)) s = .refused .marshalInstruction) ∧
    (∀ op, op ∈ [DbgOp.idcode, .boundary] → s.portOpen op = true) ∧
    (∀ p a n, s.sec.dbg ≠ 2 → s.sec.dbg ≠ 3 → ∀ op ∈ [DbgOp.rsvRead p a n, .stepRead p a n, .hbmRead p a n, .sramRead a n],
      s.portOpen op = false) ∧
    (∀ p a bs, s.sec.dbg = 2 → s.power.st ≠ .retain → p < 272 → a + bs.length ≤ 16777216 → ∃ t,
      exec (.debugPortAccess (.rsvWrite p a bs)) s = .next t ∧ (t.plot p).resv = (s.plot p).resv.write a bs ∧
      (∀ q, q ≠ p → t.plot q = s.plot q) ∧ t = { s with plots := t.plots }))

/-- In every state in which each Plot's RUN counter is the sum of its ISSUE, FULL and wait counters, every step that
answers a next state keeps it so, whatever command is at the front of the queue, and with none waiting. (R11, R124) -/
def Obligations.RunCountsAddUp : Prop :=
  ∀ s t : State, s.countsAdd → step s = .next t → t.countsAdd

/-- Every step that answers a next state keeps the six Marshals, a debug level that is one of the three and not above the
highest since the cold reset, a Journal of at most 65,536 records whose JSEQ fall by one from the last one assigned, a
Plot map in which no physical Plot serves two logical ones and only enabled ones serve, held events that name no Plot
twice, the sizes of the counter, lane and Furrow tables, and distinct issue numbers of the queued Plot DMA transfers.
(R121, R233, R273, R275, R393, R399, R401, R429, R463, R464, R470, R481) -/
def Obligations.ControlInvariantKept : Prop :=
  ∀ s t : State, s.controlInv → step s = .next t → t.controlInv

/-- Every step that answers a next state keeps the valid regions apart in device addresses and in stack bytes and below
the 60 GiB of a stack. The step in which SEAL_PASS brings a fault that flips sealed bits is left out: such a fault
changes registers unchecked. (R146, R147) -/
def Obligations.RegionsStayApart : Prop :=
  ∀ s t : State, s.regionsApart → (∀ u rest, s.pending ≠ Instr.sealPass (some u) :: rest) → step s = .next t → t.regionsApart

/-- The state after reset meets the three invariants; PERST_N is asserted, so no clock runs; the boot window is in INIT,
both windows are OFFLINE, the Journal is empty, every Pacer is STOPPED, the seal is OPEN, no command waits, and memory
lists nothing. (R11, R124, R146, R386, R393, R401, R431, R465) -/
def Obligations.ResetState : Prop :=
  State.reset.countsAdd ∧ State.reset.controlInv ∧ State.reset.regionsApart ∧
  State.reset.pending = [] ∧ State.reset.clocked = false ∧ State.reset.boot.st = .init ∧
  State.reset.host.pcw.st = .offline ∧ State.reset.host.jcw.st = .offline ∧ State.reset.host.recs = [] ∧
  State.reset.host.dseq = 0 ∧ State.reset.cfgSeal.st = .open ∧ State.reset.host.hostMem = [] ∧
  (∀ p, (State.reset.plot p).pacer.st = .stopped ∧ (State.reset.plot p).resv = []) ∧
  (∀ k, (State.reset.stack k).mem = [])
end

