-- ==== Sys2Proof/Laws/State.lean ====
section
/-! SUPPORT. What each update of the state leaves of each field, so that no proof unfolds a record update. -/

namespace Sys2Proof.Machine

variable (s : State)

/-! ### setPlot -/

@[simp] theorem State.setPlot_pending (p : Nat) (x : Plot) : (s.setPlot p x).pending = s.pending := rfl
@[simp] theorem State.setPlot_plots (p : Nat) (x : Plot) : (s.setPlot p x).plots = s.plots.put p x := rfl
@[simp] theorem State.setPlot_stks (p : Nat) (x : Plot) : (s.setPlot p x).stks = s.stks := rfl
@[simp] theorem State.setPlot_regions (p : Nat) (x : Plot) : (s.setPlot p x).regions = s.regions := rfl
@[simp] theorem State.setPlot_mesh (p : Nat) (x : Plot) : (s.setPlot p x).mesh = s.mesh := rfl
@[simp] theorem State.setPlot_commit (p : Nat) (x : Plot) : (s.setPlot p x).commit = s.commit := rfl
@[simp] theorem State.setPlot_clock (p : Nat) (x : Plot) : (s.setPlot p x).clock = s.clock := rfl
@[simp] theorem State.setPlot_starter (p : Nat) (x : Plot) : (s.setPlot p x).starter = s.starter := rfl
@[simp] theorem State.setPlot_links (p : Nat) (x : Plot) : (s.setPlot p x).links = s.links := rfl
@[simp] theorem State.setPlot_router (p : Nat) (x : Plot) : (s.setPlot p x).router = s.router := rfl
@[simp] theorem State.setPlot_relay (p : Nat) (x : Plot) : (s.setPlot p x).relay = s.relay := rfl
@[simp] theorem State.setPlot_host (p : Nat) (x : Plot) : (s.setPlot p x).host = s.host := rfl
@[simp] theorem State.setPlot_boot (p : Nat) (x : Plot) : (s.setPlot p x).boot = s.boot := rfl
@[simp] theorem State.setPlot_power (p : Nat) (x : Plot) : (s.setPlot p x).power = s.power := rfl
@[simp] theorem State.setPlot_sec (p : Nat) (x : Plot) : (s.setPlot p x).sec = s.sec := rfl
@[simp] theorem State.setPlot_ras (p : Nat) (x : Plot) : (s.setPlot p x).ras = s.ras := rfl
@[simp] theorem State.setPlot_cfgSeal (p : Nat) (x : Plot) : (s.setPlot p x).cfgSeal = s.cfgSeal := rfl
@[simp] theorem State.setPlot_free (p : Nat) (x : Plot) : (s.setPlot p x).free = s.free := rfl

/-! ### onPlot -/

@[simp] theorem State.onPlot_pending (p : Nat) (f : Plot → Plot) : (s.onPlot p f).pending = s.pending := rfl
@[simp] theorem State.onPlot_plots (p : Nat) (f : Plot → Plot) : (s.onPlot p f).plots = s.plots.put p (f (s.plot p)) := rfl
@[simp] theorem State.onPlot_stks (p : Nat) (f : Plot → Plot) : (s.onPlot p f).stks = s.stks := rfl
@[simp] theorem State.onPlot_regions (p : Nat) (f : Plot → Plot) : (s.onPlot p f).regions = s.regions := rfl
@[simp] theorem State.onPlot_mesh (p : Nat) (f : Plot → Plot) : (s.onPlot p f).mesh = s.mesh := rfl
@[simp] theorem State.onPlot_commit (p : Nat) (f : Plot → Plot) : (s.onPlot p f).commit = s.commit := rfl
@[simp] theorem State.onPlot_clock (p : Nat) (f : Plot → Plot) : (s.onPlot p f).clock = s.clock := rfl
@[simp] theorem State.onPlot_starter (p : Nat) (f : Plot → Plot) : (s.onPlot p f).starter = s.starter := rfl
@[simp] theorem State.onPlot_links (p : Nat) (f : Plot → Plot) : (s.onPlot p f).links = s.links := rfl
@[simp] theorem State.onPlot_router (p : Nat) (f : Plot → Plot) : (s.onPlot p f).router = s.router := rfl
@[simp] theorem State.onPlot_relay (p : Nat) (f : Plot → Plot) : (s.onPlot p f).relay = s.relay := rfl
@[simp] theorem State.onPlot_host (p : Nat) (f : Plot → Plot) : (s.onPlot p f).host = s.host := rfl
@[simp] theorem State.onPlot_boot (p : Nat) (f : Plot → Plot) : (s.onPlot p f).boot = s.boot := rfl
@[simp] theorem State.onPlot_power (p : Nat) (f : Plot → Plot) : (s.onPlot p f).power = s.power := rfl
@[simp] theorem State.onPlot_sec (p : Nat) (f : Plot → Plot) : (s.onPlot p f).sec = s.sec := rfl
@[simp] theorem State.onPlot_ras (p : Nat) (f : Plot → Plot) : (s.onPlot p f).ras = s.ras := rfl
@[simp] theorem State.onPlot_cfgSeal (p : Nat) (f : Plot → Plot) : (s.onPlot p f).cfgSeal = s.cfgSeal := rfl
@[simp] theorem State.onPlot_free (p : Nat) (f : Plot → Plot) : (s.onPlot p f).free = s.free := rfl

/-! ### setStack -/

@[simp] theorem State.setStack_pending (k : Nat) (x : Stack) : (s.setStack k x).pending = s.pending := rfl
@[simp] theorem State.setStack_plots (k : Nat) (x : Stack) : (s.setStack k x).plots = s.plots := rfl
@[simp] theorem State.setStack_stks (k : Nat) (x : Stack) : (s.setStack k x).stks = s.stks.put k x := rfl
@[simp] theorem State.setStack_regions (k : Nat) (x : Stack) : (s.setStack k x).regions = s.regions := rfl
@[simp] theorem State.setStack_mesh (k : Nat) (x : Stack) : (s.setStack k x).mesh = s.mesh := rfl
@[simp] theorem State.setStack_commit (k : Nat) (x : Stack) : (s.setStack k x).commit = s.commit := rfl
@[simp] theorem State.setStack_clock (k : Nat) (x : Stack) : (s.setStack k x).clock = s.clock := rfl
@[simp] theorem State.setStack_starter (k : Nat) (x : Stack) : (s.setStack k x).starter = s.starter := rfl
@[simp] theorem State.setStack_links (k : Nat) (x : Stack) : (s.setStack k x).links = s.links := rfl
@[simp] theorem State.setStack_router (k : Nat) (x : Stack) : (s.setStack k x).router = s.router := rfl
@[simp] theorem State.setStack_relay (k : Nat) (x : Stack) : (s.setStack k x).relay = s.relay := rfl
@[simp] theorem State.setStack_host (k : Nat) (x : Stack) : (s.setStack k x).host = s.host := rfl
@[simp] theorem State.setStack_boot (k : Nat) (x : Stack) : (s.setStack k x).boot = s.boot := rfl
@[simp] theorem State.setStack_power (k : Nat) (x : Stack) : (s.setStack k x).power = s.power := rfl
@[simp] theorem State.setStack_sec (k : Nat) (x : Stack) : (s.setStack k x).sec = s.sec := rfl
@[simp] theorem State.setStack_ras (k : Nat) (x : Stack) : (s.setStack k x).ras = s.ras := rfl
@[simp] theorem State.setStack_cfgSeal (k : Nat) (x : Stack) : (s.setStack k x).cfgSeal = s.cfgSeal := rfl
@[simp] theorem State.setStack_free (k : Nat) (x : Stack) : (s.setStack k x).free = s.free := rfl

/-! ### onStack -/

@[simp] theorem State.onStack_pending (k : Nat) (f : Stack → Stack) : (s.onStack k f).pending = s.pending := rfl
@[simp] theorem State.onStack_plots (k : Nat) (f : Stack → Stack) : (s.onStack k f).plots = s.plots := rfl
@[simp] theorem State.onStack_stks (k : Nat) (f : Stack → Stack) : (s.onStack k f).stks = s.stks.put k (f (s.stack k)) := rfl
@[simp] theorem State.onStack_regions (k : Nat) (f : Stack → Stack) : (s.onStack k f).regions = s.regions := rfl
@[simp] theorem State.onStack_mesh (k : Nat) (f : Stack → Stack) : (s.onStack k f).mesh = s.mesh := rfl
@[simp] theorem State.onStack_commit (k : Nat) (f : Stack → Stack) : (s.onStack k f).commit = s.commit := rfl
@[simp] theorem State.onStack_clock (k : Nat) (f : Stack → Stack) : (s.onStack k f).clock = s.clock := rfl
@[simp] theorem State.onStack_starter (k : Nat) (f : Stack → Stack) : (s.onStack k f).starter = s.starter := rfl
@[simp] theorem State.onStack_links (k : Nat) (f : Stack → Stack) : (s.onStack k f).links = s.links := rfl
@[simp] theorem State.onStack_router (k : Nat) (f : Stack → Stack) : (s.onStack k f).router = s.router := rfl
@[simp] theorem State.onStack_relay (k : Nat) (f : Stack → Stack) : (s.onStack k f).relay = s.relay := rfl
@[simp] theorem State.onStack_host (k : Nat) (f : Stack → Stack) : (s.onStack k f).host = s.host := rfl
@[simp] theorem State.onStack_boot (k : Nat) (f : Stack → Stack) : (s.onStack k f).boot = s.boot := rfl
@[simp] theorem State.onStack_power (k : Nat) (f : Stack → Stack) : (s.onStack k f).power = s.power := rfl
@[simp] theorem State.onStack_sec (k : Nat) (f : Stack → Stack) : (s.onStack k f).sec = s.sec := rfl
@[simp] theorem State.onStack_ras (k : Nat) (f : Stack → Stack) : (s.onStack k f).ras = s.ras := rfl
@[simp] theorem State.onStack_cfgSeal (k : Nat) (f : Stack → Stack) : (s.onStack k f).cfgSeal = s.cfgSeal := rfl
@[simp] theorem State.onStack_free (k : Nat) (f : Stack → Stack) : (s.onStack k f).free = s.free := rfl

/-! ### setLink -/

@[simp] theorem State.setLink_pending (l : Nat) (x : Link) : (s.setLink l x).pending = s.pending := rfl
@[simp] theorem State.setLink_plots (l : Nat) (x : Link) : (s.setLink l x).plots = s.plots := rfl
@[simp] theorem State.setLink_stks (l : Nat) (x : Link) : (s.setLink l x).stks = s.stks := rfl
@[simp] theorem State.setLink_regions (l : Nat) (x : Link) : (s.setLink l x).regions = s.regions := rfl
@[simp] theorem State.setLink_mesh (l : Nat) (x : Link) : (s.setLink l x).mesh = s.mesh := rfl
@[simp] theorem State.setLink_commit (l : Nat) (x : Link) : (s.setLink l x).commit = s.commit := rfl
@[simp] theorem State.setLink_clock (l : Nat) (x : Link) : (s.setLink l x).clock = s.clock := rfl
@[simp] theorem State.setLink_starter (l : Nat) (x : Link) : (s.setLink l x).starter = s.starter := rfl
@[simp] theorem State.setLink_links (l : Nat) (x : Link) : (s.setLink l x).links = s.links.put l x := rfl
@[simp] theorem State.setLink_router (l : Nat) (x : Link) : (s.setLink l x).router = s.router := rfl
@[simp] theorem State.setLink_relay (l : Nat) (x : Link) : (s.setLink l x).relay = s.relay := rfl
@[simp] theorem State.setLink_host (l : Nat) (x : Link) : (s.setLink l x).host = s.host := rfl
@[simp] theorem State.setLink_boot (l : Nat) (x : Link) : (s.setLink l x).boot = s.boot := rfl
@[simp] theorem State.setLink_power (l : Nat) (x : Link) : (s.setLink l x).power = s.power := rfl
@[simp] theorem State.setLink_sec (l : Nat) (x : Link) : (s.setLink l x).sec = s.sec := rfl
@[simp] theorem State.setLink_ras (l : Nat) (x : Link) : (s.setLink l x).ras = s.ras := rfl
@[simp] theorem State.setLink_cfgSeal (l : Nat) (x : Link) : (s.setLink l x).cfgSeal = s.cfgSeal := rfl
@[simp] theorem State.setLink_free (l : Nat) (x : Link) : (s.setLink l x).free = s.free := rfl

/-! ### onLink -/

@[simp] theorem State.onLink_pending (l : Nat) (f : Link → Link) : (s.onLink l f).pending = s.pending := rfl
@[simp] theorem State.onLink_plots (l : Nat) (f : Link → Link) : (s.onLink l f).plots = s.plots := rfl
@[simp] theorem State.onLink_stks (l : Nat) (f : Link → Link) : (s.onLink l f).stks = s.stks := rfl
@[simp] theorem State.onLink_regions (l : Nat) (f : Link → Link) : (s.onLink l f).regions = s.regions := rfl
@[simp] theorem State.onLink_mesh (l : Nat) (f : Link → Link) : (s.onLink l f).mesh = s.mesh := rfl
@[simp] theorem State.onLink_commit (l : Nat) (f : Link → Link) : (s.onLink l f).commit = s.commit := rfl
@[simp] theorem State.onLink_clock (l : Nat) (f : Link → Link) : (s.onLink l f).clock = s.clock := rfl
@[simp] theorem State.onLink_starter (l : Nat) (f : Link → Link) : (s.onLink l f).starter = s.starter := rfl
@[simp] theorem State.onLink_links (l : Nat) (f : Link → Link) : (s.onLink l f).links = s.links.put l (f (s.link l)) := rfl
@[simp] theorem State.onLink_router (l : Nat) (f : Link → Link) : (s.onLink l f).router = s.router := rfl
@[simp] theorem State.onLink_relay (l : Nat) (f : Link → Link) : (s.onLink l f).relay = s.relay := rfl
@[simp] theorem State.onLink_host (l : Nat) (f : Link → Link) : (s.onLink l f).host = s.host := rfl
@[simp] theorem State.onLink_boot (l : Nat) (f : Link → Link) : (s.onLink l f).boot = s.boot := rfl
@[simp] theorem State.onLink_power (l : Nat) (f : Link → Link) : (s.onLink l f).power = s.power := rfl
@[simp] theorem State.onLink_sec (l : Nat) (f : Link → Link) : (s.onLink l f).sec = s.sec := rfl
@[simp] theorem State.onLink_ras (l : Nat) (f : Link → Link) : (s.onLink l f).ras = s.ras := rfl
@[simp] theorem State.onLink_cfgSeal (l : Nat) (f : Link → Link) : (s.onLink l f).cfgSeal = s.cfgSeal := rfl
@[simp] theorem State.onLink_free (l : Nat) (f : Link → Link) : (s.onLink l f).free = s.free := rfl

/-! ### onSluice -/

@[simp] theorem State.onSluice_pending (k : Nat) (f : Sluice → Sluice) : (s.onSluice k f).pending = s.pending := rfl
@[simp] theorem State.onSluice_plots (k : Nat) (f : Sluice → Sluice) : (s.onSluice k f).plots = s.plots := rfl
@[simp] theorem State.onSluice_regions (k : Nat) (f : Sluice → Sluice) : (s.onSluice k f).regions = s.regions := rfl
@[simp] theorem State.onSluice_mesh (k : Nat) (f : Sluice → Sluice) : (s.onSluice k f).mesh = s.mesh := rfl
@[simp] theorem State.onSluice_commit (k : Nat) (f : Sluice → Sluice) : (s.onSluice k f).commit = s.commit := rfl
@[simp] theorem State.onSluice_clock (k : Nat) (f : Sluice → Sluice) : (s.onSluice k f).clock = s.clock := rfl
@[simp] theorem State.onSluice_starter (k : Nat) (f : Sluice → Sluice) : (s.onSluice k f).starter = s.starter := rfl
@[simp] theorem State.onSluice_links (k : Nat) (f : Sluice → Sluice) : (s.onSluice k f).links = s.links := rfl
@[simp] theorem State.onSluice_router (k : Nat) (f : Sluice → Sluice) : (s.onSluice k f).router = s.router := rfl
@[simp] theorem State.onSluice_relay (k : Nat) (f : Sluice → Sluice) : (s.onSluice k f).relay = s.relay := rfl
@[simp] theorem State.onSluice_host (k : Nat) (f : Sluice → Sluice) : (s.onSluice k f).host = s.host := rfl
@[simp] theorem State.onSluice_boot (k : Nat) (f : Sluice → Sluice) : (s.onSluice k f).boot = s.boot := rfl
@[simp] theorem State.onSluice_power (k : Nat) (f : Sluice → Sluice) : (s.onSluice k f).power = s.power := rfl
@[simp] theorem State.onSluice_sec (k : Nat) (f : Sluice → Sluice) : (s.onSluice k f).sec = s.sec := rfl
@[simp] theorem State.onSluice_ras (k : Nat) (f : Sluice → Sluice) : (s.onSluice k f).ras = s.ras := rfl
@[simp] theorem State.onSluice_cfgSeal (k : Nat) (f : Sluice → Sluice) : (s.onSluice k f).cfgSeal = s.cfgSeal := rfl
@[simp] theorem State.onSluice_free (k : Nat) (f : Sluice → Sluice) : (s.onSluice k f).free = s.free := rfl

/-! ### onSegTag -/

@[simp] theorem State.onSegTag_pending (k i : Nat) (f : SegTag → SegTag) : (s.onSegTag k i f).pending = s.pending := rfl
@[simp] theorem State.onSegTag_plots (k i : Nat) (f : SegTag → SegTag) : (s.onSegTag k i f).plots = s.plots := rfl
@[simp] theorem State.onSegTag_regions (k i : Nat) (f : SegTag → SegTag) : (s.onSegTag k i f).regions = s.regions := rfl
@[simp] theorem State.onSegTag_mesh (k i : Nat) (f : SegTag → SegTag) : (s.onSegTag k i f).mesh = s.mesh := rfl
@[simp] theorem State.onSegTag_commit (k i : Nat) (f : SegTag → SegTag) : (s.onSegTag k i f).commit = s.commit := rfl
@[simp] theorem State.onSegTag_clock (k i : Nat) (f : SegTag → SegTag) : (s.onSegTag k i f).clock = s.clock := rfl
@[simp] theorem State.onSegTag_starter (k i : Nat) (f : SegTag → SegTag) : (s.onSegTag k i f).starter = s.starter := rfl
@[simp] theorem State.onSegTag_links (k i : Nat) (f : SegTag → SegTag) : (s.onSegTag k i f).links = s.links := rfl
@[simp] theorem State.onSegTag_router (k i : Nat) (f : SegTag → SegTag) : (s.onSegTag k i f).router = s.router := rfl
@[simp] theorem State.onSegTag_relay (k i : Nat) (f : SegTag → SegTag) : (s.onSegTag k i f).relay = s.relay := rfl
@[simp] theorem State.onSegTag_host (k i : Nat) (f : SegTag → SegTag) : (s.onSegTag k i f).host = s.host := rfl
@[simp] theorem State.onSegTag_boot (k i : Nat) (f : SegTag → SegTag) : (s.onSegTag k i f).boot = s.boot := rfl
@[simp] theorem State.onSegTag_power (k i : Nat) (f : SegTag → SegTag) : (s.onSegTag k i f).power = s.power := rfl
@[simp] theorem State.onSegTag_sec (k i : Nat) (f : SegTag → SegTag) : (s.onSegTag k i f).sec = s.sec := rfl
@[simp] theorem State.onSegTag_ras (k i : Nat) (f : SegTag → SegTag) : (s.onSegTag k i f).ras = s.ras := rfl
@[simp] theorem State.onSegTag_cfgSeal (k i : Nat) (f : SegTag → SegTag) : (s.onSegTag k i f).cfgSeal = s.cfgSeal := rfl
@[simp] theorem State.onSegTag_free (k i : Nat) (f : SegTag → SegTag) : (s.onSegTag k i f).free = s.free := rfl

/-! ### onDma -/

@[simp] theorem State.onDma_pending (p q : Nat) (f : DmaCmd → DmaCmd) : (s.onDma p q f).pending = s.pending := rfl
@[simp] theorem State.onDma_stks (p q : Nat) (f : DmaCmd → DmaCmd) : (s.onDma p q f).stks = s.stks := rfl
@[simp] theorem State.onDma_regions (p q : Nat) (f : DmaCmd → DmaCmd) : (s.onDma p q f).regions = s.regions := rfl
@[simp] theorem State.onDma_mesh (p q : Nat) (f : DmaCmd → DmaCmd) : (s.onDma p q f).mesh = s.mesh := rfl
@[simp] theorem State.onDma_commit (p q : Nat) (f : DmaCmd → DmaCmd) : (s.onDma p q f).commit = s.commit := rfl
@[simp] theorem State.onDma_clock (p q : Nat) (f : DmaCmd → DmaCmd) : (s.onDma p q f).clock = s.clock := rfl
@[simp] theorem State.onDma_starter (p q : Nat) (f : DmaCmd → DmaCmd) : (s.onDma p q f).starter = s.starter := rfl
@[simp] theorem State.onDma_links (p q : Nat) (f : DmaCmd → DmaCmd) : (s.onDma p q f).links = s.links := rfl
@[simp] theorem State.onDma_router (p q : Nat) (f : DmaCmd → DmaCmd) : (s.onDma p q f).router = s.router := rfl
@[simp] theorem State.onDma_relay (p q : Nat) (f : DmaCmd → DmaCmd) : (s.onDma p q f).relay = s.relay := rfl
@[simp] theorem State.onDma_host (p q : Nat) (f : DmaCmd → DmaCmd) : (s.onDma p q f).host = s.host := rfl
@[simp] theorem State.onDma_boot (p q : Nat) (f : DmaCmd → DmaCmd) : (s.onDma p q f).boot = s.boot := rfl
@[simp] theorem State.onDma_power (p q : Nat) (f : DmaCmd → DmaCmd) : (s.onDma p q f).power = s.power := rfl
@[simp] theorem State.onDma_sec (p q : Nat) (f : DmaCmd → DmaCmd) : (s.onDma p q f).sec = s.sec := rfl
@[simp] theorem State.onDma_ras (p q : Nat) (f : DmaCmd → DmaCmd) : (s.onDma p q f).ras = s.ras := rfl
@[simp] theorem State.onDma_cfgSeal (p q : Nat) (f : DmaCmd → DmaCmd) : (s.onDma p q f).cfgSeal = s.cfgSeal := rfl
@[simp] theorem State.onDma_free (p q : Nat) (f : DmaCmd → DmaCmd) : (s.onDma p q f).free = s.free := rfl

/-! ### onCtx -/

@[simp] theorem State.onCtx_pending (c : Nat) (f : Ctx → Ctx) : (s.onCtx c f).pending = s.pending := rfl
@[simp] theorem State.onCtx_plots (c : Nat) (f : Ctx → Ctx) : (s.onCtx c f).plots = s.plots := rfl
@[simp] theorem State.onCtx_stks (c : Nat) (f : Ctx → Ctx) : (s.onCtx c f).stks = s.stks := rfl
@[simp] theorem State.onCtx_regions (c : Nat) (f : Ctx → Ctx) : (s.onCtx c f).regions = s.regions := rfl
@[simp] theorem State.onCtx_mesh (c : Nat) (f : Ctx → Ctx) : (s.onCtx c f).mesh = s.mesh := rfl
@[simp] theorem State.onCtx_commit (c : Nat) (f : Ctx → Ctx) : (s.onCtx c f).commit = s.commit := rfl
@[simp] theorem State.onCtx_clock (c : Nat) (f : Ctx → Ctx) : (s.onCtx c f).clock = s.clock := rfl
@[simp] theorem State.onCtx_starter (c : Nat) (f : Ctx → Ctx) : (s.onCtx c f).starter = s.starter := rfl
@[simp] theorem State.onCtx_links (c : Nat) (f : Ctx → Ctx) : (s.onCtx c f).links = s.links := rfl
@[simp] theorem State.onCtx_router (c : Nat) (f : Ctx → Ctx) : (s.onCtx c f).router = s.router := rfl
@[simp] theorem State.onCtx_host (c : Nat) (f : Ctx → Ctx) : (s.onCtx c f).host = s.host := rfl
@[simp] theorem State.onCtx_boot (c : Nat) (f : Ctx → Ctx) : (s.onCtx c f).boot = s.boot := rfl
@[simp] theorem State.onCtx_power (c : Nat) (f : Ctx → Ctx) : (s.onCtx c f).power = s.power := rfl
@[simp] theorem State.onCtx_sec (c : Nat) (f : Ctx → Ctx) : (s.onCtx c f).sec = s.sec := rfl
@[simp] theorem State.onCtx_ras (c : Nat) (f : Ctx → Ctx) : (s.onCtx c f).ras = s.ras := rfl
@[simp] theorem State.onCtx_cfgSeal (c : Nat) (f : Ctx → Ctx) : (s.onCtx c f).cfgSeal = s.cfgSeal := rfl
@[simp] theorem State.onCtx_free (c : Nat) (f : Ctx → Ctx) : (s.onCtx c f).free = s.free := rfl

/-! ### onIsland -/

@[simp] theorem State.onIsland_pending (i : Nat) (f : Island → Island) : (s.onIsland i f).pending = s.pending := rfl
@[simp] theorem State.onIsland_plots (i : Nat) (f : Island → Island) : (s.onIsland i f).plots = s.plots := rfl
@[simp] theorem State.onIsland_stks (i : Nat) (f : Island → Island) : (s.onIsland i f).stks = s.stks := rfl
@[simp] theorem State.onIsland_regions (i : Nat) (f : Island → Island) : (s.onIsland i f).regions = s.regions := rfl
@[simp] theorem State.onIsland_mesh (i : Nat) (f : Island → Island) : (s.onIsland i f).mesh = s.mesh := rfl
@[simp] theorem State.onIsland_commit (i : Nat) (f : Island → Island) : (s.onIsland i f).commit = s.commit := rfl
@[simp] theorem State.onIsland_clock (i : Nat) (f : Island → Island) : (s.onIsland i f).clock = s.clock := rfl
@[simp] theorem State.onIsland_starter (i : Nat) (f : Island → Island) : (s.onIsland i f).starter = s.starter := rfl
@[simp] theorem State.onIsland_links (i : Nat) (f : Island → Island) : (s.onIsland i f).links = s.links := rfl
@[simp] theorem State.onIsland_router (i : Nat) (f : Island → Island) : (s.onIsland i f).router = s.router := rfl
@[simp] theorem State.onIsland_relay (i : Nat) (f : Island → Island) : (s.onIsland i f).relay = s.relay := rfl
@[simp] theorem State.onIsland_host (i : Nat) (f : Island → Island) : (s.onIsland i f).host = s.host := rfl
@[simp] theorem State.onIsland_boot (i : Nat) (f : Island → Island) : (s.onIsland i f).boot = s.boot := rfl
@[simp] theorem State.onIsland_sec (i : Nat) (f : Island → Island) : (s.onIsland i f).sec = s.sec := rfl
@[simp] theorem State.onIsland_ras (i : Nat) (f : Island → Island) : (s.onIsland i f).ras = s.ras := rfl
@[simp] theorem State.onIsland_cfgSeal (i : Nat) (f : Island → Island) : (s.onIsland i f).cfgSeal = s.cfgSeal := rfl
@[simp] theorem State.onIsland_free (i : Nat) (f : Island → Island) : (s.onIsland i f).free = s.free := rfl

/-! ### onMarshal -/

@[simp] theorem State.onMarshal_pending (m : Nat) (f : Marshal → Marshal) : (s.onMarshal m f).pending = s.pending := rfl
@[simp] theorem State.onMarshal_plots (m : Nat) (f : Marshal → Marshal) : (s.onMarshal m f).plots = s.plots := rfl
@[simp] theorem State.onMarshal_stks (m : Nat) (f : Marshal → Marshal) : (s.onMarshal m f).stks = s.stks := rfl
@[simp] theorem State.onMarshal_regions (m : Nat) (f : Marshal → Marshal) : (s.onMarshal m f).regions = s.regions := rfl
@[simp] theorem State.onMarshal_mesh (m : Nat) (f : Marshal → Marshal) : (s.onMarshal m f).mesh = s.mesh := rfl
@[simp] theorem State.onMarshal_commit (m : Nat) (f : Marshal → Marshal) : (s.onMarshal m f).commit = s.commit := rfl
@[simp] theorem State.onMarshal_clock (m : Nat) (f : Marshal → Marshal) : (s.onMarshal m f).clock = s.clock := rfl
@[simp] theorem State.onMarshal_starter (m : Nat) (f : Marshal → Marshal) : (s.onMarshal m f).starter = s.starter := rfl
@[simp] theorem State.onMarshal_links (m : Nat) (f : Marshal → Marshal) : (s.onMarshal m f).links = s.links := rfl
@[simp] theorem State.onMarshal_router (m : Nat) (f : Marshal → Marshal) : (s.onMarshal m f).router = s.router := rfl
@[simp] theorem State.onMarshal_relay (m : Nat) (f : Marshal → Marshal) : (s.onMarshal m f).relay = s.relay := rfl
@[simp] theorem State.onMarshal_host (m : Nat) (f : Marshal → Marshal) : (s.onMarshal m f).host = s.host := rfl
@[simp] theorem State.onMarshal_boot (m : Nat) (f : Marshal → Marshal) : (s.onMarshal m f).boot = { s.boot with marshals := listUpd s.boot.marshals m f } := rfl
@[simp] theorem State.onMarshal_power (m : Nat) (f : Marshal → Marshal) : (s.onMarshal m f).power = s.power := rfl
@[simp] theorem State.onMarshal_sec (m : Nat) (f : Marshal → Marshal) : (s.onMarshal m f).sec = s.sec := rfl
@[simp] theorem State.onMarshal_ras (m : Nat) (f : Marshal → Marshal) : (s.onMarshal m f).ras = s.ras := rfl
@[simp] theorem State.onMarshal_cfgSeal (m : Nat) (f : Marshal → Marshal) : (s.onMarshal m f).cfgSeal = s.cfgSeal := rfl
@[simp] theorem State.onMarshal_free (m : Nat) (f : Marshal → Marshal) : (s.onMarshal m f).free = s.free := rfl

/-! ### setEv -/

@[simp] theorem State.setEv_pending (e : Nat) (v : Ev) : (s.setEv e v).pending = s.pending := rfl
@[simp] theorem State.setEv_plots (e : Nat) (v : Ev) : (s.setEv e v).plots = s.plots := rfl
@[simp] theorem State.setEv_stks (e : Nat) (v : Ev) : (s.setEv e v).stks = s.stks := rfl
@[simp] theorem State.setEv_regions (e : Nat) (v : Ev) : (s.setEv e v).regions = s.regions := rfl
@[simp] theorem State.setEv_mesh (e : Nat) (v : Ev) : (s.setEv e v).mesh = s.mesh := rfl
@[simp] theorem State.setEv_commit (e : Nat) (v : Ev) : (s.setEv e v).commit = s.commit := rfl
@[simp] theorem State.setEv_clock (e : Nat) (v : Ev) : (s.setEv e v).clock = s.clock := rfl
@[simp] theorem State.setEv_starter (e : Nat) (v : Ev) : (s.setEv e v).starter = { s.starter with evs := s.starter.evs.put e v } := rfl
@[simp] theorem State.setEv_links (e : Nat) (v : Ev) : (s.setEv e v).links = s.links := rfl
@[simp] theorem State.setEv_router (e : Nat) (v : Ev) : (s.setEv e v).router = s.router := rfl
@[simp] theorem State.setEv_relay (e : Nat) (v : Ev) : (s.setEv e v).relay = s.relay := rfl
@[simp] theorem State.setEv_host (e : Nat) (v : Ev) : (s.setEv e v).host = s.host := rfl
@[simp] theorem State.setEv_boot (e : Nat) (v : Ev) : (s.setEv e v).boot = s.boot := rfl
@[simp] theorem State.setEv_power (e : Nat) (v : Ev) : (s.setEv e v).power = s.power := rfl
@[simp] theorem State.setEv_sec (e : Nat) (v : Ev) : (s.setEv e v).sec = s.sec := rfl
@[simp] theorem State.setEv_ras (e : Nat) (v : Ev) : (s.setEv e v).ras = s.ras := rfl
@[simp] theorem State.setEv_cfgSeal (e : Nat) (v : Ev) : (s.setEv e v).cfgSeal = s.cfgSeal := rfl
@[simp] theorem State.setEv_free (e : Nat) (v : Ev) : (s.setEv e v).free = s.free := rfl

/-! ### onStage -/

@[simp] theorem State.onStage_pending (f : Tbl (Nat × BitVec 32) → Tbl (Nat × BitVec 32)) : (s.onStage f).pending = s.pending := rfl
@[simp] theorem State.onStage_plots (f : Tbl (Nat × BitVec 32) → Tbl (Nat × BitVec 32)) : (s.onStage f).plots = s.plots := rfl
@[simp] theorem State.onStage_stks (f : Tbl (Nat × BitVec 32) → Tbl (Nat × BitVec 32)) : (s.onStage f).stks = s.stks := rfl
@[simp] theorem State.onStage_regions (f : Tbl (Nat × BitVec 32) → Tbl (Nat × BitVec 32)) : (s.onStage f).regions = s.regions := rfl
@[simp] theorem State.onStage_mesh (f : Tbl (Nat × BitVec 32) → Tbl (Nat × BitVec 32)) : (s.onStage f).mesh = s.mesh := rfl
@[simp] theorem State.onStage_commit (f : Tbl (Nat × BitVec 32) → Tbl (Nat × BitVec 32)) : (s.onStage f).commit = s.commit := rfl
@[simp] theorem State.onStage_clock (f : Tbl (Nat × BitVec 32) → Tbl (Nat × BitVec 32)) : (s.onStage f).clock = s.clock := rfl
@[simp] theorem State.onStage_starter (f : Tbl (Nat × BitVec 32) → Tbl (Nat × BitVec 32)) : (s.onStage f).starter = s.starter := rfl
@[simp] theorem State.onStage_links (f : Tbl (Nat × BitVec 32) → Tbl (Nat × BitVec 32)) : (s.onStage f).links = s.links := rfl
@[simp] theorem State.onStage_router (f : Tbl (Nat × BitVec 32) → Tbl (Nat × BitVec 32)) : (s.onStage f).router = s.router := rfl
@[simp] theorem State.onStage_relay (f : Tbl (Nat × BitVec 32) → Tbl (Nat × BitVec 32)) : (s.onStage f).relay = s.relay := rfl
@[simp] theorem State.onStage_host (f : Tbl (Nat × BitVec 32) → Tbl (Nat × BitVec 32)) : (s.onStage f).host = { s.host with stage := f s.host.stage } := rfl
@[simp] theorem State.onStage_boot (f : Tbl (Nat × BitVec 32) → Tbl (Nat × BitVec 32)) : (s.onStage f).boot = s.boot := rfl
@[simp] theorem State.onStage_power (f : Tbl (Nat × BitVec 32) → Tbl (Nat × BitVec 32)) : (s.onStage f).power = s.power := rfl
@[simp] theorem State.onStage_sec (f : Tbl (Nat × BitVec 32) → Tbl (Nat × BitVec 32)) : (s.onStage f).sec = s.sec := rfl
@[simp] theorem State.onStage_ras (f : Tbl (Nat × BitVec 32) → Tbl (Nat × BitVec 32)) : (s.onStage f).ras = s.ras := rfl
@[simp] theorem State.onStage_cfgSeal (f : Tbl (Nat × BitVec 32) → Tbl (Nat × BitVec 32)) : (s.onStage f).cfgSeal = s.cfgSeal := rfl
@[simp] theorem State.onStage_free (f : Tbl (Nat × BitVec 32) → Tbl (Nat × BitVec 32)) : (s.onStage f).free = s.free := rfl

/-! ### hostPut -/

@[simp] theorem State.hostPut_pending (a : Nat) (bs : List Byte) : (s.hostPut a bs).pending = s.pending := rfl
@[simp] theorem State.hostPut_plots (a : Nat) (bs : List Byte) : (s.hostPut a bs).plots = s.plots := rfl
@[simp] theorem State.hostPut_stks (a : Nat) (bs : List Byte) : (s.hostPut a bs).stks = s.stks := rfl
@[simp] theorem State.hostPut_regions (a : Nat) (bs : List Byte) : (s.hostPut a bs).regions = s.regions := rfl
@[simp] theorem State.hostPut_mesh (a : Nat) (bs : List Byte) : (s.hostPut a bs).mesh = s.mesh := rfl
@[simp] theorem State.hostPut_commit (a : Nat) (bs : List Byte) : (s.hostPut a bs).commit = s.commit := rfl
@[simp] theorem State.hostPut_clock (a : Nat) (bs : List Byte) : (s.hostPut a bs).clock = s.clock := rfl
@[simp] theorem State.hostPut_starter (a : Nat) (bs : List Byte) : (s.hostPut a bs).starter = s.starter := rfl
@[simp] theorem State.hostPut_links (a : Nat) (bs : List Byte) : (s.hostPut a bs).links = s.links := rfl
@[simp] theorem State.hostPut_router (a : Nat) (bs : List Byte) : (s.hostPut a bs).router = s.router := rfl
@[simp] theorem State.hostPut_relay (a : Nat) (bs : List Byte) : (s.hostPut a bs).relay = s.relay := rfl
@[simp] theorem State.hostPut_host (a : Nat) (bs : List Byte) : (s.hostPut a bs).host = { s.host with hostMem := s.host.hostMem.write a bs } := rfl
@[simp] theorem State.hostPut_boot (a : Nat) (bs : List Byte) : (s.hostPut a bs).boot = s.boot := rfl
@[simp] theorem State.hostPut_power (a : Nat) (bs : List Byte) : (s.hostPut a bs).power = s.power := rfl
@[simp] theorem State.hostPut_sec (a : Nat) (bs : List Byte) : (s.hostPut a bs).sec = s.sec := rfl
@[simp] theorem State.hostPut_ras (a : Nat) (bs : List Byte) : (s.hostPut a bs).ras = s.ras := rfl
@[simp] theorem State.hostPut_cfgSeal (a : Nat) (bs : List Byte) : (s.hostPut a bs).cfgSeal = s.cfgSeal := rfl
@[simp] theorem State.hostPut_free (a : Nat) (bs : List Byte) : (s.hostPut a bs).free = s.free := rfl

/-! ### onBoot -/

@[simp] theorem State.onBoot_pending (f : Boot → Boot) : (s.onBoot f).pending = s.pending := rfl
@[simp] theorem State.onBoot_plots (f : Boot → Boot) : (s.onBoot f).plots = s.plots := rfl
@[simp] theorem State.onBoot_stks (f : Boot → Boot) : (s.onBoot f).stks = s.stks := rfl
@[simp] theorem State.onBoot_regions (f : Boot → Boot) : (s.onBoot f).regions = s.regions := rfl
@[simp] theorem State.onBoot_mesh (f : Boot → Boot) : (s.onBoot f).mesh = s.mesh := rfl
@[simp] theorem State.onBoot_commit (f : Boot → Boot) : (s.onBoot f).commit = s.commit := rfl
@[simp] theorem State.onBoot_clock (f : Boot → Boot) : (s.onBoot f).clock = s.clock := rfl
@[simp] theorem State.onBoot_starter (f : Boot → Boot) : (s.onBoot f).starter = s.starter := rfl
@[simp] theorem State.onBoot_links (f : Boot → Boot) : (s.onBoot f).links = s.links := rfl
@[simp] theorem State.onBoot_router (f : Boot → Boot) : (s.onBoot f).router = s.router := rfl
@[simp] theorem State.onBoot_relay (f : Boot → Boot) : (s.onBoot f).relay = s.relay := rfl
@[simp] theorem State.onBoot_host (f : Boot → Boot) : (s.onBoot f).host = s.host := rfl
@[simp] theorem State.onBoot_boot (f : Boot → Boot) : (s.onBoot f).boot = f s.boot := rfl
@[simp] theorem State.onBoot_power (f : Boot → Boot) : (s.onBoot f).power = s.power := rfl
@[simp] theorem State.onBoot_sec (f : Boot → Boot) : (s.onBoot f).sec = s.sec := rfl
@[simp] theorem State.onBoot_ras (f : Boot → Boot) : (s.onBoot f).ras = s.ras := rfl
@[simp] theorem State.onBoot_cfgSeal (f : Boot → Boot) : (s.onBoot f).cfgSeal = s.cfgSeal := rfl
@[simp] theorem State.onBoot_free (f : Boot → Boot) : (s.onBoot f).free = s.free := rfl

/-! ### onSec -/

@[simp] theorem State.onSec_pending (f : Sec → Sec) : (s.onSec f).pending = s.pending := rfl
@[simp] theorem State.onSec_plots (f : Sec → Sec) : (s.onSec f).plots = s.plots := rfl
@[simp] theorem State.onSec_stks (f : Sec → Sec) : (s.onSec f).stks = s.stks := rfl
@[simp] theorem State.onSec_regions (f : Sec → Sec) : (s.onSec f).regions = s.regions := rfl
@[simp] theorem State.onSec_mesh (f : Sec → Sec) : (s.onSec f).mesh = s.mesh := rfl
@[simp] theorem State.onSec_commit (f : Sec → Sec) : (s.onSec f).commit = s.commit := rfl
@[simp] theorem State.onSec_clock (f : Sec → Sec) : (s.onSec f).clock = s.clock := rfl
@[simp] theorem State.onSec_starter (f : Sec → Sec) : (s.onSec f).starter = s.starter := rfl
@[simp] theorem State.onSec_links (f : Sec → Sec) : (s.onSec f).links = s.links := rfl
@[simp] theorem State.onSec_router (f : Sec → Sec) : (s.onSec f).router = s.router := rfl
@[simp] theorem State.onSec_relay (f : Sec → Sec) : (s.onSec f).relay = s.relay := rfl
@[simp] theorem State.onSec_host (f : Sec → Sec) : (s.onSec f).host = s.host := rfl
@[simp] theorem State.onSec_boot (f : Sec → Sec) : (s.onSec f).boot = s.boot := rfl
@[simp] theorem State.onSec_power (f : Sec → Sec) : (s.onSec f).power = s.power := rfl
@[simp] theorem State.onSec_sec (f : Sec → Sec) : (s.onSec f).sec = f s.sec := rfl
@[simp] theorem State.onSec_ras (f : Sec → Sec) : (s.onSec f).ras = s.ras := rfl
@[simp] theorem State.onSec_cfgSeal (f : Sec → Sec) : (s.onSec f).cfgSeal = s.cfgSeal := rfl
@[simp] theorem State.onSec_free (f : Sec → Sec) : (s.onSec f).free = s.free := rfl

/-! ### onCommit -/

@[simp] theorem State.onCommit_pending (f : Commit → Commit) : (s.onCommit f).pending = s.pending := rfl
@[simp] theorem State.onCommit_plots (f : Commit → Commit) : (s.onCommit f).plots = s.plots := rfl
@[simp] theorem State.onCommit_stks (f : Commit → Commit) : (s.onCommit f).stks = s.stks := rfl
@[simp] theorem State.onCommit_regions (f : Commit → Commit) : (s.onCommit f).regions = s.regions := rfl
@[simp] theorem State.onCommit_mesh (f : Commit → Commit) : (s.onCommit f).mesh = s.mesh := rfl
@[simp] theorem State.onCommit_commit (f : Commit → Commit) : (s.onCommit f).commit = f s.commit := rfl
@[simp] theorem State.onCommit_clock (f : Commit → Commit) : (s.onCommit f).clock = s.clock := rfl
@[simp] theorem State.onCommit_starter (f : Commit → Commit) : (s.onCommit f).starter = s.starter := rfl
@[simp] theorem State.onCommit_links (f : Commit → Commit) : (s.onCommit f).links = s.links := rfl
@[simp] theorem State.onCommit_router (f : Commit → Commit) : (s.onCommit f).router = s.router := rfl
@[simp] theorem State.onCommit_relay (f : Commit → Commit) : (s.onCommit f).relay = s.relay := rfl
@[simp] theorem State.onCommit_host (f : Commit → Commit) : (s.onCommit f).host = s.host := rfl
@[simp] theorem State.onCommit_boot (f : Commit → Commit) : (s.onCommit f).boot = s.boot := rfl
@[simp] theorem State.onCommit_power (f : Commit → Commit) : (s.onCommit f).power = s.power := rfl
@[simp] theorem State.onCommit_sec (f : Commit → Commit) : (s.onCommit f).sec = s.sec := rfl
@[simp] theorem State.onCommit_ras (f : Commit → Commit) : (s.onCommit f).ras = s.ras := rfl
@[simp] theorem State.onCommit_cfgSeal (f : Commit → Commit) : (s.onCommit f).cfgSeal = s.cfgSeal := rfl
@[simp] theorem State.onCommit_free (f : Commit → Commit) : (s.onCommit f).free = s.free := rfl

/-! ### onRouter -/

@[simp] theorem State.onRouter_pending (f : Router → Router) : (s.onRouter f).pending = s.pending := rfl
@[simp] theorem State.onRouter_plots (f : Router → Router) : (s.onRouter f).plots = s.plots := rfl
@[simp] theorem State.onRouter_stks (f : Router → Router) : (s.onRouter f).stks = s.stks := rfl
@[simp] theorem State.onRouter_regions (f : Router → Router) : (s.onRouter f).regions = s.regions := rfl
@[simp] theorem State.onRouter_mesh (f : Router → Router) : (s.onRouter f).mesh = s.mesh := rfl
@[simp] theorem State.onRouter_commit (f : Router → Router) : (s.onRouter f).commit = s.commit := rfl
@[simp] theorem State.onRouter_clock (f : Router → Router) : (s.onRouter f).clock = s.clock := rfl
@[simp] theorem State.onRouter_starter (f : Router → Router) : (s.onRouter f).starter = s.starter := rfl
@[simp] theorem State.onRouter_links (f : Router → Router) : (s.onRouter f).links = s.links := rfl
@[simp] theorem State.onRouter_router (f : Router → Router) : (s.onRouter f).router = f s.router := rfl
@[simp] theorem State.onRouter_relay (f : Router → Router) : (s.onRouter f).relay = s.relay := rfl
@[simp] theorem State.onRouter_host (f : Router → Router) : (s.onRouter f).host = s.host := rfl
@[simp] theorem State.onRouter_boot (f : Router → Router) : (s.onRouter f).boot = s.boot := rfl
@[simp] theorem State.onRouter_power (f : Router → Router) : (s.onRouter f).power = s.power := rfl
@[simp] theorem State.onRouter_sec (f : Router → Router) : (s.onRouter f).sec = s.sec := rfl
@[simp] theorem State.onRouter_ras (f : Router → Router) : (s.onRouter f).ras = s.ras := rfl
@[simp] theorem State.onRouter_cfgSeal (f : Router → Router) : (s.onRouter f).cfgSeal = s.cfgSeal := rfl
@[simp] theorem State.onRouter_free (f : Router → Router) : (s.onRouter f).free = s.free := rfl

/-! ### onPower -/

@[simp] theorem State.onPower_pending (f : Power → Power) : (s.onPower f).pending = s.pending := rfl
@[simp] theorem State.onPower_plots (f : Power → Power) : (s.onPower f).plots = s.plots := rfl
@[simp] theorem State.onPower_stks (f : Power → Power) : (s.onPower f).stks = s.stks := rfl
@[simp] theorem State.onPower_regions (f : Power → Power) : (s.onPower f).regions = s.regions := rfl
@[simp] theorem State.onPower_mesh (f : Power → Power) : (s.onPower f).mesh = s.mesh := rfl
@[simp] theorem State.onPower_commit (f : Power → Power) : (s.onPower f).commit = s.commit := rfl
@[simp] theorem State.onPower_clock (f : Power → Power) : (s.onPower f).clock = s.clock := rfl
@[simp] theorem State.onPower_starter (f : Power → Power) : (s.onPower f).starter = s.starter := rfl
@[simp] theorem State.onPower_links (f : Power → Power) : (s.onPower f).links = s.links := rfl
@[simp] theorem State.onPower_router (f : Power → Power) : (s.onPower f).router = s.router := rfl
@[simp] theorem State.onPower_relay (f : Power → Power) : (s.onPower f).relay = s.relay := rfl
@[simp] theorem State.onPower_host (f : Power → Power) : (s.onPower f).host = s.host := rfl
@[simp] theorem State.onPower_boot (f : Power → Power) : (s.onPower f).boot = s.boot := rfl
@[simp] theorem State.onPower_power (f : Power → Power) : (s.onPower f).power = f s.power := rfl
@[simp] theorem State.onPower_sec (f : Power → Power) : (s.onPower f).sec = s.sec := rfl
@[simp] theorem State.onPower_ras (f : Power → Power) : (s.onPower f).ras = s.ras := rfl
@[simp] theorem State.onPower_cfgSeal (f : Power → Power) : (s.onPower f).cfgSeal = s.cfgSeal := rfl
@[simp] theorem State.onPower_free (f : Power → Power) : (s.onPower f).free = s.free := rfl

/-! ### onRelay -/

@[simp] theorem State.onRelay_pending (f : Relay → Relay) : (s.onRelay f).pending = s.pending := rfl
@[simp] theorem State.onRelay_plots (f : Relay → Relay) : (s.onRelay f).plots = s.plots := rfl
@[simp] theorem State.onRelay_stks (f : Relay → Relay) : (s.onRelay f).stks = s.stks := rfl
@[simp] theorem State.onRelay_regions (f : Relay → Relay) : (s.onRelay f).regions = s.regions := rfl
@[simp] theorem State.onRelay_mesh (f : Relay → Relay) : (s.onRelay f).mesh = s.mesh := rfl
@[simp] theorem State.onRelay_commit (f : Relay → Relay) : (s.onRelay f).commit = s.commit := rfl
@[simp] theorem State.onRelay_clock (f : Relay → Relay) : (s.onRelay f).clock = s.clock := rfl
@[simp] theorem State.onRelay_starter (f : Relay → Relay) : (s.onRelay f).starter = s.starter := rfl
@[simp] theorem State.onRelay_links (f : Relay → Relay) : (s.onRelay f).links = s.links := rfl
@[simp] theorem State.onRelay_router (f : Relay → Relay) : (s.onRelay f).router = s.router := rfl
@[simp] theorem State.onRelay_relay (f : Relay → Relay) : (s.onRelay f).relay = f s.relay := rfl
@[simp] theorem State.onRelay_host (f : Relay → Relay) : (s.onRelay f).host = s.host := rfl
@[simp] theorem State.onRelay_boot (f : Relay → Relay) : (s.onRelay f).boot = s.boot := rfl
@[simp] theorem State.onRelay_power (f : Relay → Relay) : (s.onRelay f).power = s.power := rfl
@[simp] theorem State.onRelay_sec (f : Relay → Relay) : (s.onRelay f).sec = s.sec := rfl
@[simp] theorem State.onRelay_ras (f : Relay → Relay) : (s.onRelay f).ras = s.ras := rfl
@[simp] theorem State.onRelay_cfgSeal (f : Relay → Relay) : (s.onRelay f).cfgSeal = s.cfgSeal := rfl
@[simp] theorem State.onRelay_free (f : Relay → Relay) : (s.onRelay f).free = s.free := rfl

/-! ### onSeal -/

@[simp] theorem State.onSeal_pending (f : Seal → Seal) : (s.onSeal f).pending = s.pending := rfl
@[simp] theorem State.onSeal_plots (f : Seal → Seal) : (s.onSeal f).plots = s.plots := rfl
@[simp] theorem State.onSeal_stks (f : Seal → Seal) : (s.onSeal f).stks = s.stks := rfl
@[simp] theorem State.onSeal_regions (f : Seal → Seal) : (s.onSeal f).regions = s.regions := rfl
@[simp] theorem State.onSeal_mesh (f : Seal → Seal) : (s.onSeal f).mesh = s.mesh := rfl
@[simp] theorem State.onSeal_commit (f : Seal → Seal) : (s.onSeal f).commit = s.commit := rfl
@[simp] theorem State.onSeal_clock (f : Seal → Seal) : (s.onSeal f).clock = s.clock := rfl
@[simp] theorem State.onSeal_starter (f : Seal → Seal) : (s.onSeal f).starter = s.starter := rfl
@[simp] theorem State.onSeal_links (f : Seal → Seal) : (s.onSeal f).links = s.links := rfl
@[simp] theorem State.onSeal_router (f : Seal → Seal) : (s.onSeal f).router = s.router := rfl
@[simp] theorem State.onSeal_relay (f : Seal → Seal) : (s.onSeal f).relay = s.relay := rfl
@[simp] theorem State.onSeal_host (f : Seal → Seal) : (s.onSeal f).host = s.host := rfl
@[simp] theorem State.onSeal_boot (f : Seal → Seal) : (s.onSeal f).boot = s.boot := rfl
@[simp] theorem State.onSeal_power (f : Seal → Seal) : (s.onSeal f).power = s.power := rfl
@[simp] theorem State.onSeal_sec (f : Seal → Seal) : (s.onSeal f).sec = s.sec := rfl
@[simp] theorem State.onSeal_ras (f : Seal → Seal) : (s.onSeal f).ras = s.ras := rfl
@[simp] theorem State.onSeal_cfgSeal (f : Seal → Seal) : (s.onSeal f).cfgSeal = f s.cfgSeal := rfl
@[simp] theorem State.onSeal_free (f : Seal → Seal) : (s.onSeal f).free = s.free := rfl

/-! ### onStarter -/

@[simp] theorem State.onStarter_pending (f : Starter → Starter) : (s.onStarter f).pending = s.pending := rfl
@[simp] theorem State.onStarter_plots (f : Starter → Starter) : (s.onStarter f).plots = s.plots := rfl
@[simp] theorem State.onStarter_stks (f : Starter → Starter) : (s.onStarter f).stks = s.stks := rfl
@[simp] theorem State.onStarter_regions (f : Starter → Starter) : (s.onStarter f).regions = s.regions := rfl
@[simp] theorem State.onStarter_mesh (f : Starter → Starter) : (s.onStarter f).mesh = s.mesh := rfl
@[simp] theorem State.onStarter_commit (f : Starter → Starter) : (s.onStarter f).commit = s.commit := rfl
@[simp] theorem State.onStarter_clock (f : Starter → Starter) : (s.onStarter f).clock = s.clock := rfl
@[simp] theorem State.onStarter_starter (f : Starter → Starter) : (s.onStarter f).starter = f s.starter := rfl
@[simp] theorem State.onStarter_links (f : Starter → Starter) : (s.onStarter f).links = s.links := rfl
@[simp] theorem State.onStarter_router (f : Starter → Starter) : (s.onStarter f).router = s.router := rfl
@[simp] theorem State.onStarter_relay (f : Starter → Starter) : (s.onStarter f).relay = s.relay := rfl
@[simp] theorem State.onStarter_host (f : Starter → Starter) : (s.onStarter f).host = s.host := rfl
@[simp] theorem State.onStarter_boot (f : Starter → Starter) : (s.onStarter f).boot = s.boot := rfl
@[simp] theorem State.onStarter_power (f : Starter → Starter) : (s.onStarter f).power = s.power := rfl
@[simp] theorem State.onStarter_sec (f : Starter → Starter) : (s.onStarter f).sec = s.sec := rfl
@[simp] theorem State.onStarter_ras (f : Starter → Starter) : (s.onStarter f).ras = s.ras := rfl
@[simp] theorem State.onStarter_cfgSeal (f : Starter → Starter) : (s.onStarter f).cfgSeal = s.cfgSeal := rfl
@[simp] theorem State.onStarter_free (f : Starter → Starter) : (s.onStarter f).free = s.free := rfl

/-! ### onClock -/

@[simp] theorem State.onClock_pending (f : Clock → Clock) : (s.onClock f).pending = s.pending := rfl
@[simp] theorem State.onClock_plots (f : Clock → Clock) : (s.onClock f).plots = s.plots := rfl
@[simp] theorem State.onClock_stks (f : Clock → Clock) : (s.onClock f).stks = s.stks := rfl
@[simp] theorem State.onClock_regions (f : Clock → Clock) : (s.onClock f).regions = s.regions := rfl
@[simp] theorem State.onClock_mesh (f : Clock → Clock) : (s.onClock f).mesh = s.mesh := rfl
@[simp] theorem State.onClock_commit (f : Clock → Clock) : (s.onClock f).commit = s.commit := rfl
@[simp] theorem State.onClock_clock (f : Clock → Clock) : (s.onClock f).clock = f s.clock := rfl
@[simp] theorem State.onClock_starter (f : Clock → Clock) : (s.onClock f).starter = s.starter := rfl
@[simp] theorem State.onClock_links (f : Clock → Clock) : (s.onClock f).links = s.links := rfl
@[simp] theorem State.onClock_router (f : Clock → Clock) : (s.onClock f).router = s.router := rfl
@[simp] theorem State.onClock_relay (f : Clock → Clock) : (s.onClock f).relay = s.relay := rfl
@[simp] theorem State.onClock_host (f : Clock → Clock) : (s.onClock f).host = s.host := rfl
@[simp] theorem State.onClock_boot (f : Clock → Clock) : (s.onClock f).boot = s.boot := rfl
@[simp] theorem State.onClock_power (f : Clock → Clock) : (s.onClock f).power = s.power := rfl
@[simp] theorem State.onClock_sec (f : Clock → Clock) : (s.onClock f).sec = s.sec := rfl
@[simp] theorem State.onClock_ras (f : Clock → Clock) : (s.onClock f).ras = s.ras := rfl
@[simp] theorem State.onClock_cfgSeal (f : Clock → Clock) : (s.onClock f).cfgSeal = s.cfgSeal := rfl
@[simp] theorem State.onClock_free (f : Clock → Clock) : (s.onClock f).free = s.free := rfl

/-! ### onWindow -/

@[simp] theorem State.onWindow_pending (w : Win) (f : Window → Window) : (s.onWindow w f).pending = s.pending := by cases w <;> rfl
@[simp] theorem State.onWindow_plots (w : Win) (f : Window → Window) : (s.onWindow w f).plots = s.plots := by cases w <;> rfl
@[simp] theorem State.onWindow_stks (w : Win) (f : Window → Window) : (s.onWindow w f).stks = s.stks := by cases w <;> rfl
@[simp] theorem State.onWindow_regions (w : Win) (f : Window → Window) : (s.onWindow w f).regions = s.regions := by cases w <;> rfl
@[simp] theorem State.onWindow_mesh (w : Win) (f : Window → Window) : (s.onWindow w f).mesh = s.mesh := by cases w <;> rfl
@[simp] theorem State.onWindow_commit (w : Win) (f : Window → Window) : (s.onWindow w f).commit = s.commit := by cases w <;> rfl
@[simp] theorem State.onWindow_clock (w : Win) (f : Window → Window) : (s.onWindow w f).clock = s.clock := by cases w <;> rfl
@[simp] theorem State.onWindow_starter (w : Win) (f : Window → Window) : (s.onWindow w f).starter = s.starter := by cases w <;> rfl
@[simp] theorem State.onWindow_links (w : Win) (f : Window → Window) : (s.onWindow w f).links = s.links := by cases w <;> rfl
@[simp] theorem State.onWindow_router (w : Win) (f : Window → Window) : (s.onWindow w f).router = s.router := by cases w <;> rfl
@[simp] theorem State.onWindow_relay (w : Win) (f : Window → Window) : (s.onWindow w f).relay = s.relay := by cases w <;> rfl
@[simp] theorem State.onWindow_boot (w : Win) (f : Window → Window) : (s.onWindow w f).boot = s.boot := by cases w <;> rfl
@[simp] theorem State.onWindow_power (w : Win) (f : Window → Window) : (s.onWindow w f).power = s.power := by cases w <;> rfl
@[simp] theorem State.onWindow_sec (w : Win) (f : Window → Window) : (s.onWindow w f).sec = s.sec := by cases w <;> rfl
@[simp] theorem State.onWindow_ras (w : Win) (f : Window → Window) : (s.onWindow w f).ras = s.ras := by cases w <;> rfl
@[simp] theorem State.onWindow_cfgSeal (w : Win) (f : Window → Window) : (s.onWindow w f).cfgSeal = s.cfgSeal := by cases w <;> rfl
@[simp] theorem State.onWindow_free (w : Win) (f : Window → Window) : (s.onWindow w f).free = s.free := by cases w <;> rfl
@[simp] theorem State.onWindow_self (w : Win) (f : Window → Window) : (s.onWindow w f).window w = f (s.window w) := by cases w <;> rfl
@[simp] theorem State.onWindow_hostMem (w : Win) (f : Window → Window) : (s.onWindow w f).host.hostMem = s.host.hostMem := by cases w <;> rfl
theorem State.onWindow_other (w o : Win) (f : Window → Window) (h : o ≠ w) : (s.onWindow w f).window o = s.window o := by
  cases w <;> cases o <;> first | rfl | exact absurd rfl h

/-! ### Plots and Pacers -/

variable (x : Plot)

@[simp] theorem Plot.onPacer_furrows (g : Pacer → Pacer) : (x.onPacer g).furrows = x.furrows := rfl
@[simp] theorem Plot.onFurrow_furrows (n : Nat) (g : Furrow → Furrow) : (x.onFurrow n g).furrows = listUpd x.furrows n g := rfl
@[simp] theorem Plot.writeRsv_furrows (a : Nat) (bs : List Byte) : (x.writeRsv a bs).furrows = x.furrows := rfl
@[simp] theorem Plot.onPacer_staging (g : Pacer → Pacer) : (x.onPacer g).staging = x.staging := rfl
@[simp] theorem Plot.onFurrow_staging (n : Nat) (g : Furrow → Furrow) : (x.onFurrow n g).staging = x.staging := rfl
@[simp] theorem Plot.writeRsv_staging (a : Nat) (bs : List Byte) : (x.writeRsv a bs).staging = x.staging := rfl
@[simp] theorem Plot.onPacer_streams (g : Pacer → Pacer) : (x.onPacer g).streams = x.streams := rfl
@[simp] theorem Plot.onFurrow_streams (n : Nat) (g : Furrow → Furrow) : (x.onFurrow n g).streams = x.streams := rfl
@[simp] theorem Plot.writeRsv_streams (a : Nat) (bs : List Byte) : (x.writeRsv a bs).streams = x.streams := rfl
@[simp] theorem Plot.onPacer_loadQ (g : Pacer → Pacer) : (x.onPacer g).loadQ = x.loadQ := rfl
@[simp] theorem Plot.onFurrow_loadQ (n : Nat) (g : Furrow → Furrow) : (x.onFurrow n g).loadQ = x.loadQ := rfl
@[simp] theorem Plot.writeRsv_loadQ (a : Nat) (bs : List Byte) : (x.writeRsv a bs).loadQ = x.loadQ := rfl
@[simp] theorem Plot.onPacer_loadCmds (g : Pacer → Pacer) : (x.onPacer g).loadCmds = x.loadCmds := rfl
@[simp] theorem Plot.onFurrow_loadCmds (n : Nat) (g : Furrow → Furrow) : (x.onFurrow n g).loadCmds = x.loadCmds := rfl
@[simp] theorem Plot.writeRsv_loadCmds (a : Nat) (bs : List Byte) : (x.writeRsv a bs).loadCmds = x.loadCmds := rfl
@[simp] theorem Plot.onPacer_vecQ (g : Pacer → Pacer) : (x.onPacer g).vecQ = x.vecQ := rfl
@[simp] theorem Plot.onFurrow_vecQ (n : Nat) (g : Furrow → Furrow) : (x.onFurrow n g).vecQ = x.vecQ := rfl
@[simp] theorem Plot.writeRsv_vecQ (a : Nat) (bs : List Byte) : (x.writeRsv a bs).vecQ = x.vecQ := rfl
@[simp] theorem Plot.onPacer_dmaQ (g : Pacer → Pacer) : (x.onPacer g).dmaQ = x.dmaQ := rfl
@[simp] theorem Plot.onFurrow_dmaQ (n : Nat) (g : Furrow → Furrow) : (x.onFurrow n g).dmaQ = x.dmaQ := rfl
@[simp] theorem Plot.writeRsv_dmaQ (a : Nat) (bs : List Byte) : (x.writeRsv a bs).dmaQ = x.dmaQ := rfl
@[simp] theorem Plot.onPacer_pacer (g : Pacer → Pacer) : (x.onPacer g).pacer = g x.pacer := rfl
@[simp] theorem Plot.onFurrow_pacer (n : Nat) (g : Furrow → Furrow) : (x.onFurrow n g).pacer = x.pacer := rfl
@[simp] theorem Plot.writeRsv_pacer (a : Nat) (bs : List Byte) : (x.writeRsv a bs).pacer = x.pacer := rfl
@[simp] theorem Plot.onPacer_lostAppends (g : Pacer → Pacer) : (x.onPacer g).lostAppends = x.lostAppends := rfl
@[simp] theorem Plot.onFurrow_lostAppends (n : Nat) (g : Furrow → Furrow) : (x.onFurrow n g).lostAppends = x.lostAppends := rfl
@[simp] theorem Plot.writeRsv_lostAppends (a : Nat) (bs : List Byte) : (x.writeRsv a bs).lostAppends = x.lostAppends := rfl
@[simp] theorem Plot.onPacer_ovfMode (g : Pacer → Pacer) : (x.onPacer g).ovfMode = x.ovfMode := rfl
@[simp] theorem Plot.onFurrow_ovfMode (n : Nat) (g : Furrow → Furrow) : (x.onFurrow n g).ovfMode = x.ovfMode := rfl
@[simp] theorem Plot.writeRsv_ovfMode (a : Nat) (bs : List Byte) : (x.writeRsv a bs).ovfMode = x.ovfMode := rfl
@[simp] theorem Plot.onPacer_trap (g : Pacer → Pacer) : (x.onPacer g).trap = x.trap := rfl
@[simp] theorem Plot.onFurrow_trap (n : Nat) (g : Furrow → Furrow) : (x.onFurrow n g).trap = x.trap := rfl
@[simp] theorem Plot.writeRsv_trap (a : Nat) (bs : List Byte) : (x.writeRsv a bs).trap = x.trap := rfl
@[simp] theorem Plot.onPacer_wexp (g : Pacer → Pacer) : (x.onPacer g).wexp = x.wexp := rfl
@[simp] theorem Plot.onFurrow_wexp (n : Nat) (g : Furrow → Furrow) : (x.onFurrow n g).wexp = x.wexp := rfl
@[simp] theorem Plot.writeRsv_wexp (a : Nat) (bs : List Byte) : (x.writeRsv a bs).wexp = x.wexp := rfl
@[simp] theorem Plot.onPacer_wexpPending (g : Pacer → Pacer) : (x.onPacer g).wexpPending = x.wexpPending := rfl
@[simp] theorem Plot.onFurrow_wexpPending (n : Nat) (g : Furrow → Furrow) : (x.onFurrow n g).wexpPending = x.wexpPending := rfl
@[simp] theorem Plot.writeRsv_wexpPending (a : Nat) (bs : List Byte) : (x.writeRsv a bs).wexpPending = x.wexpPending := rfl
@[simp] theorem Plot.onPacer_numev (g : Pacer → Pacer) : (x.onPacer g).numev = x.numev := rfl
@[simp] theorem Plot.onFurrow_numev (n : Nat) (g : Furrow → Furrow) : (x.onFurrow n g).numev = x.numev := rfl
@[simp] theorem Plot.writeRsv_numev (a : Nat) (bs : List Byte) : (x.writeRsv a bs).numev = x.numev := rfl
@[simp] theorem Plot.onPacer_cntSat (g : Pacer → Pacer) : (x.onPacer g).cntSat = x.cntSat := rfl
@[simp] theorem Plot.onFurrow_cntSat (n : Nat) (g : Furrow → Furrow) : (x.onFurrow n g).cntSat = x.cntSat := rfl
@[simp] theorem Plot.writeRsv_cntSat (a : Nat) (bs : List Byte) : (x.writeRsv a bs).cntSat = x.cntSat := rfl
@[simp] theorem Plot.onPacer_cntMore (g : Pacer → Pacer) : (x.onPacer g).cntMore = x.cntMore := rfl
@[simp] theorem Plot.onFurrow_cntMore (n : Nat) (g : Furrow → Furrow) : (x.onFurrow n g).cntMore = x.cntMore := rfl
@[simp] theorem Plot.writeRsv_cntMore (a : Nat) (bs : List Byte) : (x.writeRsv a bs).cntMore = x.cntMore := rfl
@[simp] theorem Plot.onPacer_stepMem (g : Pacer → Pacer) : (x.onPacer g).stepMem = x.stepMem := rfl
@[simp] theorem Plot.onFurrow_stepMem (n : Nat) (g : Furrow → Furrow) : (x.onFurrow n g).stepMem = x.stepMem := rfl
@[simp] theorem Plot.writeRsv_stepMem (a : Nat) (bs : List Byte) : (x.writeRsv a bs).stepMem = x.stepMem := rfl
@[simp] theorem Plot.onPacer_vtab (g : Pacer → Pacer) : (x.onPacer g).vtab = x.vtab := rfl
@[simp] theorem Plot.onFurrow_vtab (n : Nat) (g : Furrow → Furrow) : (x.onFurrow n g).vtab = x.vtab := rfl
@[simp] theorem Plot.writeRsv_vtab (a : Nat) (bs : List Byte) : (x.writeRsv a bs).vtab = x.vtab := rfl
@[simp] theorem Plot.onPacer_dtab (g : Pacer → Pacer) : (x.onPacer g).dtab = x.dtab := rfl
@[simp] theorem Plot.onFurrow_dtab (n : Nat) (g : Furrow → Furrow) : (x.onFurrow n g).dtab = x.dtab := rfl
@[simp] theorem Plot.writeRsv_dtab (a : Nat) (bs : List Byte) : (x.writeRsv a bs).dtab = x.dtab := rfl
@[simp] theorem Plot.onPacer_resv (g : Pacer → Pacer) : (x.onPacer g).resv = x.resv := rfl
@[simp] theorem Plot.onFurrow_resv (n : Nat) (g : Furrow → Furrow) : (x.onFurrow n g).resv = x.resv := rfl
@[simp] theorem Plot.onPacer_resvPoison (g : Pacer → Pacer) : (x.onPacer g).resvPoison = x.resvPoison := rfl
@[simp] theorem Plot.onFurrow_resvPoison (n : Nat) (g : Furrow → Furrow) : (x.onFurrow n g).resvPoison = x.resvPoison := rfl
@[simp] theorem Plot.onPacer_rsvCe (g : Pacer → Pacer) : (x.onPacer g).rsvCe = x.rsvCe := rfl
@[simp] theorem Plot.onFurrow_rsvCe (n : Nat) (g : Furrow → Furrow) : (x.onFurrow n g).rsvCe = x.rsvCe := rfl
@[simp] theorem Plot.writeRsv_rsvCe (a : Nat) (bs : List Byte) : (x.writeRsv a bs).rsvCe = x.rsvCe := rfl
@[simp] theorem Plot.onPacer_rsvUe (g : Pacer → Pacer) : (x.onPacer g).rsvUe = x.rsvUe := rfl
@[simp] theorem Plot.onFurrow_rsvUe (n : Nat) (g : Furrow → Furrow) : (x.onFurrow n g).rsvUe = x.rsvUe := rfl
@[simp] theorem Plot.writeRsv_rsvUe (a : Nat) (bs : List Byte) : (x.writeRsv a bs).rsvUe = x.rsvUe := rfl
@[simp] theorem Plot.onPacer_rsvCeCnt (g : Pacer → Pacer) : (x.onPacer g).rsvCeCnt = x.rsvCeCnt := rfl
@[simp] theorem Plot.onFurrow_rsvCeCnt (n : Nat) (g : Furrow → Furrow) : (x.onFurrow n g).rsvCeCnt = x.rsvCeCnt := rfl
@[simp] theorem Plot.writeRsv_rsvCeCnt (a : Nat) (bs : List Byte) : (x.writeRsv a bs).rsvCeCnt = x.rsvCeCnt := rfl
@[simp] theorem Plot.onPacer_rsvUeAddr (g : Pacer → Pacer) : (x.onPacer g).rsvUeAddr = x.rsvUeAddr := rfl
@[simp] theorem Plot.onFurrow_rsvUeAddr (n : Nat) (g : Furrow → Furrow) : (x.onFurrow n g).rsvUeAddr = x.rsvUeAddr := rfl
@[simp] theorem Plot.writeRsv_rsvUeAddr (a : Nat) (bs : List Byte) : (x.writeRsv a bs).rsvUeAddr = x.rsvUeAddr := rfl
@[simp] theorem Plot.onPacer_repSel (g : Pacer → Pacer) : (x.onPacer g).repSel = x.repSel := rfl
@[simp] theorem Plot.onFurrow_repSel (n : Nat) (g : Furrow → Furrow) : (x.onFurrow n g).repSel = x.repSel := rfl
@[simp] theorem Plot.writeRsv_repSel (a : Nat) (bs : List Byte) : (x.writeRsv a bs).repSel = x.repSel := rfl
@[simp] theorem Plot.onPacer_repEnts (g : Pacer → Pacer) : (x.onPacer g).repEnts = x.repEnts := rfl
@[simp] theorem Plot.onFurrow_repEnts (n : Nat) (g : Furrow → Furrow) : (x.onFurrow n g).repEnts = x.repEnts := rfl
@[simp] theorem Plot.writeRsv_repEnts (a : Nat) (bs : List Byte) : (x.writeRsv a bs).repEnts = x.repEnts := rfl
@[simp] theorem Plot.onPacer_repNext (g : Pacer → Pacer) : (x.onPacer g).repNext = x.repNext := rfl
@[simp] theorem Plot.onFurrow_repNext (n : Nat) (g : Furrow → Furrow) : (x.onFurrow n g).repNext = x.repNext := rfl
@[simp] theorem Plot.writeRsv_repNext (a : Nat) (bs : List Byte) : (x.writeRsv a bs).repNext = x.repNext := rfl
@[simp] theorem Plot.onPacer_dErr (g : Pacer → Pacer) : (x.onPacer g).dErr = x.dErr := rfl
@[simp] theorem Plot.onFurrow_dErr (n : Nat) (g : Furrow → Furrow) : (x.onFurrow n g).dErr = x.dErr := rfl
@[simp] theorem Plot.writeRsv_dErr (a : Nat) (bs : List Byte) : (x.writeRsv a bs).dErr = x.dErr := rfl
@[simp] theorem Plot.onPacer_dErrCode (g : Pacer → Pacer) : (x.onPacer g).dErrCode = x.dErrCode := rfl
@[simp] theorem Plot.onFurrow_dErrCode (n : Nat) (g : Furrow → Furrow) : (x.onFurrow n g).dErrCode = x.dErrCode := rfl
@[simp] theorem Plot.writeRsv_dErrCode (a : Nat) (bs : List Byte) : (x.writeRsv a bs).dErrCode = x.dErrCode := rfl
@[simp] theorem Plot.onPacer_dErrSlot (g : Pacer → Pacer) : (x.onPacer g).dErrSlot = x.dErrSlot := rfl
@[simp] theorem Plot.onFurrow_dErrSlot (n : Nat) (g : Furrow → Furrow) : (x.onFurrow n g).dErrSlot = x.dErrSlot := rfl
@[simp] theorem Plot.writeRsv_dErrSlot (a : Nat) (bs : List Byte) : (x.writeRsv a bs).dErrSlot = x.dErrSlot := rfl
@[simp] theorem Plot.onPacer_dBytes (g : Pacer → Pacer) : (x.onPacer g).dBytes = x.dBytes := rfl
@[simp] theorem Plot.onFurrow_dBytes (n : Nat) (g : Furrow → Furrow) : (x.onFurrow n g).dBytes = x.dBytes := rfl
@[simp] theorem Plot.writeRsv_dBytes (a : Nat) (bs : List Byte) : (x.writeRsv a bs).dBytes = x.dBytes := rfl
@[simp] theorem Plot.onPacer_swcnt (g : Pacer → Pacer) : (x.onPacer g).swcnt = x.swcnt := rfl
@[simp] theorem Plot.onFurrow_swcnt (n : Nat) (g : Furrow → Furrow) : (x.onFurrow n g).swcnt = x.swcnt := rfl
@[simp] theorem Plot.writeRsv_swcnt (a : Nat) (bs : List Byte) : (x.writeRsv a bs).swcnt = x.swcnt := rfl
@[simp] theorem Plot.onPacer_residueCnt (g : Pacer → Pacer) : (x.onPacer g).residueCnt = x.residueCnt := rfl
@[simp] theorem Plot.onFurrow_residueCnt (n : Nat) (g : Furrow → Furrow) : (x.onFurrow n g).residueCnt = x.residueCnt := rfl
@[simp] theorem Plot.writeRsv_residueCnt (a : Nat) (bs : List Byte) : (x.writeRsv a bs).residueCnt = x.residueCnt := rfl
@[simp] theorem Plot.writeRsv_resv (a : Nat) (bs : List Byte) : (x.writeRsv a bs).resv = x.resv.write a bs := rfl

end Sys2Proof.Machine
end

