-- ==== Sys2Proof/Laws/Memory.lean ====
section
/-! SUPPORT. The laws of tables and byte memories: a read after a write, what a write leaves alone, and that every memory operation
keeps the canonical form. -/

namespace Sys2Proof

/-! ### Tables -/

theorem Tbl.get_eq_get? {α : Type} (t : Tbl α) (k : Nat) (d : α) : t.get k d = (t.get? k).getD d := by
  unfold Tbl.get Tbl.get?
  cases t.find? (fun e => e.1 == k) <;> rfl

/-- Looking for key k in the entries that a test on keys leaves. -/
theorem find?_filter_key {α : Type} (l : List (Nat × α)) (q : Nat → Bool) (k : Nat) :
    (l.filter (fun e => q e.1)).find? (fun e => e.1 == k) = if q k then l.find? (fun e => e.1 == k) else none := by
  induction l with
  | nil => simp
  | cons e l ih =>
    by_cases hk : e.1 = k
    · subst hk
      cases hq : q e.1 <;> simp [List.filter, hq] at ih ⊢
      · simpa using ih
    · have hb : (e.1 == k) = false := by simpa using hk
      cases hq : q e.1 <;> simp [List.filter, hq, hb, ih]

theorem find?_below {α : Type} (l : List (Nat × α)) (a k : Nat) :
    (l.filter (fun e => decide (e.1 < a))).find? (fun e => e.1 == k) = if k < a then l.find? (fun e => e.1 == k) else none := by
  simpa using find?_filter_key l (fun n => decide (n < a)) k

theorem find?_above {α : Type} (l : List (Nat × α)) (a k : Nat) :
    (l.filter (fun e => decide (a < e.1))).find? (fun e => e.1 == k) = if a < k then l.find? (fun e => e.1 == k) else none := by
  simpa using find?_filter_key l (fun n => decide (a < n)) k

theorem find?_from {α : Type} (l : List (Nat × α)) (a k : Nat) :
    (l.filter (fun e => decide (a ≤ e.1))).find? (fun e => e.1 == k) = if a ≤ k then l.find? (fun e => e.1 == k) else none := by
  simpa using find?_filter_key l (fun n => decide (a ≤ n)) k

/-- An entry put is found. -/
@[simp] theorem Tbl.get?_put_self {α : Type} (t : Tbl α) (k : Nat) (v : α) : (t.put k v).get? k = some v := by
  unfold Tbl.get? Tbl.put
  rw [List.find?_append, find?_below]
  simp

/-- Every other entry is as before. -/
theorem Tbl.get?_put_other {α : Type} (t : Tbl α) {k j : Nat} (v : α) (h : j ≠ k) : (t.put k v).get? j = t.get? j := by
  have hk : (k == j) = false := by simpa using fun e => h e.symm
  unfold Tbl.get? Tbl.put
  rw [List.find?_append, List.find?_cons, find?_below, find?_above]
  rcases Nat.lt_or_gt_of_ne h with hl | hg
  · rw [if_pos hl, if_neg (by omega)]
    simp only [hk]
    cases t.find? (fun e => e.1 == j) <;> rfl
  · rw [if_neg (by omega), if_pos hg]
    simp only [hk]
    rfl

@[simp] theorem Tbl.get_put_self {α : Type} (t : Tbl α) (k : Nat) (v d : α) : (t.put k v).get k d = v := by
  simp [Tbl.get_eq_get?]

theorem Tbl.get_put_other {α : Type} (t : Tbl α) {k j : Nat} (v d : α) (h : j ≠ k) : (t.put k v).get j d = t.get j d := by
  simp [Tbl.get_eq_get?, Tbl.get?_put_other t v h]

@[simp] theorem Tbl.get?_nil {α : Type} (k : Nat) : Tbl.get? ([] : Tbl α) k = none := rfl
@[simp] theorem Tbl.get_nil {α : Type} (k : Nat) (d : α) : Tbl.get ([] : Tbl α) k d = d := rfl

theorem Tbl.get?_mapVals {α : Type} (t : Tbl α) (f : Nat → α → α) (k : Nat) :
    (t.mapVals f).get? k = (t.get? k).map (f k) := by
  unfold Tbl.mapVals Tbl.get?
  induction t with
  | nil => rfl
  | cons e t ih =>
    by_cases h : e.1 = k
    · subst h; simp
    · have hb : (e.1 == k) = false := by simpa using h
      simpa [List.find?_cons, hb] using ih

theorem Tbl.get_mapVals {α : Type} (t : Tbl α) (f : Nat → α → α) (k : Nat) (d : α) (h : f k d = d) :
    (t.mapVals f).get k d = f k (t.get k d) := by
  simp only [Tbl.get_eq_get?, Tbl.get?_mapVals]
  cases t.get? k <;> simp [h]

/-! ### Canonical memories -/

/-- The canonical form, said without recursion: addresses strictly rise and no byte listed is zero. -/
theorem Mem.wf_iff (m : Mem) : m.wf = true ↔ m.Pairwise (fun c d => c.1 < d.1) ∧ ∀ c ∈ m, c.2 ≠ 0 := by
  induction m with
  | nil => simp [Mem.wf]
  | cons c m ih =>
    cases m with
    | nil => simp [Mem.wf]
    | cons d m =>
      rw [show Mem.wf (c :: d :: m) = (c.2 != 0 && decide (c.1 < d.1) && Mem.wf (d :: m)) from rfl]
      simp only [Bool.and_eq_true, bne_iff_ne, decide_eq_true_eq, ih]
      constructor
      · rintro ⟨⟨h0, h1⟩, hp, hz⟩
        refine ⟨List.Pairwise.cons ?_ hp, ?_⟩
        · intro e he
          rcases List.mem_cons.1 he with rfl | he
          · exact h1
          · exact Nat.lt_trans h1 ((List.pairwise_cons.1 hp).1 e he)
        · intro e he
          rcases List.mem_cons.1 he with rfl | he
          · exact h0
          · exact hz e he
      · rintro ⟨hp, hz⟩
        have hq := List.pairwise_cons.1 hp
        exact ⟨⟨hz c (by simp), hq.1 d (by simp)⟩, hq.2, fun e he => hz e (by simp [List.mem_cons.1 he])⟩

theorem Mem.wf_filter {m : Mem} (h : m.wf = true) (p : Host.Cell → Bool) : Mem.wf (m.filter p) = true := by
  rw [Mem.wf_iff] at h ⊢
  exact ⟨h.1.filter p, fun c hc => h.2 c (List.mem_filter.1 hc).1⟩

/-- The cells of a run lie in it and are not zero. -/
theorem Mem.mem_cells {a : Nat} {bs : List Byte} {c : Host.Cell} (h : c ∈ Mem.cells a bs) :
    a ≤ c.1 ∧ c.1 < a + bs.length ∧ c.2 ≠ 0 := by
  induction bs generalizing a with
  | nil => simp [Mem.cells] at h
  | cons b bs ih =>
    unfold Mem.cells at h
    split at h
    · have := ih h; simp only [List.length_cons]; exact ⟨by omega, by omega, this.2.2⟩
    · rcases List.mem_cons.1 h with rfl | h
      · simp_all
      · have := ih h; simp only [List.length_cons]; exact ⟨by omega, by omega, this.2.2⟩

theorem Mem.wf_cells (a : Nat) (bs : List Byte) : (Mem.cells a bs).wf = true := by
  rw [Mem.wf_iff]
  refine ⟨?_, fun c hc => (Mem.mem_cells hc).2.2⟩
  induction bs generalizing a with
  | nil => simp [Mem.cells]
  | cons b bs ih =>
    unfold Mem.cells
    split
    · exact ih _
    · exact List.Pairwise.cons (fun c hc => by have := (Mem.mem_cells hc).1; simp; omega) (ih _)

/-- Three canonical memories, one below a, one from a on and below b, one from b on, join to a canonical one. -/
theorem Mem.wf_join {l m r : Mem} (hl : l.wf = true) (hm : m.wf = true) (hr : r.wf = true) (a b : Nat) (hab : a ≤ b)
    (h1 : ∀ c ∈ l, c.1 < a) (h2 : ∀ c ∈ m, a ≤ c.1 ∧ c.1 < b) (h3 : ∀ c ∈ r, b ≤ c.1) : Mem.wf (l ++ m ++ r) = true := by
  rw [Mem.wf_iff] at *
  refine ⟨List.pairwise_append.2 ⟨List.pairwise_append.2 ⟨hl.1, hm.1, fun c hc d hd => ?_⟩, hr.1, fun c hc d hd => ?_⟩, ?_⟩
  · have := h1 c hc; have := h2 d hd; omega
  · rcases List.mem_append.1 hc with hc | hc
    · have := h1 c hc; have := h3 d hd; omega
    · have := h2 c hc; have := h3 d hd; omega
  · intro c hc
    rcases List.mem_append.1 hc with hc | hc
    · rcases List.mem_append.1 hc with hc | hc
      · exact hl.2 c hc
      · exact hm.2 c hc
    · exact hr.2 c hc

/-- A write keeps the canonical form. -/
theorem Mem.wf_write {m : Mem} (h : m.wf = true) (a : Nat) (bs : List Byte) : (m.write a bs).wf = true := by
  refine Mem.wf_join (Mem.wf_filter h _) (Mem.wf_cells a bs) (Mem.wf_filter h _) a (a + bs.length) (by omega) ?_ ?_ ?_
  · intro c hc; simpa using (List.mem_filter.1 hc).2
  · intro c hc; have := Mem.mem_cells hc; exact ⟨this.1, this.2.1⟩
  · intro c hc; simpa using (List.mem_filter.1 hc).2

/-- A slice of a canonical memory is canonical. -/
theorem Mem.wf_slice {m : Mem} (h : m.wf = true) (a n : Nat) : (m.slice a n).wf = true := by
  have hf := (Mem.wf_iff _).1 (Mem.wf_filter h (fun c => a ≤ c.1 && c.1 < a + n))
  unfold Mem.slice
  rw [Mem.wf_iff]
  refine ⟨?_, ?_⟩
  · rw [List.pairwise_map]
    refine List.Pairwise.imp_of_mem ?_ hf.1
    intro c d hc hd hlt
    have := (List.mem_filter.1 hc).2
    simp at this
    show c.1 - a < d.1 - a
    omega
  · intro c hc
    obtain ⟨d, hd, rfl⟩ := List.mem_map.1 hc
    exact hf.2 d hd

/-- Putting a canonical slice into a canonical memory keeps the form. -/
theorem Mem.wf_splice {m seg : Mem} (h : m.wf = true) (hs : seg.wf = true) (a n : Nat) : (m.splice a n seg).wf = true := by
  have hf := (Mem.wf_iff _).1 (Mem.wf_filter hs (fun c => c.1 < n))
  refine Mem.wf_join (Mem.wf_filter h _) ?_ (Mem.wf_filter h _) a (a + n) (by omega) ?_ ?_ ?_
  · rw [Mem.wf_iff]
    refine ⟨?_, ?_⟩
    · rw [List.pairwise_map]
      exact hf.1.imp (by intro c d hlt; simpa using hlt)
    · intro c hc
      obtain ⟨d, hd, rfl⟩ := List.mem_map.1 hc
      exact hf.2 d hd
  · intro c hc; simpa using (List.mem_filter.1 hc).2
  · intro c hc
    obtain ⟨d, hd, rfl⟩ := List.mem_map.1 hc
    have := (List.mem_filter.1 hd).2
    simp at this ⊢
    exact this
  · intro c hc; simpa using (List.mem_filter.1 hc).2

/-! ### Reads and writes -/

theorem Mem.find?_cells (a : Nat) (bs : List Byte) (k : Nat) :
    (match (Mem.cells a bs).find? (fun c => c.1 == k) with | some c => c.2 | none => 0)
      = if a ≤ k then bs.getD (k - a) 0 else 0 := by
  induction bs generalizing a with
  | nil => simp [Mem.cells]
  | cons b bs ih =>
    unfold Mem.cells
    by_cases hk : k = a
    · subst hk
      have hno : (Mem.cells (k + 1) bs).find? (fun c => c.1 == k) = none := by
        rw [List.find?_eq_none]
        intro c hc
        have := (Mem.mem_cells hc).1
        simp; omega
      by_cases hb : b = 0
      · rw [if_pos hb]; simp [hb, hno]
      · rw [if_neg hb]; simp
    · have hb' : ((a, b).1 == k) = false := by simp; exact fun e => hk e.symm
      have key : (if a ≤ k then (b :: bs).getD (k - a) 0 else 0) = if a + 1 ≤ k then bs.getD (k - (a + 1)) 0 else 0 := by
        by_cases h : a ≤ k
        · have h' : a + 1 ≤ k := by omega
          rw [if_pos h, if_pos h', show k - a = (k - (a + 1)) + 1 by omega, List.getD_cons_succ]
        · rw [if_neg h, if_neg (by omega)]
      rw [key, ← ih (a + 1)]
      by_cases hb : b = 0
      · rw [if_pos hb]
      · rw [if_neg hb, List.find?_cons, hb']

/-- A byte after a write: the run's bytes in the run, and what was there outside it. -/
theorem Mem.read_write (m : Mem) (a : Nat) (bs : List Byte) (k : Nat) :
    (m.write a bs).read k = if a ≤ k ∧ k < a + bs.length then bs.getD (k - a) 0 else m.read k := by
  unfold Mem.read Mem.write
  rw [List.append_assoc, List.find?_append, List.find?_append, find?_below, find?_from]
  have hc : ¬ (a ≤ k ∧ k < a + bs.length) → (Mem.cells a bs).find? (fun c => c.1 == k) = none := by
    intro h
    rw [List.find?_eq_none]
    intro c hc
    have := Mem.mem_cells hc
    simp; omega
  by_cases hlo : k < a
  · have e1 : ¬ (a + bs.length ≤ k) := by omega
    have e2 : ¬ (a ≤ k ∧ k < a + bs.length) := by omega
    simp only [hc e2, hlo, e1, e2, if_true, if_false]
    cases m.find? (fun c => c.1 == k) <;> rfl
  · by_cases hhi : k < a + bs.length
    · have e1 : ¬ (a + bs.length ≤ k) := by omega
      have e2 : a ≤ k ∧ k < a + bs.length := by omega
      have := Mem.find?_cells a bs k
      simp only [e2.1, if_true] at this
      simp only [hlo, e1, e2, and_self, if_true, if_false, ← this]
      cases (Mem.cells a bs).find? (fun c => c.1 == k) <;> rfl
    · have e1 : a + bs.length ≤ k := by omega
      have e2 : ¬ (a ≤ k ∧ k < a + bs.length) := by omega
      simp only [hc e2, hlo, e1, e2, if_true, if_false]
      rfl

/-- A write leaves every byte outside its run alone. -/
theorem Mem.read_write_outside (m : Mem) (a : Nat) (bs : List Byte) {k : Nat} (h : k < a ∨ a + bs.length ≤ k) :
    (m.write a bs).read k = m.read k := by
  rw [Mem.read_write, if_neg (by omega)]

/-- A memory that lists nothing is canonical, and so is every memory of the state after reset. -/
theorem Mem.wf_nil : Mem.wf [] = true := rfl

end Sys2Proof

namespace Sys2Proof.Machine

theorem reset_hostMem_wf : State.reset.host.hostMem.wf = true := rfl
theorem reset_stack_wf (k : Nat) : (State.reset.stack k).mem.wf = true := rfl
theorem reset_resv_wf (p : Nat) : (State.reset.plot p).resv.wf = true := rfl

theorem hostPut_wf {s : State} (h : s.host.hostMem.wf = true) (a : Nat) (bs : List Byte) :
    (s.hostPut a bs).host.hostMem.wf = true := Mem.wf_write h a bs

/-! ### Plots, stacks and links -/

@[simp] theorem State.plot_setPlot_self (s : State) (p : Nat) (x : Plot) : (s.setPlot p x).plot p = x := by
  simp [State.plot]
theorem State.plot_setPlot_other (s : State) {p q : Nat} (x : Plot) (h : q ≠ p) : (s.setPlot p x).plot q = s.plot q := by
  simp [State.plot, Tbl.get_put_other _ _ _ h]
@[simp] theorem State.plot_onPlot_self (s : State) (p : Nat) (f : Plot → Plot) : (s.onPlot p f).plot p = f (s.plot p) := by
  simp [State.onPlot]
theorem State.plot_onPlot_other (s : State) {p q : Nat} (f : Plot → Plot) (h : q ≠ p) : (s.onPlot p f).plot q = s.plot q :=
  State.plot_setPlot_other s _ h
@[simp] theorem State.stack_setStack_self (s : State) (k : Nat) (x : Stack) : (s.setStack k x).stack k = x := by
  simp [State.stack]
theorem State.stack_setStack_other (s : State) {k j : Nat} (x : Stack) (h : j ≠ k) : (s.setStack k x).stack j = s.stack j := by
  simp [State.stack, Tbl.get_put_other _ _ _ h]
@[simp] theorem State.stack_onStack_self (s : State) (k : Nat) (f : Stack → Stack) :
    (s.onStack k f).stack k = f (s.stack k) := by
  simp [State.onStack]
theorem State.stack_onStack_other (s : State) {k j : Nat} (f : Stack → Stack) (h : j ≠ k) :
    (s.onStack k f).stack j = s.stack j := State.stack_setStack_other s _ h
@[simp] theorem State.link_setLink_self (s : State) (l : Nat) (x : Link) : (s.setLink l x).link l = x := by
  simp [State.link]
theorem State.link_setLink_other (s : State) {l j : Nat} (x : Link) (h : j ≠ l) : (s.setLink l x).link j = s.link j := by
  simp [State.link, Tbl.get_put_other _ _ _ h]
@[simp] theorem State.link_onLink_self (s : State) (l : Nat) (f : Link → Link) : (s.onLink l f).link l = f (s.link l) := by
  simp [State.onLink]
theorem State.link_onLink_other (s : State) {l j : Nat} (f : Link → Link) (h : j ≠ l) : (s.onLink l f).link j = s.link j :=
  State.link_setLink_other s _ h

end Sys2Proof.Machine
end

