-- ==== Sys2Proof/Laws/Events.lean ====
section
/-! SUPPORT. What the shared operations may change: events, MSI-X signals, corrections, replies, long commands and the passing of time. -/

namespace Sys2Proof.Machine

/-! ### sameButEvents -/

theorem State.sameButEvents_refl (s : State) : s.sameButEvents s := rfl

theorem State.sameButEvents_trans {s t u : State} (h : s.sameButEvents t) (g : t.sameButEvents u) : s.sameButEvents u := by
  unfold State.sameButEvents at *
  rw [h] at g
  exact g

/-- A post changes the records and the head alone. -/
theorem post_eq (type cls index : Nat) (d : BitVec 32) (time : BitVec 64) (pl : List (BitVec 32)) (s : State) :
    post type cls index d time pl s = { s with host := { s.host with
      recs := ({ jseq := s.host.jhead, time, type := BitVec.ofNat 16 type, cls := BitVec.ofNat 3 cls,
                 index := BitVec.ofNat 16 index, dseq := d, payload := pl } :: s.host.recs).take 65536
      jhead := s.host.jhead + 1 } } := rfl

theorem post_same (type cls index : Nat) (d : BitVec 32) (time : BitVec 64) (pl : List (BitVec 32)) (s : State) :
    s.sameButEvents (post type cls index d time pl s) := rfl

theorem note_same (type index : Nat) (pl : List (BitVec 32)) (d : BitVec 32) (s : State) :
    s.sameButEvents (note type index pl d s) := rfl

theorem signalMsix_same (v : Nat) (s : State) : s.sameButEvents (signalMsix v s) := by
  unfold signalMsix
  split <;> rfl

theorem countClass_same (c : Nat) (s : State) : s.sameButEvents (countClass c s) := by
  unfold countClass
  split <;> rfl

theorem latchCause_same (b : Nat) (s : State) : s.sameButEvents (latchCause b s) := by
  unfold latchCause
  split <;> rfl

theorem stepFatalEffect_same (s : State) : s.sameButEvents (stepFatalEffect s) :=
  State.sameButEvents_trans (latchCause_same 0 s) (signalMsix_same 3 _)

/-- An event changes what events change and nothing else. -/
theorem event_same (type cls index : Nat) (pl : List (BitVec 32)) (d : BitVec 32) (s : State) :
    s.sameButEvents (event type cls index pl d s) := by
  unfold event
  have h := State.sameButEvents_trans (post_same type cls index d s.now pl s) (countClass_same cls _)
  simp only
  split
  · exact State.sameButEvents_trans h (stepFatalEffect_same _)
  · exact h

theorem corrected_same (src : Nat) (s : State) : s.sameButEvents (corrected src s) := by
  refine State.sameButEvents_trans (countClass_same 1 s) ?_
  rfl

theorem memUe_same (src index addr seg arr : Nat) (s : State) : s.sameButEvents (memUe src index addr seg arr s) :=
  event_same ..

theorem foldl_same {α : Type} (f : State → α → State) (h : ∀ (s : State) (a : α), s.sameButEvents (f s a)) (l : List α) (s : State) :
    s.sameButEvents (l.foldl f s) := by
  induction l generalizing s with
  | nil => exact State.sameButEvents_refl s
  | cons a l ih => exact State.sameButEvents_trans (h s a) (ih (f s a))

/-! ### What events leave of the rest -/

section
variable {s t : State} (h : s.sameButEvents t)
include h
theorem State.sameButEvents_pending : t.pending = s.pending := by unfold State.sameButEvents at h; rw [h]
theorem State.sameButEvents_plots : t.plots = s.plots := by unfold State.sameButEvents at h; rw [h]
theorem State.sameButEvents_plot (p : Nat) : t.plot p = s.plot p := by
  unfold State.plot; rw [State.sameButEvents_plots h]
theorem State.sameButEvents_stks : t.stks = s.stks := by unfold State.sameButEvents at h; rw [h]
theorem State.sameButEvents_links : t.links = s.links := by unfold State.sameButEvents at h; rw [h]
theorem State.sameButEvents_regions : t.regions = s.regions := by unfold State.sameButEvents at h; rw [h]
theorem State.sameButEvents_mesh : t.mesh = s.mesh := by unfold State.sameButEvents at h; rw [h]
theorem State.sameButEvents_clock : t.clock = s.clock := by unfold State.sameButEvents at h; rw [h]
theorem State.sameButEvents_starter : t.starter = s.starter := by unfold State.sameButEvents at h; rw [h]
theorem State.sameButEvents_router : t.router = s.router := by unfold State.sameButEvents at h; rw [h]
theorem State.sameButEvents_relay : t.relay = s.relay := by unfold State.sameButEvents at h; rw [h]
theorem State.sameButEvents_boot : t.boot = s.boot := by unfold State.sameButEvents at h; rw [h]
theorem State.sameButEvents_power : t.power = s.power := by unfold State.sameButEvents at h; rw [h]
theorem State.sameButEvents_sec : t.sec = s.sec := by unfold State.sameButEvents at h; rw [h]
theorem State.sameButEvents_cfgSeal : t.cfgSeal = s.cfgSeal := by unfold State.sameButEvents at h; rw [h]
theorem State.sameButEvents_free : t.free = s.free := by unfold State.sameButEvents at h; rw [h]
theorem State.sameButEvents_hostMem : t.host.hostMem = s.host.hostMem := by unfold State.sameButEvents at h; rw [h]
end

/-! ### One Plot, stack or link -/

theorem State.onlyPlot_refl (p : Nat) (s : State) : State.onlyPlot p s s := ⟨rfl, fun _ _ => rfl⟩

theorem State.onlyPlot_onPlot (p : Nat) (f : Plot → Plot) (s : State) : State.onlyPlot p s (s.onPlot p f) :=
  ⟨rfl, fun _ h => State.plot_onPlot_other s f h⟩

theorem State.onlyStack_refl (k : Nat) (s : State) : State.onlyStack k s s := ⟨rfl, fun _ _ => rfl⟩

theorem State.onlyStack_onStack (k : Nat) (f : Stack → Stack) (s : State) : State.onlyStack k s (s.onStack k f) :=
  ⟨rfl, fun _ h => State.stack_onStack_other s f h⟩

theorem State.onlyLink_refl (l : Nat) (s : State) : State.onlyLink l s s := ⟨rfl, fun _ _ => rfl⟩

theorem State.onlyLink_onLink (l : Nat) (f : Link → Link) (s : State) : State.onlyLink l s (s.onLink l f) :=
  ⟨rfl, fun _ h => State.link_onLink_other s f h⟩

/-- Events after a change of one Plot leave it a change of one Plot. -/
theorem State.onlyPlot_events {p : Nat} {s t u : State} (h : State.onlyPlot p s t) (g : t.sameButEvents u) :
    State.onlyPlot p s u := by
  have hp := State.sameButEvents_plots g
  refine ⟨?_, fun q hq => (State.sameButEvents_plot g q).trans (h.2 q hq)⟩
  rw [hp]
  exact State.sameButEvents_trans h.1 g

/-! ### Records -/

theorem head?_take {α : Type} (r : α) (l : List α) (n : Nat) : ((r :: l).take (n + 1)).head? = some r := rfl

theorem posted_post (type cls index : Nat) (d : BitVec 32) (time : BitVec 64) (pl : List (BitVec 32)) (s : State) :
    s.posted (post type cls index d time pl s) type cls index pl :=
  ⟨_, head?_take _ _ 65535, rfl, rfl, rfl, rfl, rfl, rfl⟩

theorem posted_note (type index : Nat) (pl : List (BitVec 32)) (d : BitVec 32) (s : State) :
    s.posted (note type index pl d s) type 0 index pl :=
  posted_post type 0 index d s.now pl s

/-! ### Replies and long commands -/

/-- A reply changes its window, and the MSI-X state where it signals. -/
theorem sendReply_eq (w : Win) (b : List Byte) (s : State) :
    sendReply w b s = if (s.window w).irqEn then
        signalMsix (winIndex w) (s.onWindow w (fun q => { q with st := .done, reply := b, cur := none }))
      else s.onWindow w (fun q => { q with st := .done, reply := b, cur := none }) := by
  unfold sendReply
  cases w <;> rfl

theorem startLong_eq (w : Win) (op : Nat) (d : BitVec 32) (arg : Nat) (s : State) :
    startLong w op d arg s = { s with host := { s.host with longs := s.host.longs ++
      [{ op := BitVec.ofNat 8 op, win := w, hseq := BitVec.ofNat 32 ((s.window w).req.le 4 4), dseq := d, arg }] } } := rfl

/-- Records that an effect did not post keep their DSEQ: nothing is tagged where JHEAD stands still. -/
theorem caused_none {n : BitVec 64} {d : BitVec 32} {s : State} (h : s.host.jhead = n) : caused n d s = s := by
  subst h
  simp [caused]

/-- Tagging changes the DSEQ of records and nothing else. -/
theorem caused_same (n : BitVec 64) (d : BitVec 32) (s : State) : s.sameButEvents (caused n d s) := rfl

/-- A command whose window does not carry it changes nothing. -/
theorem command_none {w : Win} {op : Nat} {ps : List Nat} {act : BitVec 32 → State → Reply} {s : State}
    (h : s.carries w op ps = none) : command w op ps act s = .next s := by
  unfold command; rw [h]

/-- A command that its window carries answers what it does; the records it caused carry its DSEQ (R393). -/
theorem command_some {w : Win} {op : Nat} {ps : List Nat} {act : BitVec 32 → State → Reply} {s : State} {d : BitVec 32}
    (h : s.carries w op ps = some d) : command w op ps act s =
      .next (answer w d (act d s).st (act d s).res (caused s.host.jhead d (act d s).s)) := by
  unfold command; rw [h]

/-- The same, where the command posts no record. -/
theorem command_quiet {w : Win} {op : Nat} {ps : List Nat} {act : BitVec 32 → State → Reply} {s : State} {d : BitVec 32}
    (h : s.carries w op ps = some d) (g : (act d s).s.host.jhead = s.host.jhead) :
    command w op ps act s = .next (answer w d (act d s).st (act d s).res (act d s).s) := by
  rw [command_some h, caused_none g]

/-! ### Where a meaning applies -/

theorem live_on {s : State} (h : s.clocked = true) (o : Out) : s.live o = o := by simp [State.live, h]
theorem plotLive_on {s : State} {p : Nat} (h : s.plotOn p = true) (o : Out) : s.plotLive p o = o := by simp [State.plotLive, h]
theorem plotLive_off {s : State} {p : Nat} (h : s.plotOn p = false) (o : Out) : s.plotLive p o = .next s := by
  simp [State.plotLive, h]
theorem live_off {s : State} (h : s.clocked = false) (o : Out) : s.live o = .next s := by simp [State.live, h]
theorem busWrite_on {s : State} (h : s.clocked = true) (g : s.host.d3hot = false) (o : Out) : s.busWrite o = o := by
  simp [State.busWrite, State.barsOpen, h, g]
theorem when_true (t s : State) : when true t s = .next t := rfl
theorem when_false (t s : State) : when false t s = .next s := rfl

/-! ### Time -/

/-- The passing of time changes the clock, the time since power-on, the Plots' counters and the router's. -/
theorem passTo_frame (s : State) (t : Nat) (fr : BitVec 32) :
    s.passTo t fr = { s with
      clock := (s.passTo t fr).clock, boot := (s.passTo t fr).boot, plots := (s.passTo t fr).plots, router := (s.passTo t fr).router } := by
  unfold State.passTo
  rfl

theorem advanceTo_frame (s : State) (t : Nat) :
    s.advanceTo t = { s with
      clock := (s.advanceTo t).clock, boot := (s.advanceTo t).boot, plots := (s.advanceTo t).plots,
      router := (s.advanceTo t).router } := by
  unfold State.advanceTo
  split
  · exact passTo_frame s t 0
  · rfl

theorem advanceTo_past {s : State} {t : Nat} (h : t ≤ s.now.toNat) : s.advanceTo t = s := by
  unfold State.advanceTo
  rw [if_neg]
  intro g
  exact absurd g.1 (Nat.not_lt.2 h)

theorem passTo_pending (s : State) (t : Nat) (fr : BitVec 32) : (s.passTo t fr).pending = s.pending := rfl

theorem idle_pending (s : State) : (idle s).pending = s.pending := by
  unfold idle
  exact (apply_ite State.pending _ _ _).trans (ite_self _)

/-! ### The Relay's tables -/

/-- What reads the tables of a context is done at once where they can be read (R361, R363). -/
theorem withTables_ready {c : Nat} {s : State} (h : s.tablesWait (s.ctx c) = false) (g : s.tablesOk (s.ctx c) = true) (a : RelayAct)
    (f : State → State) : withTables c a f s = f s := by
  simp [withTables, h, g]

/-- Nothing waits for memory. -/
theorem catchUp_none {s : State} (h : s.relay.acts = []) : catchUp s = s := by
  simp only [catchUp, h, List.foldl_nil, State.onRelay]
  rw [← h]

end Sys2Proof.Machine
end

