-- ==== Sys2Proof/WellFormed.lean ====
section
/-! DEFINITION. Which commands and events a sender or the surroundings can give: operands in the ranges of the objects they
name (R9, R12, R24, R159, R246, R334). A host command's parameters are under no check here: the device checks them itself. -/

namespace Sys2Proof

/-- The operands name objects that the device has. -/
def Instr.wf : Instr → Bool
  | .coldReset => true
  | .perstRelease _ _ _ _ _ _ => true
  | .bootReady => true
  | .warmReset => true
  | .functionLevelReset => true
  | .sysResetN => true
  | .powerRemoval => true
  | .d3hotEntry => true
  | .d0Return => true
  | .thermalTrip stack _ => stack.all (· < 24)
  | .railUndervoltage _ => true
  | .coreRefLoss _ => true
  | .avsVoltageReached _ _ => true
  | .paceRefChange _ => true
  | .paceSyncEdge => true
  | .loadArm => true
  | .flumeRowRead p _ => decide (p < 272)
  | .flumeSegmentWrite p f g => decide (p < 272 ∧ f < 4 ∧ g < 8)
  | .columnGroupTakeRow p f g _ => decide (p < 272 ∧ f < 4 ∧ g < 8)
  | .basinRowWrite p f g _ => decide (p < 272 ∧ f < 4 ∧ g < 8)
  | .shadowLoadStart p _ => decide (p < 272)
  | .shadowLoadComplete p => decide (p < 272)
  | .shadowExchange p f => decide (p < 272 ∧ f < 4)
  | .pltFcolmapWrite p f _ => decide (p < 272 ∧ f < 4)
  | .pltBspareWrite p f e _ => decide (p < 272 ∧ f < 4 ∧ e < 4)
  | .pltWexpWrite p _ => decide (p < 272)
  | .cntClr p => decide (p < 272)
  | .pcntctlClr p => decide (p < 272)
  | .pltPflagsetWrite p _ => decide (p < 272)
  | .pltRsvrepentWrite p _ _ => decide (p < 272)
  | .workEntryIssue p => decide (p < 272)
  | .timeWaitExpiry p => decide (p < 272)
  | .fillTimeout p => decide (p < 272)
  | .nop p => decide (p < 272)
  | .loopset p => decide (p < 272)
  | .loop p => decide (p < 272)
  | .skip p => decide (p < 272)
  | .return_ p => decide (p < 272)
  | .setix p => decide (p < 272)
  | .addix p => decide (p < 272)
  | .xorix p => decide (p < 272)
  | .timeadd p => decide (p < 272)
  | .clear p => decide (p < 272)
  | .batchend p => decide (p < 272)
  | .batchendEffect p => decide (p < 272)
  | .slotfree p => decide (p < 272)
  | .slotfreeEffect p => decide (p < 272)
  | .halt p => decide (p < 272)
  | .entryComplete p _ => decide (p < 272)
  | .drainComplete p _ => decide (p < 272)
  | .drain p _ => decide (p < 272)
  | .add p _ => decide (p < 272)
  | .mul p _ => decide (p < 272)
  | .max p _ => decide (p < 272)
  | .axpby p _ => decide (p < 272)
  | .exp2 p _ => decide (p < 272)
  | .log2 p _ => decide (p < 272)
  | .rcp p _ => decide (p < 272)
  | .rsqrt p _ => decide (p < 272)
  | .convert p _ => decide (p < 272)
  | .split p _ => decide (p < 272)
  | .rowscale p _ => decide (p < 272)
  | .rescaleAcc p _ => decide (p < 272)
  | .softmaxBlock p _ => decide (p < 272)
  | .tagread p _ => decide (p < 272)
  | .fillc p _ => decide (p < 272)
  | .inboxAppendReserve p n _ _ _ _ => decide (p < 272 ∧ n < 4)
  | .inboxAppendComplete p n _ => decide (p < 272 ∧ n < 4)
  | .meshReq _ _ => true
  | .meshRsp _ => true
  | .regionWrite r _ _ => decide (r < 64)
  | .dmaTransferStart p => decide (p < 272)
  | .dmaTransferComplete p => decide (p < 272)
  | .hbmDemandRead s _ _ _ => decide (s < 24)
  | .hbmWrite s sb data => decide (s < 24 ∧ data.length = 32 ∧ sb % 32 = 0)
  | .hbmPartialWrite s sb data _ => decide (s < 24 ∧ 0 < data.length ∧ sb % 32 + data.length ≤ 32)
  | .patrolScrubRead s _ => decide (s < 24)
  | .dieLinkReplay s _ => decide (s < 24)
  | .hbmRefresh s => decide (s < 24)
  | .hbmTempThreshold s _ => decide (s < 24)
  | .hbmIdlePowerDown s ch => decide (s < 24 ∧ ch < 32)
  | .hbmInitComplete _ => true
  | .hbmPpr _ _ _ _ _ _ _ _ => true
  | .pprDrainDone s ch => decide (s < 24 ∧ ch < 32)
  | .pprRowReadDone s ch _ => decide (s < 24 ∧ ch < 32)
  | .pprProgramDone s ch => decide (s < 24 ∧ ch < 32)
  | .pprComplete s ch => decide (s < 24 ∧ ch < 32)
  | .hbmSpare _ _ _ _ => true
  | .spareTargetReady s => decide (s < 24)
  | .spareBlockCopied s _ => decide (s < 24)
  | .spareCopyComplete s => decide (s < 24)
  | .hbmOffline _ _ _ => true
  | .sluiceElementArrive s seg _ _ => decide (s < 24 ∧ seg < 0x40000)
  | .sluiceBlockUpdate s _ _ => decide (s < 24)
  | .sluiceHoldTimeout s _ => decide (s < 24)
  | .sluiceEvalComplete s => decide (s < 24)
  | .sluiceGatherServe s _ => decide (s < 24)
  | .gatherWaitRetry s _ => decide (s < 24)
  | .pipemapWrite s _ => decide (s < 24)
  | .pipemapApply s => decide (s < 24)
  | .slcCvetoWrite _ => true
  | .verdict e _ => decide (e < 256)
  | .commit e _ => decide (e < 256)
  | .rollback e _ => decide (e < 256)
  | .verdictResult words => decide (words.length = 16)
  | .stepNRelease => true
  | .runStart e _ => decide (e < 256)
  | .runStop e _ _ _ => decide (e < 256)
  | .runPause e _ _ => decide (e < 256)
  | .runResume e _ => decide (e < 256)
  | .collLaunch e _ => decide (e < 256)
  | .starterPowerState e _ => decide (e < 256)
  | .starterPowerCap e => decide (e < 256)
  | .starterClockCeil e => decide (e < 256)
  | .drainBegin e _ => decide (e < 256)
  | .routeSwap e _ => decide (e < 256)
  | .drainEnd e _ => decide (e < 256)
  | .starterTelemetry e => decide (e < 256)
  | .starterDispatch e => decide (e < 256)
  | .starterWrite _ _ _ => true
  | .starterCancel _ _ => true
  | .psetWrite _ _ _ => true
  | .starterRead _ _ => true
  | .timingRequestTimer => true
  | .timing l _ => decide (l < 18)
  | .parentLossTimeout => true
  | .lnkCfgEnableWrite l _ => decide (l < 18)
  | .linkDisableTimeout l => decide (l < 18)
  | .laneEqualisationDone l => decide (l < 18)
  | .laneDeskewDone l => decide (l < 18)
  | .laneQualifyWindowEnd l _ rxErrs _ => decide (l < 18 ∧ rxErrs.length = 5)
  | .laneMapAgreed l => decide (l < 18)
  | .bibResendTimer l => decide (l < 18)
  | .bib l _ => decide (l < 18)
  | .linkTrainingTimeout l => decide (l < 18)
  | .flitTransmit l => decide (l < 18)
  | .flitReceive l _ => decide (l < 18)
  | .markerReceive l _ _ => decide (l < 18)
  | .laneSignalLoss l lane _ => decide (l < 18 ∧ lane < 5)
  | .symbolWindowEnd l errs => decide (l < 18 ∧ errs.length = 5)
  | .retrainComplete l _ => decide (l < 18)
  | .retrainTimeout l => decide (l < 18)
  | .linkEnable _ _ _ => true
  | .linkRetrain _ _ => true
  | .laneRequalify _ _ _ => true
  | .laneRequalifyComplete l _ => decide (l < 18)
  | .canalWrite c _ => decide (c < 18)
  | .packetReceive l _ => decide (l < 18)
  | .routePacket l => decide (l < 18)
  | .spillwayTurn l => decide (l < 18)
  | .packetInject cls unit => decide (cls < 6 ∧ unit < 288)
  | .ejection die => decide (die < 4)
  | .write _ => true
  | .appendRow _ => true
  | .appendSlot _ => true
  | .read _ => true
  | .readData => true
  | .ack => true
  | .nack => true
  | .credit => true
  | .batonDone => true
  | .batonParkDeliver cls src => decide (cls < 6 ∧ src < 16384)
  | .spillCredit l => decide (l < 18)
  | .mgmt => true
  | .mgmtRetry _ => true
  | .routeLoad _ _ _ _ _ => true
  | .deviceDrained => true
  | .swapDeadline => true
  | .flowMapWindowEnd => true
  | .heatsheetInstall _ _ _ => true
  | .discoveryPass l => decide (l < 18)
  | .linkSettle l => decide (l < 18)
  | .admissionNotice l _ => decide (l < 18)
  | .groupLoad _ _ _ _ _ _ => true
  | .groupUnload _ _ => true
  | .collPost _ desc => decide (desc.length = 128)
  | .flagsLaunch d => decide (d < 64)
  | .post _ group _ rank _ => decide (group < 4096 ∧ rank < 16384)
  | .retry group _ => decide (group < 4096)
  | .postRetryTimer c => decide (c < 128)
  | .go group _ => decide (group < 4096)
  | .abort group _ _ => decide (group < 4096)
  | .collCount group _ rank _ => decide (group < 4096 ∧ rank < 16384)
  | .collData group _ _ _ => decide (group < 4096)
  | .collCredit group _ rank => decide (group < 4096 ∧ rank < 16384)
  | .collBlockSend c _ _ => decide (c < 128)
  | .collTimeout c => decide (c < 128)
  | .pieceComplete c _ i => decide (c < 128 ∧ i < 4096)
  | .collAbort _ _ _ _ => true
  | .collStatus _ _ => true
  | .cmdCommit _ _ => true
  | .echo _ data => decide (data.length ≤ 1008)
  | .identify _ => true
  | .journalFetch _ _ _ _ => true
  | .planLoad _ _ _ _ _ _ _ => true
  | .runControlStart _ _ _ _ => true
  | .runControlStop _ _ _ _ _ _ => true
  | .runControlPause _ _ _ _ _ => true
  | .runControlResume _ _ _ _ => true
  | .plotReset _ _ _ => true
  | .flagRaise _ _ _ => true
  | .pacerSet _ _ _ _ => true
  | .dmaToDevice _ _ _ => true
  | .dmaToHost _ _ _ => true
  | .dmaFill _ _ _ _ => true
  | .hostDmaEntryComplete _ _ => true
  | .sluiceConfig _ _ => true
  | .planStart _ _ _ _ => true
  | .resolveCommit _ => true
  | .resolveRollback _ => true
  | .planEnd _ => true
  | .veto _ => true
  | .tagRead _ _ _ => true
  | .powerCap _ _ => true
  | .clockCeil _ _ _ => true
  | .powerState _ _ _ => true
  | .powerStateReached => true
  | .telemetry _ => true
  | .plotRemap _ _ _ _ => true
  | .spareFuse _ => true
  | .sealOpen _ => true
  | .sealCommit _ _ => true
  | .sealStatus _ => true
  | .sealPass _ => true
  | .measurements _ _ _ => true
  | .devidChain _ _ _ => true
  | .debugToken _ _ _ _ => true
  | .debugTokenLower _ _ => true
  | .contentClearComplete => true
  | .lifecycle _ _ _ _ _ => true
  | .fwStage _ _ _ _ => true
  | .fwStageComplete => true
  | .fwActivate _ _ => true
  | .fwRoleMove _ => true
  | .deviceReset _ => true
  | .marshalRestart _ _ => true
  | .journalRingWrite => true
  | .cmdJtailWrite _ => true
  | .cmdJcfgWrite _ => true
  | .journalModTimer => true
  | .bar2Write _ => true
  | .bar4Read _ _ _ _ => true
  | .bar4Write _ data _ => decide (data.length ≤ 4096)
  | .cmdBar4BaseWrite _ => true
  | .wideRegisterRead _ _ size => decide (0 < size ∧ size ≤ 64)
  | .registerWrite _ _ data _ _ => decide (0 < data.length ∧ data.length ≤ 64)
  | .bootGo _ => true
  | .bootVerifyComplete _ => true
  | .powerLoop _ _ => true
  | .thermalLoop temps => decide (temps.length = 16)
  | .thermalThrottle i _ => decide (i < 16)
  | .droop i _ => decide (i < 16)
  | .watchdogExpiry m _ => decide (m < 6)
  | .marshalFault m _ _ _ => decide (m < 6)
  | .marshalRestartComplete role => decide (1 ≤ role ∧ role ≤ 4)
  | .grantMissing => true
  | .holdGovernorLoop _ _ => true
  | .telemetryPost => true
  | .mctpRequest _ => true
  | .getVersion _ => true
  | .getCapabilities _ => true
  | .negotiateAlgorithms _ _ => true
  | .getDigests _ => true
  | .getCertificate _ _ _ _ => true
  | .challenge _ _ _ => true
  | .getMeasurements _ _ _ _ => true
  | .ceSummaryTimer => true
  | .healthAutoRepair _ _ => true
  | .pcieLinkChange _ _ _ => true
  | .slowClockEdge => true
  | .syncSeenLapse => true
  | .debugPortAccess _ => true
  | .dmaFillComplete _ _ => true

end Sys2Proof
end

