-- ==== Sys2Proof/Tests/Slice0.lean ====
section
/-! SUPPORT. The model's own tests: an ill-formed term for each check of well-formedness, small steps of the commands, and for
each statement states and operands that meet its hypotheses. Expected values come from the spec's text and tables. -/

namespace Sys2Proof.Tests
open Sys2Proof.Machine

set_option Elab.async false

/-- The queue is empty after reset. -/
theorem test_reset_queue : State.reset.pending = [] := rfl

/-! ### Helpers -/

/-- PERST_N is released and nothing else has happened. -/
def on : State := { State.reset with boot := { perst := false } }

/-- The answer is a next state that p accepts. -/
def ran (o : Out) (p : State → Bool) : Bool :=
  match o with
  | .next t => p t
  | _ => false

/-- The state after a command, or the state before where it stops. -/
def go (c : Instr) (s : State) : State :=
  match exec c s with
  | .next t => t
  | _ => s

/-- Physical Plot 0 is x. -/
def plot0 (x : Plot) : State := { on with plots := [(0, x)] }

/-- A step memory with entry e at index i. -/
def mem1 (i e : Nat) : Mem := Mem.write [] (16 * i) (leBytes 16 e)

/-- Plot 0 runs with entry e at PC 0. -/
def run1 (e : Nat) (f : Pacer → Pacer := id) : State := plot0 { stepMem := mem1 0 e, pacer := f { st := .running } }

/-- A CONTROL entry (R103). -/
def ctl (op : Nat) (imm : Nat := 0) (target : Nat := 0) (sel : Nat := 0) (flag : Nat := 0) (sense : Nat := 0)
    (count : Nat := 0) (inbox : Nat := 0) : Nat :=
  imm + target * 2 ^ 32 + sel * 2 ^ 44 + flag * 2 ^ 46 + sense * 2 ^ 52 + count * 2 ^ 53 + inbox * 2 ^ 57
    + op * 2 ^ 122 + 2 ^ 126

/-- Plot 0's Pacer. -/
def pac (s : State) : Pacer := (s.plot 0).pacer

/-- A packet of a command: its parameters as sizes and values (R390). -/
def packet (op : Nat) (ps : List (Nat × Nat)) : Mem :=
  let b := pack ps
  Mem.write [] 0 (leBytes 4 (op + (16 + b.length) * 65536) ++ leBytes 4 1 ++ List.replicate 8 0 ++ b)

/-- Every role runs. -/
def roles : List Marshal := [{ role := 1, st := .running }, { role := 2, st := .running }, { role := 3, st := .running },
  { role := 4, st := .running }, {}, {}]

/-- A device in service, with every role up. -/
def up : State := { on with boot := { perst := false, st := .running, marshals := roles } }

/-- The PCW carries a command with DSEQ 7. -/
def asks (op : Nat) (ps : List (Nat × Nat)) (s : State := up) : State :=
  { s with host := { s.host with pcw := { st := .busy, req := packet op ps, cur := some 7 } } }

/-- The status of the reply in the PCW. -/
def status (s : State) : Nat := leNat ((s.host.pcw.reply.drop 12).take 2)

/-- The result of the reply in the PCW. -/
def result (s : State) : List Byte := s.host.pcw.reply.drop 16

/-- One row of E4M3 for Furrow 0, from Reservoir byte 0. -/
def workRow : Nat := 1 * 2 ^ 27 + 2 * 2 ^ 42 + 1 * 2 ^ 46

/-- The same with a wait of a kind and an argument. -/
def workWait (kind arg : Nat) : Nat := workRow + kind * 2 ^ 104 + arg * 2 ^ 107

/-- Plot 0 runs entry e, with Furrow 0 holding a tile of E4M3. -/
def work1 (e : Nat) (f : Pacer → Pacer := id) : State :=
  plot0 { stepMem := mem1 0 e, pacer := f { st := .running },
          furrows := [{ recFmts := [(0, 2)], curFmt := some 2 }, {}, {}, {}] }

/-- A device address in the Reservoir of logical Plot l. -/
def rsvAddr (l o : Nat) : Nat := 0x800000000000 + l * 2 ^ 24 + o

/-! ### The Pacer -/

/-- CONTROL entries by their bits (R103). -/
theorem test_control_word : parseCtl (ctl 2 0x12345678 0xABC 3 63 1 15 2) =
    { imm := 0x12345678, target := 0xABC, sel := 3, flag := 63, sense := true, count := 15, inbox := 2, rsv := 0, op := 2 } := by
  decide +kernel

theorem test_loopset : (run1 (ctl 1 7 0 3)).atControl 0 (parseCtl (ctl 1 7 0 3)) 0 ∧
    ran (exec (.loopset 0) (run1 (ctl 1 7 0 3))) (fun t => (pac t).loops == [0, 0, 0, 7] && (pac t).pc == 1
      && (pac t).pcnt.take 2 == [1, 1]) := by decide +kernel

theorem test_setix : (run1 (ctl 5 0xFFFFFF 0 1)).atControl 0 (parseCtl (ctl 5 0xFFFFFF 0 1)) 0 ∧
    ran (exec (.setix 0) (run1 (ctl 5 0xFFFFFF 0 1))) (fun t => (pac t).ix == [0, 0xFFFFFF, 0, 0]) := by decide +kernel

theorem test_addix : (run1 (ctl 6 0xFFFFFF 0 0)).atControl 0 (parseCtl (ctl 6 0xFFFFFF 0 0)) 0 ∧
    ran (exec (.addix 0) (run1 (ctl 6 0xFFFFFF 0 0))) (fun t => (pac t).ix == [0xFFFFFF, 0, 0, 0]) := by decide +kernel

theorem test_xorix : (run1 (ctl 12 5 0 2) (fun q => { q with ix := [0, 0, 6, 0] })).atControl 0 (parseCtl (ctl 12 5 0 2)) 0 ∧
    ran (exec (.xorix 0) (run1 (ctl 12 5 0 2) (fun q => { q with ix := [0, 0, 6, 0] }))) (fun t => (pac t).ix == [0, 0, 3, 0]) := by
  decide +kernel

theorem test_timeadd : (run1 (ctl 7 9 0 1)).atControl 0 (parseCtl (ctl 7 9 0 1)) 0 ∧
    ran (exec (.timeadd 0) (run1 (ctl 7 9 0 1))) (fun t => (pac t).ptime == [0, 9, 0, 0]) := by decide +kernel

theorem test_clear : (run1 (ctl 8 0 0 0 63) (fun q => { q with flags := [(63, 15)] })).atControl 0 (parseCtl (ctl 8 0 0 0 63)) 0 ∧
    ran (exec (.clear 0) (run1 (ctl 8 0 0 0 63) (fun q => { q with flags := [(63, 15)] })))
      (fun t => (pac t).flags.get 63 1 == 0) := by decide +kernel

theorem test_nop : (run1 (ctl 0)).atControl 0 (parseCtl (ctl 0)) 0 ∧
    ran (exec (.nop 0) (run1 (ctl 0))) (fun t => (pac t).pc == 1 && (pac t).seq == 1) := by decide +kernel

theorem test_loop_counts : (run1 (ctl 2 0 0 0) (fun q => { q with loops := [2, 0, 0, 0] })).atControl 0 (parseCtl (ctl 2 0 0 0)) 0 ∧
    ran (exec (.loop 0) (run1 (ctl 2 0 0 0) (fun q => { q with loops := [2, 0, 0, 0] })))
      (fun t => (pac t).loops == [1, 0, 0, 0] && (pac t).pc == 0) := by decide +kernel

theorem test_loop_ends : (run1 (ctl 2)).atControl 0 (parseCtl (ctl 2)) 0 ∧
    ran (exec (.loop 0) (run1 (ctl 2))) (fun t => (pac t).loops == [0, 0, 0, 0] && (pac t).pc == 1) ∧
    ran (exec (.loop 0) (run1 (ctl 2) (fun q => { q with loops := [1, 0, 0, 0] }))) (fun t => (pac t).pc == 1) := by decide +kernel

theorem test_skip : (run1 (ctl 3 0 0 0 0 0 15)).atControl 0 (parseCtl (ctl 3 0 0 0 0 0 15)) 0 ∧
    ran (exec (.skip 0) (run1 (ctl 3 0 0 0 0 0 15))) (fun t => (pac t).pc == 16) ∧
    ran (exec (.skip 0) (run1 (ctl 3 0 0 0 0 1 15))) (fun t => (pac t).pc == 1) := by decide +kernel

theorem test_return : (run1 (ctl 4)).atControl 0 (parseCtl (ctl 4)) 0 ∧
    ran (exec (.return_ 0) (run1 (ctl 4))) (fun t => (pac t).pc == 0 && (pac t).seq == 1) := by decide +kernel

theorem test_batchend_slotfree :
    (run1 (ctl 9)).atControl 0 (parseCtl (ctl 9)) 0 ∧ (run1 (ctl 10 0 0 0 0 0 0 3)).atControl 0 (parseCtl (ctl 10 0 0 0 0 0 0 3)) 0 ∧
    ran (exec (.batchend 0) (run1 (ctl 9))) (fun t => (pac t).deferred == [(0, none)]) ∧
    ran (exec (.slotfree 0) (run1 (ctl 10 0 0 0 0 0 0 3))) (fun t => (pac t).deferred == [(0, some 3)]) := by decide +kernel

theorem test_halt : (run1 (ctl 11)).atControl 0 (parseCtl (ctl 11)) 0 ∧
    ran (exec (.halt 0) (run1 (ctl 11))) (fun t => (pac t).st == .draining && (pac t).haltPc == some 0 && (pac t).pc == 0) := by
  decide +kernel

/-- A refused entry (R120): a TARGET past the entry's own index, a reserved field, a reserved OP and a reserved KIND. -/
theorem test_refusals :
    [(Instr.loop 0, ctl 2 0 1, 6), (.nop 0, ctl 0 + 2 ^ 59, 1), (.workEntryIssue 0, ctl 13, 1), (.workEntryIssue 0, 2 ^ 127, 1),
     (.return_ 0, ctl 4 0 1, 6)].all
      (fun e => ran (exec e.1 (run1 e.2.1)) (fun t => (pac t).st == .draining && (pac t).drainTo == .toFaultHalt
        && (pac t).faultNext.toNat == e.2.2 && (pac t).fault == 0 && t.host.recs == [])) = true := by
  decide +kernel

/-- The drain's end then posts RUN_FAULT, in FAULT_HALT, and not before (R120). -/
def refused1 : State := go (.nop 0) (run1 (ctl 0 + 2 ^ 59))

theorem test_fault_halt : (pac refused1).st = .draining ∧ (pac refused1).faultNext ≠ 0 ∧ (pac refused1).haltPc = none ∧
    ran (exec (.drainComplete 0 []) refused1) (fun t => (pac t).st == .faultHalt && (pac t).fault == 1
      && (t.host.recs.head?.map (·.type)) == some 3 && t.host.msixPba == 8) ∧
    ran (exec (.drainComplete 0 []) (refused1.onPlot 0 (fun x => x.onPacer (fun q => { q with work := [{}] })))) (fun t =>
      (pac t).st == .draining && t.host.recs == []) := by decide +kernel

/-- A SLOT_IN wait met gives IX a row outside the Reservoir (R96, R119): RANGE, whatever the queues hold. -/
def farSlot : Nat := workWait 4 16 + 131071 + 2 ^ 39

/-- Plot 0 runs it with one full slot at row 1. -/
def slotted : State := work1 farSlot (fun q => { q with inboxes :=
  [{ base := 1, cap := 4, pitch := 1, slotMode := true, slots := 4, present := 1 }, {}, {}, {}] })

theorem test_slot_range : workCheck (slotted.plot 0) (parseWork farSlot) 0 = 0 ∧ (parseWork farSlot).waitKind = 4 ∧
    (parseWork farSlot).writesIx ≠ 0 ∧ (pac slotted).waitMet (parseWork farSlot) 0 = true ∧
    workRange (slotted.plot 0) (parseWork farSlot) ((pac slotted).takeWait (parseWork farSlot)).ix 0 = true ∧
    ran (exec (.workEntryIssue 0) slotted) (fun t => (pac t).faultNext == 5 && (t.plot 0).streams == []) ∧
    ran (exec (.workEntryIssue 0) (slotted.onPlot 0 (fun x => { x with streams := List.replicate 4 {} }))) (fun t =>
      (pac t).faultNext == 5) := by decide +kernel

/-- A WORK entry whose FMT or masks are reserved is refused with the code of its check. -/
theorem test_work_refused : eKind (2 ^ 87) = 0 ∧ workCheck ((run1 (2 ^ 87)).plot 0) (parseWork (2 ^ 87)) 0 ≠ 0 ∧
    ran (exec (.workEntryIssue 0) (run1 (2 ^ 87))) (fun t => (pac t).faultNext != 0 && (t.plot 0).streams == []) := by decide +kernel

theorem test_work_word : (parseWork (workWait 2 3)).flRows = 1 ∧ (parseWork (workWait 2 3)).fmt = 2 ∧
    (parseWork (workWait 2 3)).fuMask = 1 ∧ (parseWork (workWait 2 3)).waitKind = 2 ∧ (parseWork (workWait 2 3)).waitArg = 3 ∧
    eKind (workWait 2 3) = 0 := by decide +kernel

/-! ### Work, the Flume and the Furrows -/

theorem test_work_issues : (work1 workRow).atWork 0 (parseWork workRow) 0 ∧ (pac (work1 workRow)).waitMet (parseWork workRow) 0 = true ∧
    ran (exec (.workEntryIssue 0) (work1 workRow)) (fun t => (t.plot 0).streams.length == 1 && (pac t).pc == 1
      && (pac t).work.map (·.stream) == [true] && (pac t).pcnt.take 3 == [1, 1, 0]) := by decide +kernel

theorem test_work_waits : (work1 (workWait 1 0)).atWork 0 (parseWork (workWait 1 0)) 0 ∧
    (pac (work1 (workWait 1 0))).waitMet (parseWork (workWait 1 0)) 0 = false ∧
    ran (exec (.workEntryIssue 0) (work1 (workWait 1 0))) (fun t => (pac t).pc == 0 && (pac t).checked && (t.plot 0).streams == []) := by
  decide +kernel

/-- A unit's queue of 4 that is full holds the entry back (R93). -/
theorem test_work_queue : queuesFree ((work1 workRow).onPlot 0 (fun x => { x with streams := List.replicate 4 {} }) |>.plot 0)
      (parseWork workRow) = false ∧
    ran (exec (.workEntryIssue 0) ((work1 workRow).onPlot 0 (fun x => { x with streams := List.replicate 4 {} }))) (fun t =>
      (pac t).pc == 0 && (pac t).checked && (t.plot 0).streams.length == 4) := by decide +kernel

/-- A TIME wait 5 ns ahead. -/
def timed : State := work1 (workWait 2 0) (fun q => { q with ptime := [5, 0, 0, 0] })

theorem test_time_wait : timed.atWork 0 (parseWork (workWait 2 0)) 0 ∧ timed.now = 0 ∧
    ran (exec (.timeWaitExpiry 0) timed) (fun t => t.now == 5 && (pac t).pc == 1) := by decide +kernel

/-- A FILL wait on an inbox with one row, which arrived at 3 ns. -/
def filled : State := work1 (workWait 3 0) (fun q => { q with fillMin := 2, fillTo := 7, inboxes :=
  [{ cap := 4, pitch := 1, present := 1, arrivals := [(3, 1)] }, {}, {}, {}] })

theorem test_fill_timeout : filled.atWork 0 (parseWork (workWait 3 0)) 0 ∧
    (pac filled).waitMet (parseWork (workWait 3 0)) 0 = false ∧
    ran (exec (.fillTimeout 0) filled) (fun t => t.now == 10 && (pac t).pc == 1 && (pac t).batchB == 1) := by decide +kernel

/-- Plot 0 streams one row of INT8, whose first two elements are -128 and 1, at byte 64 of its Reservoir, into Furrow 0 for Basin row 2. -/
def flume : State := plot0 { streams := [{ rows := 1, fmt := 5, mask := 1, base := 2, addr0 := 64 }],
                             resv := Mem.write [] 64 (leBytes 2 0x0180), pacer := { st := .running } }

theorem test_flume_row : (flume.plot 0).staging.length < 8 ∧ ran (exec (.flumeRowRead 0 []) flume) (fun t =>
    (t.plot 0).staging.map (fun r => (r.seq, r.row, r.todo.length)) == [(0, 0, 8)]) := by decide +kernel

theorem test_flume_full : ran (exec (.flumeRowRead 0 []) (flume.onPlot 0 (fun x => { x with staging := List.replicate 8 {} })))
    (fun t => (t.plot 0).staging.length == 8) = true := by decide +kernel

theorem test_flume_segment : ran (exec (.flumeSegmentWrite 0 0 7) (go (.flumeRowRead 0 []) flume)) (fun t =>
    (((t.plot 0).furrow 0).fifo.get 7 []).length == 1 && (((t.plot 0).furrow 0).fifo.get 6 []).length == 0) = true := by
  decide +kernel

/-- The row stands in all eight FIFOs of Furrow 0, whose active tile holds 127 throughout. -/
def streamed : State :=
  ((List.range 8).foldl (fun s g => go (.flumeSegmentWrite 0 0 g) s) (go (.flumeRowRead 0 []) flume)).onPlot 0 (fun x =>
    x.onFurrow 0 (fun fu => { fu with active := some { fmt := 5, weights := List.replicate 128 127 } }))

theorem test_take_row : (((streamed.plot 0).furrow 0).rowAt 0).isSome = true ∧
    ran (exec (.columnGroupTakeRow 0 0 7 none) streamed) (fun t =>
      ((t.plot 0).furrow 0).drain == [(7, 0, 0, List.replicate 8 (-16129))]) := by decide +kernel

theorem test_take_row_residue :
    ran (exec (.columnGroupTakeRow 0 0 0 (some ⟨false, 7, 5⟩)) streamed) (fun t =>
      ((t.plot 0).furrow 0).drain == [(0, 0, 0, List.replicate 7 (-16129) ++ [5])]) = true := by decide +kernel

/-- One column in BF16: 1.0 × 1.5 and 2.0 × -0.25 (R66). -/
theorem test_column_sum :
    (columnSum .ieee 0 ([0x3F80, 0x4000] ++ List.replicate 62 0) ([0x3FC0, 0xBE80] ++ List.replicate 62 0) [] []).1 = 0x3F800000 := by
  decide +kernel

theorem test_take_row_waits :
    ran (exec (.columnGroupTakeRow 0 0 0 none) (streamed.onPlot 0 (fun x => x.onFurrow 0 (fun fu =>
      { fu with drain := List.replicate 8 (0, 0, 0, []) })))) (fun t => ((t.plot 0).furrow 0).taken == []) = true ∧
    ran (exec (.columnGroupTakeRow 0 0 0 none) (streamed.onPlot 0 (fun x =>
      { x with streams := x.streams.map (fun st => { st with useLoad := [(0, some 9)] }) })))
      (fun t => ((t.plot 0).furrow 0).taken == []) = true := by decide +kernel

/-- Plot 0 has a drained row of column group 1 of Furrow 0 for Basin row 2, in which column 15 holds `old`. -/
def drained (fmt : BitVec 4) (add : Bool) (old v : BitVec 32) : State :=
  plot0 { streams := [{ rows := 1, fmt, mask := 1, base := 2, add }],
          furrows := [{ drain := [(1, 0, 0, List.replicate 8 v)], words := [(2 * 64 + 15, old)] }, {}, {}, {}] }

/-- SET, ADD in FP32 and ADD in INT32 with saturation (R36, R62): column 15 is the last of group 1. -/
theorem test_basin_write :
    ran (exec (.basinRowWrite 0 0 1 []) (drained 2 false 5 0x3F800000)) (fun t =>
      ((t.plot 0).furrow 0).word 2 15 == 0x3F800000 && ((t.plot 0).furrow 0).word 2 16 == 0 && ((t.plot 0).furrow 0).drain == []) = true ∧
    ran (exec (.basinRowWrite 0 0 1 []) (drained 2 true 0x40000000 0x3F800000)) (fun t =>
      ((t.plot 0).furrow 0).word 2 15 == 0x40400000) = true ∧
    ran (exec (.basinRowWrite 0 0 1 []) (drained 5 true 0x7FFFFFFF 1)) (fun t =>
      ((t.plot 0).furrow 0).word 2 15 == 0x7FFFFFFF) = true := by decide +kernel

/-- A pair pass sets the hi and lo words of rows 4 and 5. -/
theorem test_basin_pair :
    ran (exec (.basinRowWrite 0 0 1 []) (drained 9 false 0 0x3F800000)) (fun t =>
      ((t.plot 0).furrow 0).word 4 15 == 0x3F800000 && ((t.plot 0).furrow 0).word 5 15 == 0) = true ∧
    ran (exec (.basinRowWrite 0 0 1 []) (drained 9 true 0 0x3F800000)) (fun t =>
      ((t.plot 0).furrow 0).word 4 15 == 0x3F800000) = true := by decide +kernel

/-- A load for Furrow 3 waits at the head of the queue. -/
def loading : State := plot0 { loadQ := [{ seq := 4, furrow := 3, addr := 0, fmt := 2 }] }

theorem test_shadow_load :
    ran (exec (.shadowLoadStart 0 []) loading) (fun t => ((t.plot 0).furrow 3).loading.isSome && (t.plot 0).loadQ == []) = true ∧
    ran (exec (.shadowLoadComplete 0) (go (.shadowLoadStart 0 []) loading)) (fun t =>
      ((t.plot 0).furrow 3).shadow.isSome && ((t.plot 0).furrow 3).loading.isNone) = true ∧
    ran (exec (.shadowLoadStart 0 []) (loading.onPlot 0 (fun x => x.onFurrow 3 (fun fu => { fu with shadow := some {} }))))
      (fun t => ((t.plot 0).furrow 3).loading.isNone) = true := by decide +kernel

/-- The shadow of Furrow 0 holds the tile that the entry of the row at the head uses. -/
def exchange : State := plot0
  { streams := [{ seq := 1, rows := 1, mask := 1, useLoad := [(0, some 0)] }],
    furrows := [{ shadow := some { seq := 0 }, fifo := [(0, [{ seq := 1 }])] }, {}, {}, {}] }

theorem test_exchange : canExchange (exchange.plot 0) 0 ((exchange.plot 0).furrow 0) { seq := 0 } = true ∧
    ran (exec (.shadowExchange 0 0) exchange) (fun t => ((t.plot 0).furrow 0).active == some { seq := 0 }
      && ((t.plot 0).furrow 0).shadow.isNone) ∧
    ran (exec (.shadowExchange 0 0) (exchange.onPlot 0 (fun x => { x with streams := [] }))) (fun t =>
      ((t.plot 0).furrow 0).active.isNone) := by decide +kernel

/-- Register writes at the bounds of their fields: BAD_COL 64 is a column and 65 is reserved (R49). -/
theorem test_plot_registers : on.plotWritable 271 = true ∧
    ran (exec (.pltFcolmapWrite 271 3 (64 + 128)) on) (fun t => ((t.plot 271).furrow 3).map == { badCol := 64, spareEn := true }) ∧
    ran (exec (.pltFcolmapWrite 271 3 65) on) (fun t => ((t.plot 271).furrow 3).map == { badCol := 0, spareEn := false }) ∧
    ran (exec (.pltWexpWrite 0 (1 + 3 * 8)) on) (fun t => (t.plot 0).wexp == { en := true } && (t.plot 0).wexpPending) ∧
    ran (exec (.pltPflagsetWrite 0 63) (plot0 { pacer := { flags := [(63, 15)] } })) (fun t => (pac t).flagOvf) ∧
    ran (exec (.pltPflagsetWrite 0 63) on) (fun t => (pac t).flags.get 63 0 == 1) ∧
    ran (exec (.cntClr 0) (plot0 { cntSat := 3, cntMore := 4 })) (fun t => (t.plot 0).cntSat == 0 && (t.plot 0).cntMore == 0) ∧
    ran (exec (.pcntctlClr 0) (run1 (ctl 0))) (fun t => (pac t).pcnt == List.replicate 11 0) := by decide +kernel

theorem test_retired_plot :
    { on with ras := { plotSt := [(5, .retired)] } }.plotWritable 5 = false ∧
    ran (exec (.pltPflagsetWrite 5 0) { on with ras := { plotSt := [(5, .retired)] } }) (fun t => (t.plot 5).pacer.flags == []) := by
  decide +kernel

/-- A spare mapping waits while the Pacer runs and comes into force when it stops (R40). -/
theorem test_spare_mapping :
    ran (exec (.pltBspareWrite 0 0 3 (0x8000 + 1023)) (plot0 { furrows := [{ words := [(1027 * 64, 9)] }, {}, {}, {}] })) (fun t =>
      ((t.plot 0).furrow 0).spares.get? 3 == some (1023, true) && ((t.plot 0).furrow 0).words == [] && ((t.plot 0).furrow 0).sparesNext == []) ∧
    ran (exec (.pltBspareWrite 0 0 3 (0x8000 + 1023)) (run1 0)) (fun t =>
      ((t.plot 0).furrow 0).spares == [] && ((t.plot 0).furrow 0).sparesNext == [(3, 1023, true)]) ∧
    ran (exec (.drainComplete 0 []) (plot0 {
      pacer := { st := .draining }, furrows := [{ sparesNext := [(3, 1023, true)] }, {}, {}, {}] })) (fun t =>
      ((t.plot 0).furrow 0).spares.get? 3 == some (1023, true) && (pac t).st == .stopped) ∧
    ran (exec (.pltRsvrepentWrite 0 (512 + 511) []) (plot0 { pacer := { st := .running }, repSel := 1023 })) (fun t =>
      (t.plot 0).repNext == [(1023, 511, true)]) := by decide +kernel

/-! ### The vector unit -/

/-- A vector-op descriptor (R116) of one row position. -/
def vx (op : Nat) (inFmt outFmt : Nat := 7) (fmask : Nat := 1) (keep : Nat := 0) (a : Nat := 0) (b : Nat := 1024)
    (d : Nat := 2048) (e : Nat := 4096) (sa sb : Nat := 0x3F800000) (brow : Nat := 1) : List Byte :=
  pack [(4, op + inFmt * 2 ^ 8 + outFmt * 2 ^ 12 + fmask * 2 ^ 16 + keep * 2 ^ 20), (4, 1 + brow * 2 ^ 12), (4, a),
    (4, b), (4, d), (4, e), (4, sa), (4, sb)]

/-- Plot 0 is about to run an operation: its Reservoir holds 2.0 at 0 and 3.0 at 1,024, its Basin 0 holds 2.0 in row 1,
column 0, and 0.5 in row 2, column 63, with a NaN tag there. -/
def vec (desc : List Byte) : State := plot0 {
  pacer := { st := .running, work := [{ vec := true }] }, vecQ := [{ desc }],
  resv := Mem.write (Mem.write [] 0 (leBytes 4 0x40000000)) 1024 (leBytes 4 0x40400000),
  furrows := [{ words := [(64, 0x40000000), (191, 0x3F000000)], tags := [191] }, {}, {}, {}] }

/-- The word at an address of Plot 0's Reservoir. -/
def at0 (s : State) (a : Nat) : Nat := (s.plot 0).resv.le a 4

/-- Each formula on A = 2.0, B = 3.0, SA = 2.0 and SB = 1.0 (R117), with the operation at the head and ready; its entry no
longer waits for it. -/
theorem test_vector_formulas :
    [(Instr.add 0 {}, 2, 0x40A00000), (.mul 0 {}, 3, 0x40C00000), (.max 0 {}, 4, 0x40400000),
     (.axpby 0 {}, 5, 0x40E00000), (.exp2 0 {}, 6, 0x42000000), (.log2 0 {}, 7, 0x3F800000), (.rcp 0 {}, 8, 0x3F000000),
     (.rsqrt 0 {}, 9, 0x3F3504F3), (.convert 0 {}, 10, 0x40000000), (.rowscale 0 {}, 12, 0x40C00000),
     (.fillc 0 {}, 16, 0x40000000)].all
      (fun e => let v := vx e.2.1 (sa := 0x40000000)
        decide ((vec v).atVector 0 { desc := v } (parseVx v) []) && (parseVx v).op == e.2.1 && (parseVx v).count == 1 &&
        ran (exec e.1 (vec v)) (fun t => at0 t 2048 == e.2.2)) = true ∧
    ran (exec (.add 0 {}) (vec (vx 2))) (fun t => (t.plot 0).vecQ == [] && (pac t).work.all (fun w => !w.vec)) = true := by decide +kernel

/-- A result is converted to OUT_FMT: 5.0 in BF16. -/
theorem test_vector_converts : ran (exec (.add 0 {}) (vec (vx 2 7 0))) (fun t => (t.plot 0).resv.le 2048 4 == 0x40A0) = true := by
  decide +kernel

/-- An operation with reserved data in its operands runs all the same, and one that reads a Basin row still to be written
waits (R38). -/
theorem test_vector_waits : basinReady ((vec (vx 1)).plot 0) { desc := vx 1 } (parseVx (vx 1)) = true ∧
    (let s := (vec (vx 1)).onPlot 0 (fun x =>
      { x with streams := [{ rows := 1, mask := 1, base := 1 }], vecQ := [{ seq := 1, desc := vx 1 }] })
     basinReady (s.plot 0) { seq := 1, desc := vx 1 } (parseVx (vx 1)) = false ∧
     ran (exec (.drain 0 {}) s) (fun t => (t.plot 0).vecQ.length == 1)) := by decide +kernel

theorem test_drain : (vec (vx 1)).atVector 0 { desc := vx 1 } (parseVx (vx 1)) [] ∧
    ran (exec (.drain 0 {}) (vec (vx 1))) (fun t => at0 t 2048 == 0x40400000) ∧
    ran (exec (.drain 0 {}) (vec (vx 1 9 0 1 1))) (fun t => at0 t 2048 == 0 && at0 t (2048 + 63 * 8) == 0x3F000000) := by
  decide +kernel

theorem test_split : (vec (vx 11)).atVector 0 { desc := vx 11 } (parseVx (vx 11)) [] ∧
    ran (exec (.split 0 {}) (vec (vx 11))) (fun t => at0 t 2048 == 0x4000 && at0 t 4096 == 0) := by decide +kernel

/-- 2.0 × 3.0 + 2.0. -/
theorem test_rescale : (vec (vx 13)).atVector 0 { desc := vx 13 } (parseVx (vx 13)) [] ∧
    ran (exec (.rescaleAcc 0 {}) (vec (vx 13))) (fun t => at0 t 2048 == 0x41000000) := by decide +kernel

/-- The tag of row 2, column 63 is bit 63 of the row's 256. -/
theorem test_tagread : (vec (vx 15 (brow := 2))).atVector 0 { desc := vx 15 (brow := 2) } (parseVx (vx 15 (brow := 2))) [] ∧
    ran (exec (.tagread 0 {}) (vec (vx 15 (brow := 2)))) (fun t => (t.plot 0).resv.le 2048 32 == 2 ^ 63) := by decide +kernel

/-- With the old maximum 2.0 and the old sum 3.0 over scores 2.0 and 63 zeros: D holds 1.0 and quarters, A 2.0, B
3.0 + 1.0 + 63 × 0.25 = 19.75, E 1.0. -/
theorem test_softmax : (vec (vx 14)).atVector 0 { desc := vx 14 } (parseVx (vx 14)) [] ∧
    ran (exec (.softmaxBlock 0 {}) (vec (vx 14))) (fun t => at0 t 2048 == 0x3F800000 && at0 t 2052 == 0x3E800000 &&
      at0 t 0 == 0x40000000 && at0 t 1024 == 0x419E0000 && at0 t 4096 == 0x3F800000) := by decide +kernel

/-- A residue fault of lane 0: its result flows on (R477). -/
theorem test_lane_fault :
    ran (exec (.fillc 0 { lane := some ⟨0, 0, 5⟩ }) (vec (vx 16))) (fun t => at0 t 2048 == 5 && at0 t 2052 == 0x3F800000) = true := by
  decide +kernel


/-- A NaN that LOG2 or SPLIT reads passes with no cause (R63, R72, R77); ADD's is recorded (R73). -/
theorem test_nan_propagates :
    (let nan (op : Nat) := (vec (vx op)).onPlot 0 (fun x => { x with resv := x.resv.write 0 (leBytes 4 0x7FC00000) })
     ran (exec (.log2 0 {}) (nan 7)) (fun t =>
       at0 t 2048 == 0x7FC00000 && !(t.plot 0).numev.valid) ∧
     ran (exec (.split 0 {}) (nan 11)) (fun t => at0 t 2048 == 0x7FC0 && at0 t 4096 == 0x7FC0 && !(t.plot 0).numev.valid) ∧
     ran (exec (.add 0 {}) (nan 2)) (fun t => at0 t 2048 == 0x7FC00000 && (t.plot 0).numev.valid)) := by decide +kernel

/-! ### Inboxes, the mesh and the Plot DMA -/

/-- Inbox 3 of Plot 0: four rows of 128 bytes at Reservoir byte 128. -/
def inbox (f : Inbox → Inbox := id) : State := plot0 { pacer := {
  inboxes := [{}, {}, {}, f { base := 1, cap := 4, pitch := 1, srcDevice := 9, srcPlot := 255, srcOutbox := 3 }] } }

/-- Inbox 3 of Plot 0. -/
def inbox3 (s : State) : Inbox := (pac s).inbox 3

/-- An append of as many rows as there is room for, one of too many, and one of another row length. -/
theorem test_append_reserve : (inbox3 inbox).matches false 4 128 = true ∧ (inbox3 inbox).matches false 4 256 = false ∧
    ran (exec (.inboxAppendReserve 0 3 false 4 128 7) inbox) (fun t => (inbox3 t).resv ==
      [{ tag := 7, units := 4, slot := false, rowBytes := 128, start := 0 }]) ∧
    ran (exec (.inboxAppendReserve 0 3 false 5 128 7) inbox) (fun t => (inbox3 t).resv == [] && (inbox3 t).overrun
      && (pac t).inboxOvr && t.host.recs.head?.map (·.type) == some 4) ∧
    ran (exec (.inboxAppendReserve 0 3 false 1 256 7) inbox) (fun t => t == inbox) := by decide +kernel

/-- A finished append is present once every earlier one has finished. -/
theorem test_append_complete :
    (let b : Inbox := { base := 1, cap := 4, pitch := 1, resv := [{ tag := 7, units := 1, rowBytes := 128, landed := [(0, 128)] }] }
     b.gaps (b.resv.headD {}) = [] ∧
     ran (exec (.inboxAppendComplete 0 3 7) (inbox (fun _ => b))) (fun t => (inbox3 t).present == 1 && (inbox3 t).arrivals == [(0, 1)])) ∧
    (let b : Inbox := { base := 1, cap := 4, pitch := 1, resv := [{ tag := 6, units := 1, rowBytes := 128 },
       { tag := 7, units := 1, rowBytes := 128, start := 1, landed := [(0, 128)] }] }
     ran (exec (.inboxAppendComplete 0 3 7) (inbox (fun _ => b))) (fun t => (inbox3 t).present == 0
       && (inbox3 t).resv.map (·.done) == [false, true])) := by decide +kernel

/-- An open batch of 3 rows from ring row 2 of 4, ended by the BATCHEND of issue number 5. -/
def batch : State := (inbox (fun b => { b with head := 2, present := 4, arrivals := [(1, 2), (8, 2)] })).onPlot 0 (fun x =>
  x.onPacer (fun q => { q with batchIb := some 3, batchB := 3, deferred := [(5, none)], seq := 6 }))

theorem test_batchend : (pac batch).doneBefore 5 = true ∧
    ran (exec (.batchendEffect 0) batch) (fun t => (inbox3 t).head == 1 && (inbox3 t).present == 1
      && (inbox3 t).arrivals == [(8, 1)] && (pac t).batchIb.isNone && (pac t).deferred == []) ∧
    (let s := batch.onPlot 0 (fun x => x.onPacer (fun q => { q with work := [{ seq := 4, vec := true }] }))
     (pac s).doneBefore 5 = false ∧ ran (exec (.batchendEffect 0) s) (fun t => t == s)) := by decide +kernel

/-- An open slot is freed with one credit to outbox 3 of Plot 255 of device 9; with none open nothing is sent. -/
theorem test_slotfree :
    (let s := (inbox (fun b => { b with openSlots := 1 })).onPlot 0 (fun x => x.onPacer (fun q => { q with deferred := [(0, some 3)] }))
     ran (exec (.slotfreeEffect 0) s) (fun t => (inbox3 t).openSlots == 0 &&
       (t.router.injQ.get (injKey 5 16) []).map (fun k => (k.op, k.dst, k.arg)) == [(9, 9, 255 + 3 * 256)])) ∧
    (let s := inbox.onPlot 0 (fun x => x.onPacer (fun q => { q with deferred := [(0, some 3)] }))
     ran (exec (.slotfreeEffect 0) s) (fun t => t.router.injQ == [] && (pac t).deferred == [])) := by decide +kernel

/-- A complete entry raises local flag 63, or readiness flag 63 of its logical Plot 0, whose bit was set. -/
theorem test_entry_complete :
    ran (exec (.entryComplete 0 2) (plot0 { pacer := { work := [{ seq := 2, raise := 128 + 63 }], flags := [(63, 14)] } })) (fun t =>
      (pac t).flags.get 63 0 == 15 && (pac t).work == [] && !(pac t).flagOvf) = true ∧
    ran (exec (.entryComplete 0 2) { plot0 { pacer := { work := [{ seq := 2, raise := 192 + 63 }] } } with
      relay := { rdy := [(63, 1)] } }) (fun t => t.relay.rdy.get 63 0 == 1 && (pac t).flagOvf) = true ∧
    ran (exec (.entryComplete 0 2) (plot0 { pacer := { work := [{ seq := 2 }] } })) (fun t => (pac t).work == []) = true := by
  decide +kernel

/-- The mesh holds a message. -/
def meshes (ms : List MeshMsg) (x : Plot := {}) : State := { plot0 x with mesh := ms }

/-- A write of the last word of Plot 0's Reservoir, a read of it, and an access to an unmapped Plot. -/
theorem test_mesh_requests :
    (let s := meshes [{ plot := 0, seq := 1, write := true, addr := BitVec.ofNat 48 (rsvAddr 0 0xFFFFF8), len := 8, data := List.replicate 8 5 }]
     (s.meshAt 0 false).isSome = true ∧ s.memWaits (rsvAddr 0 0xFFFFF8) 8 = false ∧
     ran (exec (.meshReq 0 []) s) (fun t => (t.plot 0).resv.le 0xFFFFF0 16 == 0x05050505050505050000000000000000
       && t.mesh.map (fun m => (m.rsp, m.err)) == [(true, none)])) ∧
    ran (exec (.meshReq 0 []) (meshes [{ addr := BitVec.ofNat 48 (rsvAddr 0 0xFFFFF8), len := 8 }]
      { resv := Mem.write [] 0xFFFFFF [7] })) (fun t => t.mesh.map (·.data) == [[0, 0, 0, 0, 0, 0, 0, 7]]) = true ∧
    (let s := { meshes [{ addr := BitVec.ofNat 48 (rsvAddr 255 0), len := 8 }] with ras := { unmapped := [255] } }
     s.phys? 255 = none ∧ ran (exec (.meshReq 0 []) s) (fun t => t.mesh.map (·.err) == [some 2])) := by decide +kernel

/-- A request to HBM waits until HBM is up. -/
theorem test_mesh_waits :
    (meshes [{ addr := 0, len := 8 }]).memWaits 0 8 = true ∧
    ran (exec (.meshReq 0 []) (meshes [{ addr := 0, len := 8 }])) (fun t => t == meshes [{ addr := 0, len := 8 }]) := by
  decide +kernel

/-- A descriptor (R151): rows of `n` bytes, one row, from Reservoir byte 0 of Plot 0 to HBM byte 0. -/
def dmaDesc (n : Nat) (raise : Nat := 0) : List Byte :=
  leBytes 8 (rsvAddr 0 0) ++ leBytes 8 0 ++ leBytes 8 (n + 2 ^ 20) ++ leBytes 8 (raise * 2 ^ 19 + 2 ^ 28)

/-- Plot 0 has a transfer of n bytes. -/
def dma (n : Nat) (f : DmaCmd → DmaCmd := id) : Plot :=
  { dmaQ := [f { seq := 3, slot := 255, desc := dmaDesc n }], pacer := { work := [{ seq := 3, dma := true }] } }

/-- The answers to a transfer: an acknowledgement, an error and read data (which goes to the destination as a write). -/
theorem test_mesh_answers :
    (let s := meshes [{ rsp := true, plot := 0, seq := 3, write := true, len := 8 }] (dma 8 (fun c => { c with started := true, outWrites := 1 }))
     (s.dma? 0 3).isSome = true ∧ ran (exec (.meshRsp 0) s) (fun t => (t.dma? 0 3).map (fun c => (c.outWrites, c.bytes)) == some (0, 8))) ∧
    ran (exec (.meshRsp 0) (meshes [{ rsp := true, plot := 0, seq := 3, write := true, len := 8, err := some 2 }]
      (dma 8 (fun c => { c with started := true, outWrites := 1 })))) (fun t => (t.plot 0).dErr && (t.plot 0).dErrCode == 2
        && (t.plot 0).dErrSlot == 255 && t.host.recs.head?.map (fun r => (r.type, r.cls)) == some (5, 4)) = true ∧
    ran (exec (.meshRsp 0) (meshes [{ rsp := true, plot := 0, seq := 3, len := 2, data := [1, 2] }]
      (dma 2 (fun c => { c with started := true, next := 2, outReads := 1 })))) (fun t =>
        t.mesh.map (fun m => (m.write, m.addr, m.data)) == [(true, 0, [1, 2])]) = true := by decide +kernel

/-- The start reads at most 2 KiB at a time; the end counts the bytes and raises a flag on the Plot for an HBM destination. -/
theorem test_dma_transfer :
    ran (exec (.dmaTransferStart 0) (plot0 (dma 4097))) (fun t => t.mesh.map (fun m => (m.addr.toNat, m.len)) ==
      [(rsvAddr 0 0, 2048), (rsvAddr 0 2048, 2048), (rsvAddr 0 4096, 1)]) = true ∧
    ran (exec (.dmaTransferComplete 0) (plot0 (dma 8 (fun c => { c with started := true, next := 8, bytes := 8 })))) (fun t =>
      (t.plot 0).dmaQ == [] && (t.plot 0).dBytes == 8 && (pac t).work.all (fun w => !w.dma)) = true ∧
    ran (exec (.dmaTransferComplete 0) (plot0 (dma 8 (fun c =>
      { c with started := true, next := 8, bytes := 8, desc := dmaDesc 8 (128 + 63) })))) (fun t =>
        (pac t).flags.get 63 0 == 1) = true ∧
    ran (exec (.dmaTransferComplete 0) (plot0 (dma 8 (fun c => { c with started := true, next := 8, outWrites := 1 })))) (fun t =>
      (t.plot 0).dmaQ.length == 1) = true := by decide +kernel

/-! ### HBM -/

/-- HBM is up and stack 23 is x. -/
def hbm (x : Stack := {}) : State := { up with boot := { up.boot with hbmReady := true }, stks := [(23, x)] }

/-- Stack 23. -/
def st23 (s : State) : Stack := s.stack 23

/-- Stack byte 7,680 × 8,388,607 + 7,679 is the last of the stack; byte 256 is byte 0 of logical channel 1 (R160). -/
theorem test_stack_address : lchOf 256 = 1 ∧ caOf 256 = 0 ∧ lchOf (7680 * 8388607 + 7679) = 29 ∧
    caOf (7680 * 8388607 + 7679) = 2 ^ 31 - 1 := by decide

/-- A whole write, a partial write and a read of the unit at stack byte 256; channel 1 was in power-down. -/
theorem test_hbm_access : (hbm).unitOpen 23 256 = true ∧
    ran (exec (.hbmWrite 23 256 (List.replicate 32 9)) (hbm { poison := [2 ^ 26], asleep := [1, 2] })) (fun t =>
      (st23 t).mem.le (2 ^ 31 + 31) 2 == 9 && (st23 t).poison == [] && (st23 t).asleep == [2]) ∧
    ran (exec (.hbmPartialWrite 23 287 [4] .clean) hbm) (fun t => (st23 t).mem.le (2 ^ 31 + 30) 3 == 0x400) ∧
    ran (exec (.hbmPartialWrite 23 256 [4] .clean) (hbm { poison := [2 ^ 26] })) (fun t =>
      (st23 t).mem == [] && (st23 t).partialPoison) ∧
    ran (exec (.hbmDemandRead 23 287 .clean none) (hbm { mem := Mem.write [] (2 ^ 31) [1, 2] })) (fun t =>
      (st23 t).rdData.take 3 == [1, 2, 0] && !(st23 t).rdPoison) := by decide +kernel

/-- A single-bit error is counted; an uncorrectable one poisons the unit and posts MEM_UE of class 4; before HBM is up
nothing happens. -/
theorem test_hbm_errors :
    ran (exec (.hbmDemandRead 23 256 .single none) hbm) (fun t => (st23 t).chCe.get 1 0 == 1 && !(st23 t).ue) = true ∧
    ran (exec (.hbmDemandRead 23 256 .uncorrectable none) hbm) (fun t => (st23 t).ue && (st23 t).poison == [2 ^ 26] &&
      (t.host.recs.head?.map fun r => (r.type, r.cls, r.index, r.payload.headD 0)) == some (0x81, 4, 23, 3)) = true ∧
    up.unitOpen 23 256 = false ∧ ran (exec (.hbmDemandRead 23 256 .clean none) up) (fun t => t == up) := by decide +kernel

/-- The scrub wraps; the sixteenth failure in a row is fatal; 85 and 82 °C bound REFRESH_2X. -/
theorem test_hbm_upkeep :
    ran (exec (.patrolScrubRead 23 []) (hbm { scrubPos := BitVec.allOnes 26 })) (fun t =>
      (st23 t).scrubPos == 0 && (st23 t).scrubPasses == 1) = true ∧
    ran (exec (.dieLinkReplay 23 true) (hbm { retrySeq := 14 })) (fun t => (st23 t).retrySeq == 15 && !t.ras.fatal) = true ∧
    ran (exec (.dieLinkReplay 23 true) (hbm { retrySeq := 15 })) (fun t => t.ras.fatal && t.ras.fatalCause == 2
      && t.ras.fatalIndex == 23) = true ∧
    ran (exec (.dieLinkReplay 23 false) (hbm { retrySeq := 15, linkRetry := 255 })) (fun t =>
      (st23 t).retrySeq == 1 && (st23 t).linkRetry == 255) = true ∧
    ran (exec (.hbmRefresh 23) hbm) (fun t => (st23 t).refreshes == 1) = true ∧
    ran (exec (.hbmTempThreshold 23 85) hbm) (fun t => (st23 t).refresh2x && !(st23 t).throttle) = true ∧
    ran (exec (.hbmTempThreshold 23 82) (hbm { refresh2x := true })) (fun t => !(st23 t).refresh2x) = true ∧
    ran (exec (.hbmTempThreshold 23 83) (hbm { refresh2x := true })) (fun t => (st23 t).refresh2x) = true := by decide +kernel

/-- A channel sleeps in IDLE; initialisation marks a bad reserve channel, but no channel in service. -/
theorem test_hbm_idle_init :
    ran (exec (.hbmIdlePowerDown 23 29) { hbm with power := { st := .idle } }) (fun t => (st23 t).asleep == [29]) = true ∧
    ran (exec (.hbmInitComplete [(23, 31), (23, 0)]) { on with boot := { perst := false, hsDone := true } }) (fun t =>
      t.boot.hbmReady && (st23 t).failed == 0x80000000) = true := by decide +kernel

/-- A repair of physical channel 31's last row. -/
def ppr (st ch pc sid bg bank row : Nat) (s : State) : State :=
  asks 0x81 [(4, st), (4, ch), (4, pc), (4, sid), (4, bg), (4, bank), (4, row)] s

theorem test_ppr_command :
    (ppr 23 31 1 3 3 3 16383 hbm).carries .pcw 0x81 [23, 31, 1, 3, 3, 3, 16383] = some 7 ∧
    ran (exec (.hbmPpr .pcw 23 31 1 3 3 3 16383) (ppr 23 31 1 3 3 3 16383 hbm)) (fun t => status t == stAccepted
      && (st23 t).pprs.map (fun r => (r.phys, r.row)) == [(31, 16383)] && (st23 t).pprPhys == 31) ∧
    ran (exec (.hbmPpr .pcw 23 31 1 3 3 3 16384) (ppr 23 31 1 3 3 3 16384 hbm)) (fun t => status t == stRange) ∧
    ran (exec (.hbmPpr .pcw 23 31 1 3 3 3 16383) (ppr 23 31 1 3 3 3 16383 up)) (fun t => status t == stState) ∧
    ran (exec (.hbmPpr .pcw 23 31 1 3 3 3 16383) (ppr 23 31 1 3 3 3 16383 (hbm { pprs := [{ phys := 31 }] }))) (fun t => status t == stBusy) ∧
    ran (exec (.hbmPpr .pcw 23 31 1 3 3 3 16383) (ppr 23 31 1 3 3 3 16383 (hbm { pprUsed := [(31, 0x80000000)] }))) (fun t =>
      status t == stExhausted) ∧
    ran (exec (.hbmPpr .pcw 23 31 1 3 3 3 16383) (ppr 23 31 1 3 3 3 16383 (hbm { pprUsed := [(31, 0x7FFFFFFF)] }))) (fun t =>
      status t == stAccepted) := by decide +kernel

/-- The stages of a repair. -/
theorem test_ppr_stages :
    ran (exec (.pprDrainDone 23 31) (hbm { pprs := [{ phys := 31 }] })) (fun t => (st23 t).pprs.map (·.stage) == [.readRow]) = true ∧
    ran (exec (.pprRowReadDone 23 31 []) (hbm { pprs := [{ phys := 31, stage := .readRow }], mem := Mem.write [] (31 * 2 ^ 31) [6] }))
      (fun t => (st23 t).pprs.map (fun r => (r.stage, Mem.read r.held 0)) == [(.program, 6)]) = true ∧
    ran (exec (.pprProgramDone 23 31) (hbm { pprs := [{ phys := 31, stage := .program }] })) (fun t =>
      (st23 t).pprs.map (·.stage) == [.writeBack]) = true ∧
    ran (exec (.pprComplete 23 31) (hbm { pprs := [{ phys := 31, stage := .writeBack, dseq := 9 }] })) (fun t =>
      (st23 t).pprs == [] && (st23 t).pprUsed.get 31 0 == 1 && t.ras.pprFuse.get (23 * 32 + 31) 0 == 1 &&
      t.host.recs.any (fun r => r.type == 0x11 && r.dseq == 9)) = true := by decide +kernel

theorem test_spare_command :
    (asks 0x82 [(4, 23), (4, 29), (4, 32)] hbm).carries .pcw 0x82 [23, 29, 32] = some 7 ∧ (st23 hbm).reserve? = some 30 ∧
    ran (exec (.hbmSpare .pcw 23 29 32) (asks 0x82 [(4, 23), (4, 29), (4, 32)] hbm)) (fun t => status t == stAccepted
      && (st23 t).spare.map (fun c => (c.lch, c.target)) == some (29, 30) && (st23 t).spareRate == 32) ∧
    ran (exec (.hbmSpare .pcw 23 29 33) (asks 0x82 [(4, 23), (4, 29), (4, 33)] hbm)) (fun t => status t == stRange) ∧
    ran (exec (.hbmSpare .pcw 23 29 1) (asks 0x82 [(4, 23), (4, 29), (4, 1)] (hbm { offline := [29] }))) (fun t => status t == stState) ∧
    ran (exec (.hbmSpare .pcw 23 29 1) (asks 0x82 [(4, 23), (4, 29), (4, 1)] (hbm { spare := some {} }))) (fun t => status t == stBusy) ∧
    ran (exec (.hbmSpare .pcw 23 29 1) (asks 0x82 [(4, 23), (4, 29), (4, 1)] (hbm { failed := 0xC0000000 }))) (fun t =>
      status t == stExhausted) := by decide +kernel

/-- A copy of logical channel 29 onto channel 30: its last block, then its end. -/
def copying : Stack := { spare := some { lch := 29, target := 30, awake := true, dseq := 9 }, spareWm := 524287,
                         mem := Mem.write [] (29 * 2 ^ 31 + 524287 * 4096 + 4095) [8] }

theorem test_spare_copy :
    ran (exec (.spareTargetReady 23) (hbm { spare := some { lch := 29, target := 30 } })) (fun t =>
      (st23 t).spare.map (·.awake) == some true) = true ∧
    ran (exec (.spareBlockCopied 23 []) (hbm copying)) (fun t => (st23 t).spareWm == 524288
      && Mem.read (st23 t).mem (30 * 2 ^ 31 + 524287 * 4096 + 4095) == 8) = true ∧
    ran (exec (.spareBlockCopied 23 []) (hbm { copying with spare := some { lch := 29, target := 30, awake := true, paused := true } }))
      (fun t => (st23 t).spareWm == 524287) = true ∧
    ran (exec (.spareBlockCopied 23 []) (hbm { copying with pprs := [{ phys := 30 }] })) (fun t => (st23 t).spareWm == 524287) = true ∧
    ran (exec (.spareCopyComplete 23) (hbm copying)) (fun t => (st23 t).spare.isSome) = true ∧
    ran (exec (.spareCopyComplete 23) (hbm { copying with spareWm := 524288 })) (fun t => (st23 t).spare.isNone
      && (st23 t).physOf 29 == 30 && (st23 t).failed == 0x20000000 && t.host.recs.any (fun r => r.type == 0x11 && r.dseq == 9)) = true := by
  decide +kernel

theorem test_offline_command :
    (asks 0x83 [(4, 23), (4, 29)] hbm).carries .pcw 0x83 [23, 29] = some 7 ∧
    ran (exec (.hbmOffline .pcw 23 29) (asks 0x83 [(4, 23), (4, 29)] (hbm { failed := 0xC0000000 }))) (fun t => status t == stOk
      && (st23 t).offline == [29]) ∧
    ran (exec (.hbmOffline .pcw 23 29) (asks 0x83 [(4, 23), (4, 29)] hbm)) (fun t => status t == stState) ∧
    ran (exec (.hbmOffline .pcw 23 29) (asks 0x83 [(4, 23), (4, 29)] (hbm { pprs := [{ phys := 29 }] }))) (fun t => status t == stBusy) ∧
    ran (exec (.hbmOffline .pcw 23 30) (asks 0x83 [(4, 23), (4, 30)] hbm)) (fun t => status t == stRange) := by decide +kernel

/-! ### The Sluice and the commit controller -/

/-- Segment 0 of the Sluice of stack 23: two elements of HEAVYBALL in group 0 (LR and LSR 1.0, all else 0), W at HBM byte
8 Mi, its copy at 1 Mi. -/
def segment : List Byte := pack [(8, 2 ^ 13 + 2 * 2 ^ 18), (8, 0x800000), (8, 0x400000), (8, 0), (8, 0x100000), (8, 0), (8, 0), (8, 0)]

/-- Stack 23 takes it in an open step; the Segment Map stands at HBM byte 0 as it did when it was sampled. -/
def sluice (f : Sluice → Sluice := id) (c : Commit → Commit := id) : State :=
  { ((hbm { sluice := f { cur := { smapCount := 1, grpBase := 4096 }, smap := Mem.write [] 0 segment, vals := [(0, { active := true, lr := 0x3F800000, lsr := 0x3F800000 })] } }).hbmWrite 0 segment).getD on with
    commit := c { st := .open } }

/-- Stack 23's Sluice. -/
def sl (s : State) : Sluice := s.sluice 23

/-- The first block waits whole in the inlet: gradients 1.0 and 2.0. -/
def inlet : State := sluice (fun x => { x with inlet := [{ seg := 0, first := 0, elems := [(0x3F800000, false), (0x40000000, false)] }],
                                               tags := [(0, { recv := 2 })] })

/-- The elements that a segment takes are counted; the third is refused. -/
theorem test_element_arrive : sluice.decided = false ∧ (sluice.segTag 23 0).pend = false ∧
    sluice.segTakes 23 0 (readSeg 23 0 sluice).1 = true ∧
    ran (exec (.sluiceElementArrive 23 0 0 [(1, false), (2, false)]) sluice) (fun t => (t.segTag 23 0).recv == 2
      && !(sl t).inletErr && (sl t).inlet.map (·.elems.length) == [2]) ∧
    ran (exec (.sluiceElementArrive 23 0 0 [(1, false), (2, false), (3, false)]) sluice) (fun t => (t.segTag 23 0).recv == 2
      && (sl t).inletErr && t.commit.cause == 2) := by decide +kernel

/-- In VERDICT they belong to the next step. -/
theorem test_element_next :
    (sluice id (fun c => { c with st := .verdict })).decided = true ∧
    ran (exec (.sluiceElementArrive 23 0 0 [(1, false)]) (sluice id (fun c => { c with st := .verdict }))) (fun t =>
      (sl t).inlet.map (·.next) == [true] && (sl t).tags == []) := by decide +kernel

/-- HEAVYBALL with LR 1.0: W and M from a gradient of 2.0, with W 3.0 (R197). -/
theorem test_update_rule : (updateElem (parseSeg segment) (parseGrp []) { active := true, lr := 0x3F800000, lsr := 0x3F800000 } 0
      { fr := 0, fc := 0, sr := 0, usq := 0, size := 0 } 0x40000000 [0x40400000, 0] none).st = [0x3F800000, 0x40000000] := by
  decide +kernel

/-- The update: the block leaves the inlet and is counted; PEND is set. -/
theorem test_block_update : inlet.mayPass 23 0 ((sl inlet).inlet.headD {}) = true ∧
    inlet.updateWaits 23 ((sl inlet).inlet.headD {}) = false ∧
    ran (exec (.sluiceBlockUpdate 23 0 none) inlet) (fun t => (sl t).inlet == [] && (sl t).updCnt == 2
      && (t.segTag 23 0).pend) := by decide +kernel

theorem test_block_waits :
    (let s := inlet.onSegTag 23 0 (fun t => { t with hold := 1 })
     s.mayPass 23 0 ((sl s).inlet.headD {}) = false ∧ ran (exec (.sluiceBlockUpdate 23 0 none) s) (fun t => (sl t).inlet.length == 1)) := by
  decide +kernel

/-- A held block is dropped at SLC_HOLDWAIT; the evaluation ends; the pipe map comes into force. -/
theorem test_sluice_rest :
    ran (exec (.sluiceHoldTimeout 23 0) (sluice (fun x => { x with inlet := [{ heldFrom := some 5 }], tags := [(0, { hold := 1 })] }))) (fun t =>
      (sl t).inlet == [] && (sl t).holdErr && t.commit.cause == 16 && t.now == 100006) = true ∧
    ran (exec (.sluiceHoldTimeout 23 0) (sluice (fun x => { x with inlet := [{ heldFrom := some 5 }] }))) (fun t =>
      (sl t).inlet.length == 1) = true ∧
    ran (exec (.sluiceEvalComplete 23) (sluice (fun x => { x with evalBusy := true }))) (fun t => !(sl t).evalBusy) = true ∧
    ran (exec (.pipemapWrite 23 7) sluice) (fun t => (sl t).pipeNext == some (3, true)) = true ∧
    ran (exec (.pipemapApply 23) (sluice (fun x => { x with pipeNext := some (3, true) }))) (fun t => (sl t).pipeFailed == 3
      && (sl t).pipeSpare && (t.host.recs.head?.map (·.type)) == some 0x87) = true := by decide +kernel

/-- The controller in a state, with Starter entry 255 dispatched for an event of a kind. -/
def event (kind : Nat) (f : State → State := id) (v : Ev → Ev := id) : State :=
  { f up with starter := { evs := [(255, v { valid := true, status := 1, kind := BitVec.ofNat 8 kind, held := some [], time := 7 })] } }

/-- Entry 255's STATUS. -/
def evStatus (s : State) : Nat := (s.ev 255).status.toNat

/-- The commit controller in a state. -/
def inCtl (st : CtlSt) (result : Option (List (BitVec 32)) := none) (s : State) : State := { s with commit := { st, result, step := 5, cause := 1 } }

theorem test_event_ready : let s := event 6 (inCtl .open)
    s.atEvent 255 6 (s.ev 255) [] (s.advanceTo 7) := by decide +kernel

theorem test_verdict :
    ran (exec (.verdict 255 []) (event 6 (inCtl .open))) (fun t => t.commit.st == .verdict && t.commit.ownBad && evStatus t == 2
      && t.now == 7) = true ∧
    ran (exec (.verdict 255 []) (event 6 (inCtl .idle))) (fun t => t.commit.seqErr && evStatus t == 3) = true := by decide +kernel

/-- COMMIT with a good, a negative-zero and a bad result, without one, in PENDING and in OPEN. -/
theorem test_commit :
    ran (exec (.commit 255 []) (event 7 (inCtl .verdict (some [0, 0x40800000])))) (fun t => t.commit.step == 6
      && t.commit.stepN == some 1007 && t.commit.last == 1 && t.commit.clipNorm.get 0 0 == 0x40000000) = true ∧
    ran (exec (.commit 255 []) (event 7 (inCtl .verdict (some [0x80000000])))) (fun t => t.commit.step == 6) = true ∧
    ran (exec (.commit 255 []) (event 7 (inCtl .verdict (some [0x3F800000])))) (fun t => t.commit.step == 5
      && t.commit.stepN == some 4007 && t.commit.last == 2) = true ∧
    ran (exec (.commit 255 []) (event 7 (inCtl .verdict))) (fun t => t.commit.st == .pending && evStatus t == 2) = true ∧
    ran (exec (.commit 255 []) (event 7 (inCtl .pending))) (fun t => t.commit.seqErr && evStatus t == 3) = true ∧
    ran (exec (.commit 255 []) (event 7 (inCtl .open))) (fun t => t.commit.lastCause == 0x201 && t.commit.step == 5) = true ∧
    ran (exec (.commit 255 []) (event 7 (inCtl .idle))) (fun t => evStatus t == 3 && !t.commit.seqErr) = true := by decide +kernel

theorem test_rollback :
    ran (exec (.rollback 255 []) (event 8 (inCtl .verdict))) (fun t => t.commit.step == 5 && t.commit.st == .open
      && evStatus t == 2) = true ∧
    ran (exec (.rollback 255 []) (event 8 (inCtl .pending))) (fun t => t.commit.seqErr) = true ∧
    ran (exec (.rollback 255 [.starter 3]) (event 8 (inCtl .verdict))) (fun t => evStatus t == 4 && t.commit.st == .verdict) = true := by decide +kernel

/-- A result is held in VERDICT and applied at once in PENDING; STEP_N goes high again. -/
theorem test_verdict_result :
    ran (exec (.verdictResult [1, 2]) (inCtl .verdict none up)) (fun t => t.commit.result == some [1, 2]) = true ∧
    ran (exec (.verdictResult [0, 0]) (inCtl .pending none up)) (fun t => t.commit.late && t.commit.step == 6) = true ∧
    ran (exec (.verdictResult [0]) (inCtl .open none up)) (fun t => t.commit.result.isNone) = true ∧
    ran (exec .stepNRelease { up with commit := { stepN := some 1000 } }) (fun t => t.commit.stepN.isNone && t.now == 1000) = true := by
  decide +kernel

theorem test_veto : (asks 0x54 []).carries .pcw 0x54 [] = some 7 ∧
    ran (exec (.veto .pcw) (asks 0x54 [])) (fun t => status t == 0 && t.commit.veto && t.commit.cause == 0x100) ∧
    ran (exec (.slcCvetoWrite 1) (inCtl .pending none up)) (fun t => t.commit.nextCause == 0x100 && t.commit.cause == 1) := by decide +kernel

theorem test_plan_start : (asks 0x51 [(4, 1), (4, 1), (4, 2 ^ 31 - 1)]).carries .pcw 0x51 [1, 1, 2 ^ 31 - 1] = some 7 ∧
    ran (exec (.planStart .pcw 1 1 (2 ^ 31 - 1)) (asks 0x51 [(4, 1), (4, 1), (4, 2 ^ 31 - 1)])) (fun t => status t == 0
      && t.commit.st == .open && t.commit.mode && t.commit.stalePolicy && t.commit.step == BitVec.allOnes 31) ∧
    ran (exec (.planStart .pcw 1 1 (2 ^ 31)) (asks 0x51 [(4, 1), (4, 1), (4, 2 ^ 31)])) (fun t => status t == stRsvEnc) ∧
    ran (exec (.planStart .pcw 0 0 0) (asks 0x51 [(4, 0), (4, 0), (4, 0)] (inCtl .open none up))) (fun t => status t == stState) := by
  decide +kernel

theorem test_plan_end :
    ran (exec (.planEnd .pcw) (asks 0x53 [] (inCtl .open none up))) (fun t => status t == 0 && t.commit.st == .idle) = true ∧
    ran (exec (.planEnd .pcw) (asks 0x53 [])) (fun t => status t == stState) = true := by decide +kernel

theorem test_resolve : (asks 0x52 [(4, 0)]).carries .pcw 0x52 [0] = some 7 ∧
    ran (exec (.resolveCommit .pcw) (asks 0x52 [(4, 0)] (inCtl .pending none up))) (fun t => status t == 0 && t.commit.step == 6
      && t.commit.last == 3) ∧
    ran (exec (.resolveCommit .pcw) (asks 0x52 [(4, 0)] { up with commit := { st := .pending, ownBad := true } })) (fun t =>
      status t == stVerdictBad) ∧
    ran (exec (.resolveCommit .pcw) (asks 0x52 [(4, 0)])) (fun t => status t == stState) ∧
    ran (exec (.resolveRollback .pcw) (asks 0x52 [(4, 1)] (inCtl .pending none up))) (fun t => status t == 0 && t.commit.step == 5) ∧
    ran (exec (.resolveRollback .pcw) (asks 0x52 [(4, 1)])) (fun t => status t == stState) := by decide +kernel

/-- TAG_READ of a segment with PEND in staged mode: STEP 6, parity 0, PEND. -/
theorem test_tag_read : (asks 0x55 [(4, 23), (4, 0)]).carries .pcw 0x55 [23, 0] = some 7 ∧
    ran (exec (.tagRead .pcw 23 0) (asks 0x55 [(4, 23), (4, 0)] (sluice (fun x => { x with tags := [(0, { pend := true, recv := 2 })] })
      (fun c => { c with mode := true, step := 5 })))) (fun t => status t == 0 &&
        leNat ((result t).take 8) == 6 + 2 ^ 32 + 2 * 2 ^ 41) ∧
    ran (exec (.tagRead .pcw 23 262144) (asks 0x55 [(4, 23), (4, 262144)])) (fun t => status t == stRange) := by decide +kernel

/-- SLUICE_CONFIG for stack 23 of one segment and no factor, and the largest counts while the seal is not open. -/
def slCfg (n f : BitVec 32) : SluiceConfig := { stks := 0x800000, smapBase := 64, smapCount := n, grpBase := 128, factBase := 192,
                                                factCount := f, ledger := 0xFFFF000000000040, holdWait := 9 }

/-- Its parameters. -/
def slPars (n f : Nat) : List (Nat × Nat) :=
  [(4, 0x800000), (8, 64), (4, n), (8, 128), (8, 192), (4, f), (8, 0xFFFF000000000040), (4, 9)]

theorem test_sluice_config :
    (asks 0x50 (slPars 262144 1023)).carries .pcw 0x50 [0x800000, 64, 262144, 128, 192, 1023, 0xFFFF000000000040, 9] = some 7 ∧
    ran (exec (.sluiceConfig .pcw (slCfg 1 0)) (asks 0x50 (slPars 1 0))) (fun t => status t == 0 && (sl t).cfg ==
      { smapCount := 1, smapBase := 64, grpBase := 128, factBase := 192, ledgerBase := 64, ledgerDepth := 0xFFFF, holdWait := 9 } &&
      (t.sluice 22).cfg == {}) ∧
    ran (exec (.sluiceConfig .pcw (slCfg 262144 1023)) (asks 0x50 (slPars 262144 1023) { up with cfgSeal := { st := .sealed } }))
      (fun t => status t == stState) := by
  decide +kernel

/-! ### The Starter -/

/-- A Starter entry (R232): an event of a kind at a time. -/
def evWord (kind : Nat) (time : Nat := 9) (pset : Nat := 0) (argA argB : Nat := 0) (per rept : Nat := 0) (flags : Nat := 1) : Nat :=
  time + kind * 2 ^ 64 + flags * 2 ^ 80 + per * 2 ^ 96 + rept * 2 ^ 128 + pset * 2 ^ 144 + argA * 2 ^ 148 + argB * 2 ^ 160

/-- STARTER_WRITE of an entry at an index. -/
def writes (index word : Nat) (s : State := up) : State := asks 0x30 [(4, index), (32, word)] s

theorem test_starter_write : (writes 255 (evWord 1)).carries .pcw 0x30 [255, evWord 1] = some 7 ∧
    ran (exec (.starterWrite .pcw 255 (BitVec.ofNat 256 (evWord 1 9 7 4095 1 1000 65535))) (writes 255 (evWord 1 9 7 4095 1 1000 65535)))
      (fun t => status t == 0 && t.ev 255 ==
        { time := 9, kind := 1, valid := true, period := 1000, rept := 65535, pset := 7, argA := 4095, argB := 1 }) ∧
    [(255, evWord 0, stRsvEnc), (255, evWord 16, stRsvEnc), (255, evWord 6 9 1, stRsvEnc), (255, evWord 1 9 0 0 2, stRsvEnc),
     (255, evWord 1 9 0 0 0 999 1, stRange), (255, evWord 1 9 0 0 0 1000 0, stRange), (256, evWord 1, stRange),
     (255, evWord 1 9 8, stOwner)].all (fun e =>
      ran (exec (.starterWrite .pcw (BitVec.ofNat 32 e.1) (BitVec.ofNat 256 e.2.1)) (writes e.1 e.2.1)) (fun t => status t == e.2.2)) ∧
    ran (exec (.starterWrite .pcw 255 (BitVec.ofNat 256 (evWord 1))) (writes 255 (evWord 1) (event 1))) (fun t =>
      status t == stDispatched) := by decide +kernel

theorem test_starter_cancel : (asks 0x31 [(4, 255)]).carries .pcw 0x31 [255] = some 7 ∧
    ran (exec (.starterCancel .pcw 255) (asks 0x31 [(4, 255)] (event 1 id (fun v => { v with held := none, status := 0 })))) (fun t =>
      status t == 0 && leNat ((result t).take 4) == 0 && (t.ev 255).status == 6 && !(t.ev 255).valid) ∧
    ran (exec (.starterCancel .pcw 255) (asks 0x31 [(4, 255)] (event 1))) (fun t => status t == stDispatched) ∧
    ran (exec (.starterCancel .pcw 255) (asks 0x31 [(4, 255)] (event 1 id (fun v => { v with owner := true })))) (fun t =>
      status t == stOwner) ∧
    ran (exec (.starterCancel .pcw 256) (asks 0x31 [(4, 256)])) (fun t => status t == stRange) := by decide +kernel

theorem test_starter_read : (asks 0x33 [(4, 255)]).carries .pcw 0x33 [255] = some 7 ∧
    ran (exec (.starterRead .pcw 255) (asks 0x33 [(4, 255)] (event 1))) (fun t => status t == 0 &&
      leNat ((result t).drop 16) % 2 ^ 88 == 7 + 2 ^ 64 + 2 ^ 72 + 2 ^ 80) ∧
    ran (exec (.starterRead .pcw 256) (asks 0x33 [(4, 256)])) (fun t => status t == stRange) := by decide +kernel

theorem test_pset_write : (asks 0x32 [(4, 7), (32, 2 ^ 255)]).carries .pcw 0x32 [7, 2 ^ 255] = some 7 ∧
    ran (exec (.psetWrite .pcw 7 (BitVec.ofNat 256 (2 ^ 255))) (asks 0x32 [(4, 7), (32, 2 ^ 255)])) (fun t => status t == 0 &&
      t.starter.psets.get 7 0 == BitVec.ofNat 256 (2 ^ 255)) ∧
    ran (exec (.psetWrite .pcw 8 1) (asks 0x32 [(4, 8), (32, 1)])) (fun t => status t == stOwner) ∧
    ran (exec (.psetWrite .pcw 16 1) (asks 0x32 [(4, 16), (32, 1)])) (fun t => status t == stRange) := by decide +kernel

/-- Entry 255 waits for 500 ns on set 7, which holds Plot 255. -/
def waiting (v : Ev) : State := { up with starter := { evs := [(255, v)], psets := [(7, BitVec.ofNat 256 (2 ^ 255))] } }

theorem test_dispatch :
    (∀ c ∈ (waiting { valid := true, kind := 1, time := 500, pset := 7 }).starter.evs,
      (waiting { valid := true, kind := 1, time := 500, pset := 7 }).starter.evs.get? c.1 = some c.2) ∧
    ran (exec (.starterDispatch 255) (waiting { valid := true, kind := 1, time := 500, pset := 7 })) (fun t => t.now == 100 &&
      evStatus t == 1 && (t.ev 255).held == some [(255, 255)]) ∧
    ran (exec (.starterDispatch 255) { waiting { valid := true, kind := 1, time := 500, pset := 7 } with ras := { plotMap := [(255, 271)] } })
      (fun t => (t.ev 255).held == some [(255, 271)]) ∧
    ran (exec (.starterDispatch 255) (waiting { valid := true, reqLock := true, kind := 1, time := 500 })) (fun t => evStatus t == 5 &&
      t.starter.cntRef == 1 && t.starter.sRef && (t.host.recs.head?.map fun r => r.type) == some 0x30) ∧
    ran (exec (.starterDispatch 255) (waiting { kind := 1 })) (fun t => t.starter.evs == [(255, { kind := 1 })]) := by decide +kernel

/-- An ended event that repeats goes on to the first TIME past now; the last repeat ends it. -/
theorem test_event_end :
    (let t := starterEnd 255 2 true { waiting { valid := true, kind := 1, time := 500, period := 1000, rept := 2, held := some [] } with
       clock := { ns := 2600 } }
     (t.ev 255).time = 3500 ∧ (t.ev 255).rept = 1 ∧ (t.ev 255).held = none ∧ t.starter.sLate = true) ∧
    (let t := starterEnd 255 4 false (waiting { valid := true, kind := 1, time := 500, held := some [] })
     (t.ev 255).status = 4 ∧ (t.ev 255).valid = false ∧ t.starter.cntSup = 1 ∧ (t.host.recs.head?.map (·.type)) = some 0x30) := by
  decide +kernel

/-- Every logical Plot has its own physical Plot. -/
theorem test_one_to_one : up.plotsOneToOne := by
  intro l m p h k
  simp [State.phys?, up, on, State.reset, Tbl.get] at h k
  omega

/-- An event of a kind on Plot 255, whose Pacer is q. -/
def plotEvent (kind : Nat) (q : Pacer) (v : Ev → Ev := id) : State :=
  { event kind id (fun w => v { w with held := some [(255, 255)] }) with plots := [(255, { pacer := q })] }

/-- Plot 255's Pacer. -/
def p255 (s : State) : Pacer := (s.plot 255).pacer

theorem test_run_events :
    [(255, 255)].Pairwise (fun (a b : Nat × Nat) => a.1 < b.1) ∧ ([(255, 255)].map (·.2) : List Nat).Nodup ∧
    (plotEvent 1 {}).atEvent 255 1 ((plotEvent 1 {}).ev 255) [(255, 255)] ((plotEvent 1 {}).advanceTo 7) ∧
    ran (exec (.runStart 255 []) (plotEvent 1 {} (fun v => { v with argA := 4095 }))) (fun t => (p255 t).st == .running
      && (p255 t).pc == 4095 && evStatus t == 2) ∧
    ran (exec (.runStart 255 []) (plotEvent 1 { startEntry := 9 } (fun v => { v with argB := 1 }))) (fun t => (p255 t).pc == 9) ∧
    ran (exec (.runStart 255 []) (plotEvent 1 { st := .draining })) (fun t => evStatus t == 3 && (p255 t).st == .draining) ∧
    ran (exec (.runStart 255 [(255, .bmc)]) (plotEvent 1 {})) (fun t => evStatus t == 4 && (p255 t).st == .stopped) ∧
    ran (exec (.runStart 255 []) { plotEvent 1 {} with power := { st := .retain } }) (fun t => evStatus t == 7) ∧
    ran (exec (.runStop 255 [] 0 []) (plotEvent 2 { st := .running })) (fun t => (p255 t).st == .draining && evStatus t == 2) ∧
    ran (exec (.runPause 255 [] 0) (plotEvent 3 { st := .running })) (fun t => (p255 t).drainTo == .toPaused && evStatus t == 2) ∧
    ran (exec (.runPause 255 [] 0) (plotEvent 3 {})) (fun t => evStatus t == 3) ∧
    ran (exec (.runResume 255 []) (plotEvent 4 { st := .numericHalt })) (fun t => (p255 t).st == .running) := by decide +kernel

/-- POWER_STATE into RETAIN, and refused while a Pacer runs; POWER_CAP, CLOCK_CEIL on island 15, and TELEMETRY. -/
theorem test_power_events : up.roleUp 2 = true ∧ up.pwrOk .retain = true ∧
    ran (exec (.starterPowerState 255 []) (event 9 id (fun v => { v with argA := 3 }))) (fun t => t.power.busy
      && t.power.target == .retain && t.power.reqAt == 7 && evStatus t == 2) ∧
    ran (exec (.starterPowerState 255 []) (plotEvent 9 { st := .running } (fun v => { v with argA := 3 }))) (fun t =>
      t.power.refused && evStatus t == 3) ∧
    ran (exec (.starterPowerState 255 [.pcw]) (event 9)) (fun t => evStatus t == 4) ∧
    ran (exec (.starterPowerCap 255) (event 10 id (fun v => { v with argA := 4095 }))) (fun t => t.power.capStr == 4095) ∧
    ran (exec (.starterClockCeil 255) (event 11 id (fun v => { v with argA := 700, argB := 0x8000 }))) (fun t =>
      t.power.islands.map (·.ceilStr) == List.replicate 15 0 ++ [700]) ∧
    ran (exec (.starterTelemetry 255) (event 15 id (fun v => { v with argA := 5 }))) (fun t => t.power.snaps.map (·.1) == [7]) ∧
    ran (exec (.starterTelemetry 255) { event 15 with power := { snaps := List.replicate 16 (0, []) } }) (fun t =>
      evStatus t == 3 && t.power.snaps.length == 16) := by decide +kernel

/-! ### Time and power -/

/-- The timekeeper is c. -/
def timed1 (c : Clock) : State := { up with clock := c }

theorem test_reference :
    ran (exec (.paceRefChange false) (timed1 { role := 1, refOk := true, lock := .locked })) (fun t => t.clock.lock == .holdover && !t.clock.refOk) = true ∧
    ran (exec (.paceRefChange true) (timed1 { role := 0 })) (fun t => t.clock.refOk && t.clock.lock == .freerun) = true ∧
    ran (exec .loadArm up) (fun t => t.clock.loadArm) = true := by decide +kernel

/-- An armed load equal to Stride Time is taken, one behind it refused; without one the offset of 3 ns past a period. -/
theorem test_sync_edge :
    ran (exec .paceSyncEdge (timed1 { role := 1, loadArm := true, ns := 5, load := 5 })) (fun t => t.clock.ns == 5 && !t.clock.loadArm
      && t.clock.lock == .acquire && t.clock.syncCap == 5 && t.clock.syncEdges == 1) = true ∧
    ran (exec .paceSyncEdge (timed1 { role := 1, loadArm := true, ns := 5, load := 4 })) (fun t => t.clock.loadRefused && t.clock.ns == 5) = true ∧
    ran (exec .paceSyncEdge (timed1 { role := 1, lock := .acquire, ns := 1000000003, good := 15 })) (fun t => t.clock.offset == 768
      && t.clock.lock == .locked) = true ∧
    ran (exec .paceSyncEdge (timed1 { role := 0, lock := .acquire, ns := 7 })) (fun t => t.clock.syncSeen && t.clock.offset == 0) = true ∧
    ran (exec .syncSeenLapse (timed1 { syncSeen := true, syncCap := 5, syncPeriod := 1 })) (fun t => t.now == 2000005 && !t.clock.syncSeen) = true ∧
    ran (exec .parentLossTimeout (timed1 { lock := .locked, lastAns := 9 })) (fun t => t.now == 1000009 && t.clock.lock == .holdover
      && t.clock.onAlt && t.clock.parentLost) = true ∧
    ran (exec .parentLossTimeout (timed1 { lock := .freerun })) (fun t => t == timed1 { lock := .freerun }) = true := by decide +kernel

/-- A follower of link 17, which is UP. -/
def follower (c : Clock → Clock := id) : State :=
  { timed1 (c { parent := 17, masterDev := 3, masterGen := 4 }) with links := [(17, { st := .up })] }

theorem test_time_request : 17 ∈ follower.askLinks ∧ (follower.link 17).st = .up ∧
    ran (exec .timingRequestTimer (follower (fun c => { c with reqSent := some 7 }))) (fun t => t.now == 50007 &&
      t.clock.reqSent == some 50007 && (t.link 17).localQ.map (fun k => (k.cls, k.op)) == [(5, 0xB)]) ∧
    ran (exec .timingRequestTimer (follower (fun c => { c with role := 1 }))) (fun t => (t.link 17).localQ == []) := by decide +kernel

/-- The follower took an answer at t2 and asked at t3. -/
def heard (t2 t3 : Nat) : State := { follower with links := [(17, { st := .up, ansRx := some t2, reqTx := some t3 })] }

/-- A parent that is LOCKED answers; an answer over a path of 10 ns, 3 µs behind the parent, steps Stride Time; one over a
path of 5 ns, 1 µs ahead, is taken without a jump; one of another master sets FOREIGN. -/
theorem test_timing :
    ran (exec (.timing 17 (.request false)) (follower (fun c => { c with lock := .locked }))) (fun t => (t.link 17).localQ.length == 1
      && (t.link 17).timingIn == some 0) = true ∧
    ran (exec (.timing 17 (.request true)) (follower (fun c => { c with lock := .locked }))) (fun t => (t.link 17).localQ == []) = true ∧
    ran (exec (.timing 17 (.answer (3010 * 2 ^ 32) (3025 * 2 ^ 32) 3 4 2 false)) (heard (5 * 2 ^ 32) 0)) (fun t =>
      t.clock.pathDly == 2560 && t.clock.stepped && (t.link 17).ansRx == some 0) = true ∧
    ran (exec (.timing 17 (.answer 0 (10 * 2 ^ 32) 3 4 2 false)) (heard (1005 * 2 ^ 32) (1005 * 2 ^ 32))) (fun t =>
      t.clock.pathDly == 1280 && t.clock.offset == 256000 && !t.clock.stepped && t.clock.ns == 0) = true ∧
    ran (exec (.timing 17 (.answer 0 (10 * 2 ^ 32) 3 4 2 true)) (heard (1005 * 2 ^ 32) (1005 * 2 ^ 32))) (fun t =>
      t.clock.pathDly == 0 && (t.link 17).ansRx == none) = true ∧
    ran (exec (.timing 17 (.answer 0 0 3 5 2 false)) (heard 0 0)) (fun t => t.clock.foreign && t.clock.pathDly == 0) = true := by
  decide +kernel

theorem test_power_commands :
    (asks 0x70 [(4, 65535)]).carries .pcw 0x70 [65535] = some 7 ∧ (asks 0x71 [(4, 65535), (4, 700)]).carries .pcw 0x71 [65535, 700] = some 7 ∧
    (asks 0x72 [(4, 3)]).carries .pcw 0x72 [3] = some 7 ∧ (asks 0x73 []).carries .pcw 0x73 [] = some 7 ∧
    ran (exec (.powerCap .pcw 65535) (asks 0x70 [(4, 65535)])) (fun t => status t == 0 && t.power.capPcw == 65535) ∧
    ran (exec (.powerCap .pcw 65536) (asks 0x70 [(4, 65536)])) (fun t => status t == stRsvEnc) ∧
    ran (exec (.clockCeil .pcw 0x8000 700) (asks 0x71 [(4, 0x8000), (4, 700)])) (fun t => status t == 0 &&
      t.power.islands.map (·.ceilPcw) == List.replicate 15 0 ++ [700]) ∧
    ran (exec (.clockCeil .pcw 65536 700) (asks 0x71 [(4, 65536), (4, 700)])) (fun t => status t == stRsvEnc) ∧
    ran (exec (.telemetry .pcw) (asks 0x73 [])) (fun t => status t == 0 && (result t).length == 44 &&
      leNat ((result t).drop 42) == 1250 && leNat (((result t).drop 4).take 4) == 3800) := by decide +kernel

theorem test_power_state :
    ran (exec (.powerState .pcw 3 []) (asks 0x72 [(4, 3)])) (fun t => status t == stAccepted && t.power.busy && t.power.target == .retain) = true ∧
    ran (exec (.powerState .pcw 0 []) (asks 0x72 [(4, 0)])) (fun t => status t == 0 && !t.power.busy) = true ∧
    ran (exec (.powerState .pcw 4 []) (asks 0x72 [(4, 4)])) (fun t => status t == stRsvEnc) = true ∧
    ran (exec (.powerState .pcw 3 [.safety]) (asks 0x72 [(4, 3)])) (fun t => status t == stSuperseded) = true ∧
    ran (exec (.powerState .pcw 3 []) (asks 0x72 [(4, 3)] { up with plots := [(271, { pacer := { st := .paused } })] })) (fun t =>
      status t == stState && t.power.refused) = true := by decide +kernel

/-- The device on its way from one power state to another. -/
def changing (old new : PwrSt) : State := { up with power := { st := old, target := new, busy := true, reqAt := 5 }, sec := { dbg := 1 } }

theorem test_power_reached :
    ran (exec .powerStateReached (changing .run .retain)) (fun t => t.power.st == .retain && !t.power.busy && t.now == 100005 &&
      (t.stack 23).selfRefresh && t.host.recs.any (fun r => r.type == 0xC6 && r.payload == [0, 3, 100])) = true ∧
    (changing .retain .run).roleUp 2 = true ∧ ran (exec .powerStateReached (changing .retain .run)) (fun _ => true) = true ∧
    ran (exec .powerStateReached up) (fun t => t == up) = true := by decide +kernel

/-- Over the cap a grant falls by one step; between 98% and the cap it stays; below 98% it rises to its ceiling. -/
theorem test_step_grant : stepGrant 3801 3800 98 1250 1250 = 1225 ∧ stepGrant 3800 3800 98 1250 700 = 700 ∧
    stepGrant 3723 3800 98 1250 1225 = 1250 ∧ stepGrant 3723 3800 98 1250 1250 = 1250 ∧ stepGrant 9999 3800 98 1250 400 = 400 := by decide

theorem test_loops :
    ran (exec (.powerLoop 3801 9) up) (fun t => t.power.islands.map (·.grant) == List.replicate 16 1225 && t.power.p1us == 3801
      && t.now == 1000 && t.power.lastGrant == 1000) = true ∧
    ran (exec (.powerLoop 3724 9) { up with power := { hold := true, capHold := 9, holdSince := 0 } }) (fun t => !t.power.hold
      && (t.host.recs.head?.map (fun r => (r.type, r.payload))) == some (0x75, [0, 9, 1000, 0])) = true ∧
    ran (exec (.holdGovernorLoop 3801 9) { up with power := { hold := true, capHold := 3800 } }) (fun t =>
      t.power.islands.map (·.grant) == List.replicate 16 1225) = true ∧
    ran (exec (.holdGovernorLoop 0 0) up) (fun t => t == up) = true ∧
    ran (exec (.thermalLoop (List.replicate 14 93 ++ [95, 92])) { up with power := { islands := List.replicate 16 { therm := 700 } } })
      (fun t => t.power.islands.map (·.therm) == List.replicate 14 700 ++ [650, 725] && t.now == 1000000) = true ∧
    ran (exec (.thermalThrottle 15 100) up) (fun t => (t.power.islands.getD 15 {}).hwThrottle && t.power.thermHw
      && (t.host.recs.head?.map (fun r => (r.type, r.payload))) == some (0x76, [100, 750])) = true ∧
    ran (exec (.thermalThrottle 15 97) { up with power := { islands := List.replicate 16 { hwThrottle := true } } }) (fun t =>
      !(t.power.islands.getD 15 {}).hwThrottle) = true ∧
    ran (exec (.thermalThrottle 15 99) { up with power := { islands := List.replicate 16 { hwThrottle := true } } }) (fun t =>
      (t.power.islands.getD 15 {}).hwThrottle && (t.power.islands.getD 15 {}).tempLive == 99) = true ∧
    ran (exec (.droop 15 true) up) (fun t => (t.power.islands.getD 15 {}).droop && t.power.droopF) = true := by decide +kernel

theorem test_power_hardware :
    ran (exec .telemetryPost { up with power := { snaps := [(5, [6])] } }) (fun t => t.power.snaps == [] &&
      (t.host.recs.head?.map (fun r => (r.type, r.time, r.payload))) == some (0x77, 5, [6])) = true ∧
    ran (exec (.avsVoltageReached true 750) { up with power := { avsFails := 2 } }) (fun t => t.power.avsFails == 0 && t.power.mv == 750) = true ∧
    ran (exec (.avsVoltageReached false 0) { up with power := { avsFails := 1 } }) (fun t => t.power.avsFails == 2 && !t.ras.fatal) = true ∧
    ran (exec (.thermalTrip (some 23) 105) up) (fun t => t.power.tripped) = true ∧
    ran (exec (.thermalTrip none 114) up) (fun t => !t.power.tripped) = true ∧
    ran (exec (.thermalTrip none 115) up) (fun t => t.power.tripped && !t.clocked) = true ∧
    ran (exec (.railUndervoltage 255) { up with plots := [(271, { pacer := { st := .running } })] }) (fun t => t.ras.fatalCause == 5
      && t.ras.fatalIndex == 255 && (t.plot 271).pacer.st == .draining) = true ∧
    ran (exec (.coreRefLoss true) up) (fun t => t.ras.pllAlt && t.ras.refLost && !t.power.clockLost) = true ∧
    ran (exec (.coreRefLoss true) { up with ras := { onDup := true } }) (fun t => t.power.clockLost && t.ras.fatalCause == 3) = true ∧
    ran (exec (.pcieLinkChange 6 8 true) up) (fun t => t.host.speed == 6 && t.host.width == 8 && t.host.flit) = true ∧
    ran (exec (.pcieLinkChange 0 8 true) up) (fun t => t.host.width == 0 && !t.host.flit) = true ∧
    ran (exec .d3hotEntry up) (fun t => t.host.d3hot) = true ∧
    ran (exec .d0Return { up with host := { d3hot := true, msixPba := 9, msixTable := [(12, 1), (60, 0)] } }) (fun t =>
      t.host.msixPba == 1 && t.host.msixSent == [3] && !t.host.d3hot) = true ∧
    ran (exec .slowClockEdge { up with power := { p1usLive := 7 } }) (fun t => t.power.slowSeq == 1 && t.power.p1us == 7) = true := by
  decide +kernel

/-- A third failure of the regulator is DEVICE_FATAL, whatever the curve. -/
theorem test_avs_fatal : ran (exec (.avsVoltageReached false 0) { up with power := { avsFails := 2 } }) (fun t => t.ras.fatal
    && t.ras.fatalCause == 5 && t.ras.fatalIndex == 0) = true := by decide +kernel

/-! ### Links -/

/-- Link 17 is x. -/
def linked (x : Link) (s : State := up) : State := { s with links := [(17, x)] }

/-- Link 17. -/
def l17 (s : State) : Link := s.link 17

/-- Every lane of a direction works: lanes 0 to 3 carry data and lane 4 is the spare. -/
def lanes : Lanes := qualified [0, 1, 2, 3, 4]

/-- A link that is UP. -/
def upLink (f : Link → Link := id) : Link :=
  f { st := .up, enable := true, tx := lanes, rx := lanes, admits := true, peerAdmit := true }

/-- ENABLE starts training; at its bounds 3 in MEDIUM, 5 in MIN_WIDTH and 0 elsewhere keep the fields. -/
theorem test_lnk_cfg :
    ran (exec (.lnkCfgEnableWrite 17 (1 + 3 * 2 + 5 * 16)) (linked {})) (fun t => (l17 t).st == .training && (l17 t).medium == 0
      && (l17 t).minWidth == 1 && (l17 t).replayLimit == 8 && (l17 t).laneThresh == 196 && !(l17 t).autoSpare) = true ∧
    ran (exec (.lnkCfgEnableWrite 17 (2 * 2 + 4 * 16 + 15 * 128 + 255 * 2048)) (linked { st := .training, enable := true })) (fun t =>
      (l17 t).st == .disabled && (l17 t).medium == 2 && (l17 t).minWidth == 4 && (l17 t).replayLimit == 15 && (l17 t).laneThresh == 255) = true ∧
    ran (exec (.lnkCfgEnableWrite 17 0) (linked (upLink fun x => { x with replayBuf := [{}] }))) (fun t => (l17 t).st == .up
      && (l17 t).disableAt == some 0) = true ∧
    ran (exec (.lnkCfgEnableWrite 17 1) { linked {} with cfgSeal := { st := .sealed } }) (fun t => (l17 t).st == .disabled) = true ∧
    ran (exec (.linkDisableTimeout 17) (linked (upLink fun x => { x with enable := false, disableAt := some 5, replayBuf := [{ ends := [{}] }] })))
      (fun t => t.now == 10005 && (l17 t).st == .disabled && (t.host.recs.head?.map (fun r => (r.type, r.cls, r.payload))) ==
        some (0x44, 4, [0, 1])) = true := by decide +kernel

/-- The steps of training: lane 2's errors are at the threshold and pass, lane 3's are one more. -/
theorem test_training :
    ran (exec (.laneEqualisationDone 17) (linked { st := .training })) (fun t => (l17 t).step == .deskew) = true ∧
    ran (exec (.laneDeskewDone 17) (linked { st := .training, step := .deskew })) (fun t => (l17 t).step == .qualify) = true ∧
    ran (exec (.laneQualifyWindowEnd 17 31 [0, 0, 200704, 200705, 0] 31) (linked { st := .training, step := .qualify })) (fun t =>
      (l17 t).step == .agree && (l17 t).rx.logical == [0, 1, 2, 4] && (l17 t).rx.spare == 7 && (l17 t).tx.spare == 4
      && (l17 t).rx.st == [.active, .active, .active, .failed, .active]) = true ∧
    ran (exec (.laneQualifyWindowEnd 17 0 [] 31) (linked { st := .training, step := .qualify })) (fun t => (l17 t).st == .failed) = true ∧
    ran (exec (.laneMapAgreed 17) (linked { st := .training, step := .agree, txSeq := 5 })) (fun t => (l17 t).st == .bib && (l17 t).txSeq == 0
      && (l17 t).ctlQ.map (·.1) == [1, 2]) = true ∧
    ran (exec (.linkTrainingTimeout 17) (linked { st := .bib, trainStart := 5 })) (fun t => (l17 t).st == .failed && t.now == 250000005) = true := by
  decide +kernel

/-- A Bib that checks, and one with a wrong CRC. -/
theorem test_bib : bibOk (up.ownBib 5) = true ∧ bibOk (up.ownBib 5 ^^^ 1) = false ∧
    ran (exec (.bib 17 (up.ownBib 5)) (linked { st := .bib })) (fun t => (l17 t).st == .held && (l17 t).bibValid
      && (l17 t).bibRx == up.ownBib 5 && (l17 t).ctlQ == [(3, 0)] && !(l17 t).bibChg) ∧
    ran (exec (.bib 17 (up.ownBib 5 ^^^ 1)) (linked { st := .bib })) (fun t => (l17 t).bibBad && (l17 t).st == .bib) ∧
    ran (exec (.bib 17 (up.ownBib 5)) (linked (upLink fun x => { x with bibRx := up.ownBib 4 }))) (fun t => (l17 t).st == .held
      && (l17 t).bibChg && t.host.recs.any (fun r => r.type == 0x40)) ∧
    ran (exec (.bibResendTimer 17) (linked { st := .bib })) (fun t => (l17 t).ctlQ.length == 2) := by decide +kernel

/-- A link is UP while both ends admit it; a Canal that shares a link is refused. -/
theorem test_admission_canals :
    ran (exec (.admissionNotice 17 true) (linked { st := .held, admits := true })) (fun t => (l17 t).st == .up && (l17 t).spillCredit) = true ∧
    ran (exec (.admissionNotice 17 false) (linked (upLink fun x => { x with general := [{}] }))) (fun t => (l17 t).st == .held
      && (l17 t).general == [] && (l17 t).input == [(0, {})]) = true ∧
    ran (exec (.canalWrite 17 (2 ^ 18 + 2 ^ 17 + 1)) (linked {})) (fun t => (l17 t).canalEn && (l17 t).members == 0x20001) = true ∧
    ran (exec (.canalWrite 17 0) (linked (upLink fun x =>
      { x with canalEn := true, members := 0x20000, general := [{}], sending := some ({ cls := 1 }, 5) })))
      (fun t => (l17 t).oldCanal == some (some 17) && (l17 t).general == [{}] && !(l17 t).canalEn) = true ∧
    ran (exec (.admissionNotice 17 true) (linked { st := .held, admits := true, undecided := true })) (fun t => (l17 t).st == .held) = true ∧
    ran (exec (.canalWrite 17 (2 ^ 18 + 1)) { up with links := [(0, { canalEn := true, members := 1 })] }) (fun t => (l17 t).canalOverlap
      && !(l17 t).canalEn) = true := by decide +kernel

/-- A flit with the number expected is taken once; one out of order asks for a replay. -/
def flit (seq : BitVec 12) (nak : Bool := false) : Flit :=
  let f : Flit := { type := 0, seq, ackSeq := 1, nak, replay := false, symErrs := [0, 543] }
  { f with crc := f.goodCrc }

theorem test_flit_receive :
    ran (exec (.flitReceive 17 (flit 4095)) (linked (upLink fun x => { x with rxSeq := 4095, replayBuf := [{ seq := 0 }, { seq := 1 }] })))
      (fun t => (l17 t).rxSeq == 0 && (l17 t).replayBuf.map (·.seq) == [1] && (l17 t).cnt == [1, 1, 0, 0, 1, 0, 0, 0, 0]) = true ∧
    ran (exec (.flitReceive 17 (flit 3)) (linked (upLink fun x => { x with rxSeq := 4 }))) (fun t => (l17 t).rxSeq == 4 && (l17 t).nakOut
      && (l17 t).cnt.getD 6 0 == 1) = true ∧
    ran (exec (.flitReceive 17 { flit 4 with crc := (flit 4).crc ^^^ 1 }) (linked (upLink fun x => { x with rxSeq := 4 }))) (fun t => (l17 t).rxSeq == 4
      && (l17 t).cnt.getD 5 0 == 1) = true ∧
    ran (exec (.flitReceive 17 { flit 4 with symErrs := List.range 16 }) (linked (upLink fun x => { x with rxSeq := 4 }))) (fun t =>
      (l17 t).rxSeq == 4 && (l17 t).nakOut && (l17 t).cnt.getD 2 0 == 1) = true ∧
    ran (exec (.flitReceive 17 (flit 0 true)) (linked (upLink fun x => { x with replayBuf := [{ seq := 1 }] }))) (fun t =>
      (l17 t).replayAt == some 0 && (l17 t).replayCnt == 1 && (l17 t).lastNak == some (1, 0)) = true ∧
    ran (exec (.flitReceive 17 (flit 0 true)) { linked (upLink fun x => { x with replayBuf := [{ seq := 1 }], replayCnt := 8, lastNak := some (1, 0) }) with
      clock := { ns := 2000 } }) (fun t => (l17 t).st == .retrain && (l17 t).prev == .up) = true := by decide +kernel

/-- A lane that is lost, a window of errors, and a marker that brings the far end's map. -/
theorem test_lanes :
    ran (exec (.laneSignalLoss 17 0 true) (linked (upLink))) (fun t => (l17 t).st == .retrain && (l17 t).prev == .up) = true ∧
    ran (exec (.laneSignalLoss 17 4 false) (linked (upLink))) (fun t => (l17 t).rx.at 4 == .failed && (l17 t).rx.spare == 7 && (l17 t).laneFail
      && t.host.recs.any (fun r => r.type == 0x42 && r.index == 17)) = true ∧
    ran (exec (.symbolWindowEnd 17 [200704, 0, 0, 0, 200705]) (linked (upLink))) (fun t => (l17 t).sym == [200704, 0, 0, 0, 200705]
      && (l17 t).rx.at 0 == .active && (l17 t).rx.at 4 == .failed) = true ∧
    ran (exec (.markerReceive 17 [4] none) (linked (upLink))) (fun t => (l17 t).tx.at 4 == .failed && (l17 t).st == .up) = true ∧
    ran (exec (.markerReceive 17 [3, 4] none) (linked (upLink fun x => { x with laneMapNext := some (qualified [0, 1, 2]) , minWidth := 3 })))
      (fun t => (l17 t).laneMapNext.isNone && (l17 t).st == .up && (l17 t).tx.width == 3) = true ∧
    ran (exec (.markerReceive 17 [] (some ([4, 1, 2, 3], 7))) (linked (upLink))) (fun t => (l17 t).rx.logical == [4, 1, 2, 3]
      && (l17 t).spareIn && (t.host.recs.head?.map (·.type)) == some 0x41) = true := by decide +kernel

/-- A map without FAILED lanes takes effect at a marker. -/
theorem test_marker_map :
    (∀ p, p < 5 → (qualified [0, 1, 2, 3, 4]).at p ≠ .failed) ∧
    ran (exec (.markerReceive 17 [] none) (linked (upLink fun x => { x with tx := qualified [0], laneMapNext := some lanes }))) (fun t =>
      (l17 t).tx == lanes && (l17 t).st == .up) := by decide +kernel

theorem test_retrain :
    ran (exec (.retrainComplete 17 (up.ownBib 5)) (linked { st := .retrain, prev := .up, bibValid := true, bibRx := up.ownBib 5, replayBuf := [{}], admits := true, peerAdmit := true }))
      (fun t => (l17 t).st == .up && (l17 t).replayAt.isNone && (l17 t).resync && (l17 t).retrained && (t.host.recs.head?.map (·.type)) == some 0x43) = true ∧
    ran (exec (.retrainComplete 17 (up.ownBib 5)) (linked { st := .retrain, prev := .up, bibValid := true, bibRx := up.ownBib 4 })) (fun t =>
      (l17 t).st == .held && (l17 t).bibRx == up.ownBib 5) = true ∧
    ran (exec (.retrainComplete 17 (up.ownBib 5)) (linked { st := .retrain, prev := .up, bibValid := true, bibRx := up.ownBib 5, undecided := true })) (fun t => (l17 t).st == .held) = true ∧
    ran (exec (.retrainComplete 17 0) (linked { st := .retrain })) (fun t => (l17 t).bibBad && (l17 t).st == .retrain) = true ∧
    ran (exec (.retrainTimeout 17) (linked { st := .retrain, retrainAt := 5 })) (fun t => (l17 t).st == .training && t.now == 10000005) = true := by
  decide +kernel

theorem test_link_commands :
    (asks 0x60 [(4, 2 ^ 18 - 1), (4, 1)]).carries .pcw 0x60 [2 ^ 18 - 1, 1] = some 7 ∧ (asks 0x61 [(4, 0x20000)]).carries .pcw 0x61 [0x20000] = some 7 ∧
    (asks 0x62 [(4, 17), (4, 4)]).carries .pcw 0x62 [17, 4] = some 7 ∧
    ran (exec (.linkEnable .pcw 0x20000 1) (asks 0x60 [(4, 0x20000), (4, 1)])) (fun t => status t == 0 && (l17 t).st == .training && !(t.link 16).enable) ∧
    ran (exec (.linkEnable .pcw 0x40000 1) (asks 0x60 [(4, 0x40000), (4, 1)])) (fun t => status t == stRsvEnc) ∧
    ran (exec (.linkEnable .pcw 1 2) (asks 0x60 [(4, 1), (4, 2)])) (fun t => status t == stRsvEnc) ∧
    ran (exec (.linkRetrain .pcw 0x20000) (asks 0x61 [(4, 0x20000)] (linked (upLink)))) (fun t => status t == 0 && (l17 t).st == .retrain) ∧
    ran (exec (.linkRetrain .pcw 0x20000) (asks 0x61 [(4, 0x20000)])) (fun t => status t == stState) ∧
    ran (exec (.laneRequalify .pcw 17 4) (asks 0x62 [(4, 17), (4, 4)] (linked (upLink fun x => { x with rx := qualified [0, 1, 2, 3] })))) (fun t =>
      status t == stAccepted && (l17 t).requal == some (4, 7)) ∧
    ran (exec (.laneRequalify .pcw 17 4) (asks 0x62 [(4, 17), (4, 4)] (linked (upLink fun x => { x with rx := qualified [0, 1, 2, 3], requal := some (4, 6) }))))
      (fun t => status t == stBusy) ∧
    ran (exec (.laneRequalify .pcw 17 3) (asks 0x62 [(4, 17), (4, 3)] (linked (upLink)))) (fun t => status t == stState) ∧
    ran (exec (.laneRequalify .pcw 17 5) (asks 0x62 [(4, 17), (4, 5)])) (fun t => status t == stRange) ∧
    ran (exec (.laneRequalifyComplete 17 true) (linked (upLink fun x => { x with rx := qualified [0, 1, 2, 3], requal := some (4, 6) }))) (fun t =>
      (l17 t).rx.at 4 == .standby && (l17 t).requal.isNone) := by decide +kernel

/-! ### The fabric -/

/-- A WRITE for device d. -/
def pkt (d : BitVec 14) (n : Nat := 0) : Packet := { cls := 2, dst := d, payload := List.replicate n 0 }

/-- A packet with its CRC. -/
def sealed (k : Packet) : Packet := { k with crc := k.goodCrc }

/-- Routes: 16,383 by Canal 0 (ESC 0), 16,382 this device, all others none. Links 0 and 17 are UP; Canal 0 is link 0. -/
def fab (r : Router → Router := id) (x : Link → Link := id) (y : Link → Link := id) : State :=
  { up with
    router := r { bank0 := [(16382, 2 ^ 24 + 2 ^ 25), (16383, 2 ^ 25 + 1)] }
    links := [(0, y (upLink fun z => { z with canalEn := true, members := 1 })), (17, x upLink)] }

theorem test_packet_receive : (pkt 1).legal = true ∧ ({ cls := 0 } : Packet).legal = false ∧
    ran (exec (.packetReceive 17 (pkt 1 2048)) (fab id (fun x => { x with input := [(0, pkt 2 2048)] }))) (fun t => (l17 t).input.length == 2) ∧
    ran (exec (.packetReceive 17 (pkt 1)) (fab id (fun x => { x with input := [(0, pkt 2 2048), (0, pkt 2 2009)] }))) (fun t =>
      t.router.overflow && t.router.cnt.getD 7 0 == 1 && (t.host.recs.head?.map (fun r => (r.type, r.cls, r.payload))) == some (0x8A, 4, [144, 1])) ∧
    ran (exec (.packetReceive 17 {}) (fab)) (fun t => t.router.discard) ∧
    ran (exec (.packetReceive 17 (sealed { cls := 5, op := 12 })) (fab)) (fun t => (l17 t).spillCredit) ∧
    ran (exec (.packetReceive 17 { cls := 5, op := 12 }) (fab)) (fun t => !(l17 t).spillCredit && t.router.crcErr) ∧
    ran (exec (.packetReceive 17 (pkt 1)) (linked {})) (fun t => t == linked {}) ∧
    ran (exec (.spillCredit 17) (fab)) (fun t => (l17 t).spillCredit) := by decide +kernel

theorem test_flit_transmit :
    ran (exec (.flitTransmit 17) (fab id (fun x => { x with replayBuf := [{}, {}], replayAt := some 0 }))) (fun t => (l17 t).replayAt == some 1
      && (l17 t).cnt.getD 7 0 == 1) = true ∧
    ran (exec (.flitTransmit 17) (fab id (fun x => { x with ctlQ := [(1, 9)], slotsSinceCtl := 63, txSeq := 4095 }))) (fun t => (l17 t).ctlQ == []
      && (l17 t).txSeq == 0 && (l17 t).replayBuf.map (·.ctl) == [true]) = true ∧
    ran (exec (.flitTransmit 17) (fab id (fun x => { x with replayBuf := List.replicate 204 {} }))) (fun t => (l17 t).replayBuf.length == 204) = true ∧
    ran (exec (.flitTransmit 17) (fab id (fun x => { x with sending := some (pkt 1, 629) }))) (fun t => (l17 t).sending == some (pkt 1, 1)) = true ∧
    ran (exec (.flitTransmit 17) (fab id (fun x => { x with sending := some (pkt 1, 628) }))) (fun t => (l17 t).sending.isNone
      && (l17 t).replayBuf.map (·.ends.length) == [1]) = true ∧
    ran (exec (.flitTransmit 17) (fab id (fun x => { x with localQ := [pkt 3 589], bounce := [pkt 4], general := [pkt 5] }))) (fun t =>
      (l17 t).sending == some (pkt 3 589, 1) && (l17 t).turn == 1) = true := by decide +kernel

theorem test_spillway_turn :
    (fab id (fun x => { x with spill := some (pkt 16383) }) (fun y => { y with turn := 15, spillCredit := true })).spillFor 0 = some (17, pkt 16383) ∧
    ran (exec (.spillwayTurn 0) (fab id (fun x => { x with spill := some (pkt 16383) }) (fun y => { y with turn := 15, spillCredit := true }))) (fun t =>
      (l17 t).spill.isNone && (t.link 0).sending == some ({ pkt 16383 with down := true }, 40) && (t.link 0).turn == 0
      && t.router.cnt.getD 6 0 == 1) ∧
    ran (exec (.spillwayTurn 0) (fab)) (fun t => t == fab) := by decide +kernel

/-- A swap waits with a parked Baton. -/
def routerEvent1 : State := event 14 (fun s => { s with router := { injStopped := true, swapAt := some (5, 255), park := [pkt 1] } })

/-- The input of link 17 holds a packet. -/
def atInput (k : Packet) (x : Link → Link := id) (y : Link → Link := id) : State := fab id (fun z => x { z with input := [(0, k)] }) y

theorem test_route_packet : rtValid ((fab).route 5) = false ∧ rtLocal ((fab).route 16382) = true ∧
    (atInput (pkt 16382)).endsAt 3 (pkt 16382) = .eject ∧ (atInput (pkt 16383)).choice 17 = some (false, 0, 0) ∧
    ran (exec (.routePacket 17) (atInput (pkt 5))) (fun t => t.router.noRoute && (l17 t).input == []) ∧
    ran (exec (.routePacket 17) (atInput (pkt 16382))) (fun t => t.router.eject.get 3 [] == [pkt 16382] && t.router.cnt.getD 1 0 == 1) ∧
    ran (exec (.routePacket 17) (atInput { pkt 16382 with baton := true, bcount := 1 })) (fun t => t.router.park.length == 1 && t.router.eject == []) ∧
    ran (exec (.routePacket 17) (atInput { pkt 16383 with defl := 12 })) (fun t => (l17 t).spill.map (·.spill) == some true
      && t.router.cnt.getD 5 0 == 1) ∧
    ran (exec (.routePacket 17) (atInput (pkt 16383))) (fun t => (t.link 0).general == [pkt 16383] && t.router.cnt.getD 2 0 == 1) ∧
    ran (exec (.routePacket 17) (atInput (pkt 16383) id (fun y => { y with st := .held }))) (fun t => (l17 t).bounce.map (·.defl) == [1]
      && t.router.cnt.getD 4 0 == 1) ∧
    ran (exec (.routePacket 17) (atInput (pkt 16383) (fun x => { x with bounce := [pkt 1 2009] }) (fun y => { y with st := .held }))) (fun t =>
      (l17 t).input.length == 1) := by decide +kernel

/-- A parked Baton and a packet half sent are discarded at the deadline and counted (R307); a reserved bit of a routing entry is
ignored (R9, R304). -/
theorem test_deadline_and_reserved :
    ran (exec .swapDeadline { routerEvent1 with links := [(17, { sending := some ({}, 5) })] }) (fun t => (l17 t).sending.isNone
      && t.router.park == [] && t.router.cnt.getD 7 0 == 2) = true ∧ rtReserved (2 ^ 31 + 2 ^ 25 + 1) = false := by decide +kernel

/-- Canal 17 is link 17: with the productive Canal full a packet is deflected into it. -/
theorem test_deflected :
    ran (exec (.routePacket 17) (atInput (pkt 16383) (fun x => { x with canalEn := true, members := 0x20000 })
      (fun y => { y with general := [pkt 1 2009] }))) (fun t => (l17 t).general.map (·.defl) == [1] && t.router.cnt.getD 3 0 == 1) = true := by
  decide +kernel

/-- Injection by a productive Canal, to this device, without a route, and while a drain has stopped it. -/
def injects (k : Packet) (r : Router → Router := id) : State := fab (fun q => r { q with injQ := [(k.cls.toNat, [k])] })

theorem test_packet_inject :
    (injects (pkt 16383)).injHead 2 0 = some (pkt 16383, []) ∧ (injects (pkt 16383)).injPick (pkt 16383) = some (0, 0) ∧
    ran (exec (.packetInject 2 0) (injects (pkt 16383))) (fun t => (t.link 0).general == [sealed (pkt 16383)] && t.router.out == 1
      && t.router.cnt.getD 0 0 == 1 && t.router.injQ.get 2 [] == []) ∧
    ran (exec (.packetInject 2 0) (injects (pkt 16382))) (fun t => (t.router.eject.get 0 []).length == 1) ∧
    ran (exec (.packetInject 5 0) (injects { cls := 5, op := 9, dst := 5 })) (fun t => t.router.noRoute && t.router.injQ.get 5 [] == []) ∧
    ran (exec (.packetInject 2 0) (injects (pkt 16383) (fun q => { q with injStopped := true }))) (fun t => (t.router.injQ.get 2 []).length == 1) ∧
    ran (exec (.packetInject 2 0) { injects (pkt 16383) with links := [] }) (fun t => t.router.injWaits == [2]) ∧
    (({ cnt := List.replicate 10 0, injWaits := [2] } : Router).waited 5).cnt.getD 9 0 = 5 := by
  decide +kernel

/-- Die 3 has an ejected packet. -/
def ejected (k : Packet) (r : Router → Router := id) : State := fab (fun q => r { q with eject := [(3, [k])] })

theorem test_ejection : (pkt 1).crc ≠ (pkt 1).goodCrc ∧ (sealed (pkt 1)).crc = (sealed (pkt 1)).goodCrc ∧
    ran (exec (.ejection 3) (ejected (pkt 1))) (fun t => t.router.crcErr && t.router.deliv == []) ∧
    ran (exec (.ejection 3) (ejected (sealed (pkt 1)))) (fun t => t.router.deliv == [sealed (pkt 1)]
      && (t.inStream (pkt 1)).arrived == [1, 0, 0, 0]) ∧
    ran (exec (.ejection 3) (ejected (sealed { pkt 1 with baton := true, src := 9 }))) (fun t => (t.inStream { pkt 1 with src := 9 }).expect == 1
      && (t.router.injQ.get 5 []).map (fun k => (k.op, k.dst, k.arg)) == [(10, 9, 2)]) ∧
    ran (exec (.ejection 3) (fab)) (fun t => t == fab) := by decide +kernel

theorem test_baton_park :
    ran (exec (.batonParkDeliver 2 9) (fab (fun q => { q with park := [sealed { pkt 1 with baton := true, src := 9 }], turnaway := [(2, 8), (2, 7)] })))
      (fun t => t.router.park == [] && t.router.deliv.length == 1 && t.router.turnaway == [(2, 7)] && t.router.granted == [(2, 8)]) = true ∧
    ran (exec (.batonParkDeliver 2 9) (fab (fun q => { q with park := [{ pkt 1 with baton := true, src := 9, bcount := 1 }] }))) (fun t =>
      t.router.park.length == 1) = true := by decide +kernel

/-- A packet waits to be served. -/
def served (k : Packet) (x : Plot := {}) : State := { fab (fun q => { q with deliv := [k] }) with plots := [(255, x)] }

/-- The answers queued, as OP, TAG and ARG. -/
def answers (s : State) : List (BitVec 4 × BitVec 16 × BitVec 32) := (s.router.injQ.get 1 []).map (fun k => (k.op, k.tag, k.arg))

/-- The last bytes of Plot 255's window. -/
def rsvEnd (o : Nat) : BitVec 48 := BitVec.ofNat 48 (rsvAddr 255 o)

theorem test_write_read :
    ran (exec (.write []) (served { pkt 1 with addr := rsvEnd 0xFFFFF8, tag := 4, payload := List.replicate 8 6 })) (fun t =>
      answers t == [(5, 4, 0)] && (t.plot 255).resv.le 0xFFFFF8 2 == 0x606 && t.router.deliv == []) = true ∧
    ran (exec (.write []) (served { pkt 1 with addr := rsvEnd 0xFFFFF9, tag := 4, payload := List.replicate 8 6 })) (fun t =>
      (answers t).map (·.1) == [6] && (t.plot 255).resv == []) = true ∧
    ran (exec (.write []) (served { pkt 1 with addr := rsvEnd 0, arg := 0x1BF })) (fun t => (t.plot 255).pacer.flags.get 63 0 == 1) = true ∧
    (served { pkt 1 8 with addr := 0 }).memWaits 0 8 = true ∧
    ran (exec (.write []) (served { pkt 1 8 with addr := 0 })) (fun t => t.router.deliv.length == 1) = true ∧
    ran (exec (.read []) (served { cls := 0, op := 3, addr := rsvEnd 0xFFFFFF, tag := 4 } { resv := [(0xFFFFFF, 5)] })) (fun t =>
      (t.router.injQ.get 1 []).map (fun k => (k.op, k.tag, k.payload)) == [(4, 4, [5])]) = true ∧
    ran (exec (.read []) (served { cls := 0, op := 3, addr := rsvEnd 0, tag := 4, arg := 2048 })) (fun t => answers t == [(6, 4, 2)]) = true ∧
    ran (exec .readData { fab (fun q => { q with out := 3, reqs := [{ tag := 4 }], deliv := [{ cls := 1, op := 4, tag := 4 }] }) with plots := [] })
      (fun t => t.router.out == 2 && t.router.reqs == []) = true := by decide +kernel

/-- Inbox 3 of Plot 255 takes rows of 128 bytes. -/
def box : Plot := { pacer := { inboxes := [{}, {}, {}, { base := 1, cap := 4, pitch := 1 }], outboxes := [{}, {}, {}, { credits := 14 }] } }

/-- The first packet of an append of two rows of 128 bytes to inbox 3. -/
def append (op : BitVec 4) (arg : BitVec 32) : Packet := { pkt 1 64 with op, addr := rsvEnd 0, tag := 4, arg }

theorem test_appends :
    (served (append 1 (3 + 2 * 512 + 2 ^ 21)) box).farPlot (rsvAddr 255 0) = some 255 ∧
    ran (exec (.appendRow []) (served (append 1 (3 + 2 * 512 + 2 ^ 21)) box)) (fun t => answers t == [(5, 4, 0)] &&
      ((t.plot 255).pacer.inbox 3).resv.map (fun q => (q.units, q.slot, q.landed)) == [(2, false, [(0, 64)])]) ∧
    ran (exec (.appendRow []) (served (append 1 (3 + 2 * 512 + 2 ^ 22)) box)) (fun t => answers t == [(6, 4, 4)] &&
      (t.plot 255).lostAppends.length == 1) ∧
    ran (exec (.appendSlot []) (served (append 2 (3 + 512)) box)) (fun t => answers t == [(6, 4, 4)]) ∧
    ran (exec (.appendSlot []) { served (append 2 (3 + 512)) box with ras := { unmapped := [255] } }) (fun t => answers t == [(6, 4, 2)]) := by
  decide +kernel

/-- A slot append of 512 bytes into one of four slots. -/
theorem test_append_slot :
    ran (exec (.appendSlot []) (served (append 2 (3 + 4 * 512)) { pacer := { inboxes := [{}, {}, {}, { base := 1, cap := 4, pitch := 4, slotMode := true, slots := 4 }] } }))
      (fun t => answers t == [(5, 4, 0)] && ((t.plot 255).pacer.inbox 3).resv.map (·.slot) == [true]) = true := by decide +kernel

/-- The other answers. -/
theorem test_answers :
    ran (exec .ack { fab (fun q => { q with out := 2, reqs := [{ tag := 4, owner := 0, item := 3, bytes := 8 }], deliv := [{ cls := 1, op := 5, tag := 4 }] }) with
      plots := [(0, dma 8 (fun c => { c with started := true, outWrites := 1 }))] }) (fun t => t.router.out == 1 && t.router.reqs == []
        && (t.dma? 0 3).map (fun c => (c.outWrites, c.bytes)) == some (0, 8)) = true ∧
    ran (exec .nack { fab (fun q => { q with out := 2, reqs := [{ tag := 4, owner := 0, item := 3, bytes := 8 }], deliv := [{ cls := 1, op := 6, tag := 4, arg := 2 }] }) with
      plots := [(0, dma 8 (fun c => { c with started := true, outWrites := 1 }))] }) (fun t => (t.plot 0).dErr && (t.plot 0).dErrCode == 5) = true ∧
    ran (exec .credit (served { cls := 5, op := 9, arg := 255 + 3 * 256 } box)) (fun t => (t.plot 255).pacer.outboxes.map (·.credits) == [0, 0, 0, 15]) = true ∧
    ran (exec .batonDone (fab (fun q => { q with srcStreams := [(2 * 16384 + 9, { undelivered := 1 })], deliv := [{ cls := 5, op := 10, src := 9, arg := 2 }] })))
      (fun t => (t.router.srcStreams.get (2 * 16384 + 9) {}).undelivered == 0) = true ∧
    ran (exec .mgmt (served { cls := 5, op := 13 })) (fun t => t.router.mbox.length == 1) = true ∧
    ran (exec .mgmt (fab (fun q => { q with mbox := List.replicate 64 {}, deliv := [{ cls := 5, op := 13 }] }))) (fun t => t.router.mbox.length == 64 &&
      t.boot.marshals.map (·.drop) == [0, 0, 1, 0, 0, 0]) = true ∧
    ran (exec (.mgmtRetry 0) (fab (fun q => { q with mgmtOut := [{ cls := 5, op := 13 }] }))) (fun t => (t.router.injQ.get 5 []).length == 1) = true := by
  decide +kernel

/-- The router and an event of Starter entry 255. -/
def routerEvent (kind : Nat) (r : Router) : State := event kind (fun s => { s with router := r })

theorem test_drain_swap :
    ran (exec (.drainBegin 255 []) (routerEvent 12 {})) (fun t => t.router.injStopped && evStatus t == 2) = true ∧
    ran (exec (.drainBegin 255 [.starter 254]) (routerEvent 12 {})) (fun t => evStatus t == 4) = true ∧
    ran (exec (.routeSwap 255 []) (routerEvent 14 {})) (fun t => evStatus t == 3 && !t.router.bank) = true ∧
    ran (exec (.routeSwap 255 []) (routerEvent 14 { injStopped := true, drained := true })) (fun t => evStatus t == 2 && t.router.bank) = true ∧
    ran (exec (.routeSwap 255 []) (routerEvent 14 { injStopped := true })) (fun t => t.router.swapAt == some (7, 255) && evStatus t == 1) = true ∧
    ran (exec (.drainEnd 255 []) (routerEvent 13 { injStopped := true, drained := true })) (fun t => !t.router.injStopped && !t.router.drained) = true ∧
    ran (exec (.drainEnd 255 []) (routerEvent 13 { injStopped := true })) (fun t => t.router.injStopped && evStatus t == 2) = true ∧
    ran (exec (.drainEnd 255 []) (routerEvent 13 { swapAt := some (5, 254) })) (fun t => t.router.endPending == some 255) = true := by decide +kernel

theorem test_late_swap : { up with router := { injStopped := true } }.drainedNow = true ∧
    ran (exec .deviceDrained { up with router := { injStopped := true } }) (fun t => t.router.drained) ∧
    ran (exec .deviceDrained { routerEvent 14 { injStopped := true, swapAt := some (0, 255) } with clock := { ns := 300 } }) (fun t => t.router.bank
      && t.router.swapLate && (t.host.recs.any fun r => r.type == 0x50 && r.payload == [300, 0])) ∧
    ran (exec .swapDeadline { routerEvent 14 { injStopped := true, swapAt := some (5, 255), out := 4 } with
      links := [(17, { input := [(0, {})], general := [{}], bounce := [{}], spill := some {} })] }) (fun t => t.router.bank && t.now == 1000005
        && t.router.out == 0 && (l17 t).input == [] && (l17 t).spill.isNone && t.router.cnt.getD 7 0 == 4
        && (t.host.recs.any fun r => r.type == 0x50 && r.cls == 4 && r.payload == [1000000, 4])) := by decide +kernel

/-- ROUTE_LOAD of the last destination from Plot 255's Reservoir. -/
def loads (addr first count : Nat) (s : State := up) : State := asks 0x64 [(8, addr), (4, first), (4, count)] s

theorem test_route_load : (loads (rsvAddr 255 0) 16383 1).carries .pcw 0x64 [rsvAddr 255 0, 16383, 1] = some 7 ∧
    ran (exec (.routeLoad .pcw (BitVec.ofNat 64 (rsvAddr 255 0)) 16383 1 []) (loads (rsvAddr 255 0) 16383 1
      { up with plots := [(255, { resv := Mem.write [] 0 (leBytes 4 (2 ^ 25 + 1)) })] })) (fun t => status t == 0
        && t.router.bank1.get 16383 0 == 0x2000001 && t.router.bank0 == []) ∧
    ran (exec (.routeLoad .pcw (BitVec.ofNat 64 (rsvAddr 255 0)) 16383 2 []) (loads (rsvAddr 255 0) 16383 2)) (fun t => status t == stRange) ∧
    ran (exec (.routeLoad .pcw (BitVec.ofNat 64 (rsvAddr 255 0)) 0 0 []) (loads (rsvAddr 255 0) 0 0)) (fun t => status t == stRange) ∧
    ran (exec (.routeLoad .pcw (BitVec.ofNat 64 (rsvAddr 255 0)) 0 1 []) (loads (rsvAddr 255 0) 0 1 { up with cfgSeal := { st := .sealed } })) (fun t =>
      status t == stState) := by decide +kernel

theorem test_flow_map :
    ran (exec .flowMapWindowEnd (fab (fun q => { q with winStart := 1000, winEscal := 3, winInjWait := 2 }))) (fun t => t.now == 2000 &&
      t.router.winStart == 2000 && t.router.winEscal == 0 && t.router.winInjWait == 0 && t.router.fmapPtr == 0) = true ∧
    ran (exec .flowMapWindowEnd (fab (fun q => { q with fmapEn := true, fmapDepth := 2, fmapPtr := 1, fmapThresh := 0 }))) (fun t =>
      t.router.fmapPtr == 0) = true := by decide +kernel

/-! ### Discovery and the Relay -/

/-- A Heat Sheet of generation 1 with SELF_ID 9, in which link 17 is wired to link 0 of device 5. -/
def heatSheet : List Byte := leBytes 64 (65536 + 9 * 2 ^ 32) ++ List.replicate 272 0 ++ leBytes 16 (5 * 2 ^ 64 + 2 ^ 83)

/-- HEATSHEET_INSTALL from Plot 255's Reservoir, which holds a sheet. -/
def installs (h : List Byte) : State := { asks 0x63 [(8, rsvAddr 255 0)] with
  plots := [(255, { resv := Mem.write [] 0 h })], links := [(17, { st := .bib })] }

theorem test_heatsheet : heatSheet.length = 352 ∧ hsReject heatSheet 0 = 0 ∧ hsReject (List.replicate 352 0) 0 = 1 ∧
    (installs heatSheet).carries .pcw 0x63 [rsvAddr 255 0] = some 7 ∧
    ran (exec (.heatsheetInstall .pcw (BitVec.ofNat 64 (rsvAddr 255 0)) []) (installs heatSheet)) (fun t => status t == 0 && t.router.id == 9
      && !t.router.idSrc && t.router.strapDiff && t.router.hs == heatSheet && (l17 t).ctlQ.length == 2) ∧
    ran (exec (.heatsheetInstall .pcw (BitVec.ofNat 64 (rsvAddr 255 0)) []) (installs [])) (fun t => status t == stRefused
      && t.router.hsReject && t.router.hsRejCode == 1) ∧
    ran (exec (.heatsheetInstall .pcw (BitVec.ofNat 64 (rsvAddr 255 32)) []) (asks 0x63 [(8, rsvAddr 255 32)])) (fun t => status t == stRange) := by
  decide +kernel

/-- A Bib of device d, on its link 0, of generation 1. -/
def bibFrom (d : Nat) : BitVec 256 := BitVec.ofNat 256 (d * 2 ^ 64 + 65536 * 2 ^ 96)

/-- Links 16 and 17 are wired to devices 6 and 5, and hear each other's. -/
def swapped : State :=
  { up with
    router := { id := 9, hs := leBytes 64 (65536 + 9 * 2 ^ 32) ++ (List.replicate 256 0 ++ leBytes 32 (6 * 2 ^ 64 + 3 * 2 ^ 83 + (5 * 2 ^ 64 + 3 * 2 ^ 83) * 2 ^ 128)) }
    links := [(16, { st := .held, bibValid := true, bibRx := bibFrom 5, outcome := 4 }),
      (17, { st := .held, bibValid := true, bibRx := bibFrom 6 })] }

theorem test_decides : swapped.decides 17 17 ∧ swapped.decides 17 16 :=
  ⟨.inl rfl, .inr (.inr ⟨17, by decide, .inl rfl, by decide +kernel, by decide +kernel⟩)⟩

/-- A pass without a Heat Sheet admits a link whose Bib is known; with one the link of another device is wrong. -/
theorem test_discovery :
    ran (exec (.discoveryPass 17) (linked { st := .held, bibValid := true, bibRx := up.ownBib 0, peerAdmit := true })) (fun t =>
      (l17 t).outcome == 6 && (l17 t).admits && (l17 t).st == .up && t.router.hsChange && t.host.recs.any (fun r => r.type == 0x48)) = true ∧
    ran (exec (.linkSettle 17) { linked { settleFrom := 5 } with router := { settle := 1 } }) (fun t => (l17 t).settled && t.now == 1000005) = true ∧
    ran (exec (.linkSettle 17) { linked { settled := true } with router := { settle := 0 } }) (fun t =>
      t == { linked { settled := true } with router := { settle := 0 } }) = true ∧
    ran (exec (.discoveryPass 17) swapped) (fun t => [16, 17].map (fun l => ((t.link l).outcome, (t.link l).pair, (t.link l).remap)) ==
      [(2, 17, false), (2, 16, false)] && (t.link 17).st == .held) := by decide +kernel

/-- Group 4,095 has two members, of which this device, 0, is rank r; the other is device 5. The list is at byte 0 of Plot 0's
Reservoir; piece lists at 64 (nothing) and 80 (4 bytes at 256). -/
def member (r : Nat) (f : Relay → Relay := id) (s : State := up) : State :=
  { s with plots := [(0, { resv := Mem.write (Mem.write [] 0 (if r = 0 then leBytes 4 (5 * 65536) else leBytes 4 5)) 64 (leBytes 16 1 ++ leBytes 16 (1 + 4 * 2 ^ 32 + 256 * 2 ^ 64)) })]
           relay := f { groups := [(4095, { n := 2, rank := r, list := BitVec.ofNat 48 (rsvAddr 0 0) })] } }

/-- A descriptor (R337): a BROADCAST of 4 bytes of INT8 from rank 0, sequence 7. -/
def coll (op : Nat := 4) (launch : Nat := 1) (count : Nat := 4) (flag : Nat := 0) (set : Nat := 0) : List Byte :=
  pack [(8, op + 5 * 16 + 5 * 256 + 4095 * 65536 + launch * 2 ^ 28 + flag * 2 ^ 30 + 2 ^ 37), (8, 7), (8, 0), (8, count + 2 ^ 40),
    (8, rsvAddr 0 64 + 2 ^ 48), (8, rsvAddr 0 80 + 2 ^ 48), (8, 0), (8, 0), (8, 0), (8, 0), (8, 0), (8, 0)] ++ leBytes 32 set

/-- Context 127 holds that collective. -/
def held (r : Nat) (x : Ctx) (s : State := up) : State := member r (fun q => { q with ctxs := [(127, { x with desc := coll })] }) s

theorem test_group_load :
    let ask := fun r => asks 0x40 [(4, 4095), (4, 2), (4, 65535), (8, rsvAddr 0 0)] (member r (fun q => { q with groups := [] }))
    (ask 1).carries .pcw 0x40 [4095, 2, 65535, rsvAddr 0 0] = some 7 ∧ (ask 1).devWords (rsvAddr 0 0) 2 2 = some [5, 0] ∧
    ran (exec (.groupLoad .pcw 4095 2 65535 (BitVec.ofNat 64 (rsvAddr 0 0)) []) (ask 1)) (fun t => status t == 0 &&
      (t.relay.groups.get? 4095).map (fun g => (g.n, g.gen, g.rank, g.jcw)) == some (2, 65535, 1, false)) ∧
    ran (exec (.groupLoad .pcw 4095 2 65535 (BitVec.ofNat 64 (rsvAddr 0 0)) []) { ask 1 with router := { id := 6 } }) (fun t => status t == stRefused) ∧
    ran (exec (.groupLoad .pcw 4096 2 0 0 []) (asks 0x40 [(4, 4096), (4, 2), (4, 0), (8, 0)])) (fun t => status t == stRange) := by
  decide +kernel

theorem test_group_refusals :
    ran (exec (.groupLoad .pcw 4095 2 0 (BitVec.ofNat 64 (rsvAddr 0 0)) []) (asks 0x40 [(4, 4095), (4, 2), (4, 0), (8, rsvAddr 0 0)] (held 1 { st := .posted })))
      (fun t => status t == stState) = true ∧
    ran (exec (.groupLoad .pcw 4095 2 0 0 []) (asks 0x40 [(4, 4095), (4, 2), (4, 0), (8, 0)] (member 1 (fun q => { q with groups := [(4095, { jcw := true })] }))))
      (fun t => status t == stOwner) = true ∧
    ran (exec (.groupUnload .pcw 4095) (asks 0x41 [(4, 4095)] (member 1))) (fun t => status t == 0 && t.relay.groups == []) = true ∧
    ran (exec (.groupUnload .pcw 4095) (asks 0x41 [(4, 4095)])) (fun t => status t == stState) = true ∧
    ran (exec (.groupUnload .pcw 4096) (asks 0x41 [(4, 4096)])) (fun t => status t == stRange) = true := by decide +kernel

theorem test_coll_status_abort : (asks 0x43 [(4, 127), (4, 7)] (held 1 { st := .posted })).carries .pcw 0x43 [127, 7] = some 7 ∧
    ran (exec (.collStatus .pcw 127) (asks 0x44 [(4, 127)] (held 1 { st := .posted }))) (fun t => status t == 0 && (result t).drop 4 == [7, 0, 0, 0]) ∧
    ran (exec (.collStatus .pcw 128) (asks 0x44 [(4, 128)])) (fun t => status t == stRange) ∧
    ran (exec (.collAbort .pcw 127 7 []) (asks 0x43 [(4, 127), (4, 7)] (held 1 { st := .posted }))) (fun t => status t == 0 &&
      (t.ctx 127).st == .free && (t.ctx 127).status == 5) ∧
    ran (exec (.collAbort .pcw 127 7 [.bmc]) (asks 0x43 [(4, 127), (4, 7)] (held 1 { st := .posted }))) (fun t => status t == stSuperseded) ∧
    ran (exec (.collAbort .pcw 127 8 []) (asks 0x43 [(4, 127), (4, 8)] (held 1 { st := .posted }))) (fun t => status t == stState) ∧
    ran (exec (.collAbort .pcw 127 7 []) (asks 0x43 [(4, 127), (4, 7)] (held 1 { st := .posted, jcw := true }))) (fun t => status t == stOwner) ∧
    ran (exec (.collAbort .pcw 127 7 []) (asks 0x43 [(4, 127), (4, 7)] (held 1 { st := .running }))) (fun t => status t == 0 &&
      (result t).take 4 == [3, 0, 0, 0] && (t.router.injQ.get 11 []).length == 1) := by decide +kernel

/-- COLL_POST of a descriptor. -/
def posts (d : List Byte) (s : State := member 1) : State := asks 0x42 [(128, leNat d)] s

theorem test_coll_post : (posts coll).carries .pcw 0x42 [leNat coll] = some 7 ∧ (parseColl coll).reserved = false ∧
    (posts coll).postRange ((posts coll).newCtx coll false) = 0 ∧
    ran (exec (.collPost .pcw coll) (posts coll)) (fun t => status t == 0 && (t.ctx 0).st == .posted && t.relay.nposts == 1
      && (t.ctx 0).dst.map (·.left) == [4]) ∧
    ran (exec (.collPost .pcw (coll 4 0)) (posts (coll 4 0))) (fun t => status t == 0 && (t.ctx 0).st == .rendezvous
      && (t.router.injQ.get 11 []).map (·.dst) == [5]) ∧
    ran (exec (.collPost .pcw (coll 0)) (posts (coll 0))) (fun t => status t == stColl 10 && t.relay.sRefused) ∧
    ran (exec (.collPost .pcw (coll 4 1 5)) (posts (coll 4 1 5))) (fun t => status t == stColl 11) ∧
    ran (exec (.collPost .pcw coll) (posts coll up)) (fun t => status t == stColl 8) ∧
    ran (exec (.collPost .pcw coll) (posts coll (held 1 { st := .posted }))) (fun t => status t == stColl 9) ∧
    ran (exec (.collPost .pcw coll) (posts coll (member 1 (fun q => { q with ctxs := [(4, { st := .posted, store := 25165824 })] })))) (fun t =>
      status t == stColl 2) := by decide +kernel

/-- A launch by the Starter and by flags. -/
theorem test_coll_launch :
    ran (exec (.collLaunch 255 []) (event 5 (fun _ => held 1 { st := .posted }) (fun v => { v with argA := 127 }))) (fun t =>
      (t.ctx 127).st == .rendezvous && (t.ctx 127).launchAt == 7 && evStatus t == 2) = true ∧
    ran (exec (.collLaunch 255 []) (event 5 id (fun v => { v with argA := 127 }))) (fun t => evStatus t == 3) = true ∧
    ran (exec (.flagsLaunch 63) (member 1 (fun q => { q with rdy := [(63, 7)], ctxs := [(127, { st := .posted, desc := coll 4 2 4 63 3 })] }))) (fun t =>
      (t.ctx 127).st == .rendezvous && t.relay.rdy.get 63 0 == 4) = true ∧
    ran (exec (.flagsLaunch 63) (member 1 (fun q => { q with rdy := [(63, 1)], ctxs := [(127, { st := .posted, desc := coll 4 2 4 63 3 })] }))) (fun t =>
      (t.ctx 127).st == .posted) = true := by decide +kernel

/-- Rank 0's rendezvous: a POST kept, GO, a digest that differs, and a POST ahead of its context. -/
theorem test_post : (held 0 { st := .rendezvous }).liveCtx 4095 7 = some 127 ∧
    ran (exec (.post 5 4095 7 1 0) (held 0 { st := .posted })) (fun t => (t.ctx 127).posts == [(1, 0)]) ∧
    ran (exec (.post 5 4095 7 1 0) (held 0 { st := .rendezvous, posts := [(0, 0)] })) (fun t => (t.ctx 127).st == .running) ∧
    ran (exec (.post 5 4095 7 1 9) (held 0 { st := .rendezvous, posts := [(0, 0)] })) (fun t => (t.ctx 127).st == .free && (t.ctx 127).status == 3
      && t.relay.errValid && t.relay.errRank == 1) ∧
    ran (exec (.post 5 4095 7 1 0) up) (fun t => t.relay.early == [(4095, 7, 1, 0)]) ∧
    ran (exec (.post 5 4095 7 1 0) (member 0 (fun q => { q with early := List.replicate 256 (0, 0, 0, 0) }))) (fun t => t.relay.early.length == 256
      && (t.router.injQ.get 11 []).map (·.dst) == [5]) := by decide +kernel

theorem test_rendezvous :
    ran (exec (.retry 4095 7) (held 1 { st := .rendezvous })) (fun t => (t.ctx 127).retry == some 0) = true ∧
    ran (exec (.postRetryTimer 127) (held 1 { st := .rendezvous, retry := some 5 })) (fun t => t.now == 10005 && (t.ctx 127).retry.isNone
      && (t.router.injQ.get 11 []).map (·.dst) == [5]) = true ∧
    ran (exec (.go 4095 7) (held 1 { st := .rendezvous })) (fun t => (t.ctx 127).st == .running) = true ∧
    ran (exec (.go 4095 7) up) (fun t => t.relay.cnt.getD 6 0 == 1) = true ∧
    ran (exec (.abort 4095 7 { code := 3, rank := 1, own := 1, other := 2, missing := [] }) (held 1 { st := .rendezvous })) (fun t =>
      (t.ctx 127).status == 3 && t.relay.errRank == 1 && t.host.recs.any (fun r => r.type == 0x60)) = true ∧
    ran (exec (.collCredit 4095 7 0) (held 1 { st := .running })) (fun t => (t.ctx 127).credits.get 0 0 == 1) = true := by decide +kernel

/-- A context of ALL_TO_ALL_V, whose RECV list, at byte 512, names 3 elements from rank 0. -/
def counting (x : Ctx) (learn : Nat := 0) : State :=
  (member 1 (fun q => { q with ctxs := [(127, { x with desc := pack [(8, 6 + 5 * 16 + 5 * 256 + 4095 * 65536 + 2 ^ 28 + 2 ^ 37), (8, 7), (8, rsvAddr 0 512),
    (8, 2 ^ 40), (8, rsvAddr 0 64 + 2 ^ 48), (8, rsvAddr 0 80 + 2 ^ 48), (8, rsvAddr 0 512 + learn * 2 ^ 48)] ++ List.replicate 72 0 })] })).onPlot 0 (fun p =>
    { p with resv := p.resv.write 512 [3] })

theorem test_coll_count :
    ran (exec (.collCount 4095 7 0 3) (counting { st := .rendezvous })) (fun t => (t.ctx 127).counts == [(0, 3)]) = true ∧
    ran (exec (.collCount 4095 7 0 4) (counting { st := .rendezvous })) (fun t => (t.ctx 127).st == .rendezvous
      && (t.router.injQ.get 11 []).length == 1) = true ∧
    ran (exec (.collCount 4095 7 0 9) (counting { st := .rendezvous } 1)) (fun t => (t.plot 0).resv.le 512 4 == 9 && (t.ctx 127).counts == [(0, 9)]) = true := by
  decide +kernel

/-- A block of rank 0's broadcast. -/
def block : CollBlock := { src := 0, up := false, shard := 0, a := 0, b := 0, blk := 0, data := [(1, false), (2, false), (3, false), (4, false)], pkts := [9] }

theorem test_coll_data :
    ran (exec (.collData 4095 7 block []) (held 1 { st := .rendezvous })) (fun t => (t.ctx 127).early == [block] && answers t == [(5, 9, 0)]
      && t.relay.cnt.getD 5 0 == 27) = true ∧
    ran (exec (.collData 4095 7 block []) up) (fun t => t.relay.cnt.getD 6 0 == 1 && answers t == [(5, 9, 0)]) = true ∧
    ran (exec (.collData 4095 7 block []) (held 1 { st := .closing })) (fun t => answers t == [(5, 9, 0)]) = true ∧
    ran (exec (.collBlockSend 127 0 []) (held 1 { st := .posted })) (fun t => t.router.injQ == []) = true := by decide +kernel

/-- In RUNNING a block is taken and acknowledged. -/
theorem test_coll_running : (takeBlock 127 block [] (held 1 { st := .running, awaited := [(0, 1)], dst := [{ left := 4 }], src := [{}] })).isSome = true ∧
    ran (exec (.collData 4095 7 block []) (held 1 { st := .running, awaited := [(0, 1)], dst := [{ left := 4 }], src := [{}] })) (fun t =>
      (t.ctx 127).awaited.all (fun e => e.2 == 0) && answers t == [(5, 9, 0)]) := by decide +kernel

/-- Tables in HBM that is not up yet keep what there is to do; unmapped ones fail the context with code 11, and its block is
answered with a NACK (R361, R363). -/
theorem test_tables :
    (let s := { held 1 { st := .rendezvous } with relay := { (held 1 { st := .rendezvous }).relay with
       groups := [(4095, { n := 2, rank := 1, list := 0 })] } }
     s.tablesWait (s.ctx 127) = true ∧ ran (exec (.go 4095 7) s) (fun t => t.relay.acts.length == 1 && (t.ctx 127).st == .rendezvous)) ∧
    (let s := { held 1 { st := .running } with ras := { unmapped := [0] } }
     s.tablesWait (s.ctx 127) = false ∧ s.tablesOk (s.ctx 127) = false ∧
     ran (exec (.collData 4095 7 block []) s) (fun t => (t.ctx 127).status == 11 && answers t == [(6, 9, 1)])) ∧
    (held 1 { st := .running }).tablesWait ((held 1 { st := .running }).ctx 127) = false ∧
    (held 1 { st := .running }).tablesOk ((held 1 { st := .running }).ctx 127) = true := by decide +kernel

/-- A block of a reduction waits for a credit. -/
theorem test_block_waits_credit :
    (let s := member 1 (fun q => { q with ctxs := [(127,
       { st := .running, toSend := [{ shard := 0, a := 1, b := 2 }], desc := pack [(8, 3 + 5 * 16 + 8 * 256 + 4095 * 65536 + 2 ^ 37), (8, 7), (8, 0), (8, 4 + 2 ^ 40)] ++ List.replicate 96 0 })] })
     ran (exec (.collBlockSend 127 0 []) s) (fun t => (t.ctx 127).toSend.length == 1 && t.router.injQ == [])) = true := by decide +kernel

/-- A piece whose bytes have all moved is done; timeouts. -/
theorem test_coll_ends :
    ran (exec (.pieceComplete 127 true 0) (held 1 { st := .running, dst := [{}], src := [{ done := true }], toSend := [{}] })) (fun t =>
      (t.ctx 127).dst.map (·.done) == [true] && (t.ctx 127).st == .running) = true ∧
    ran (exec (.pieceComplete 127 true 0) (held 1 { st := .running, dst := [{}], src := [{ done := true }] })) (fun t => (t.ctx 127).st == .free) = true ∧
    ran (exec (.collTimeout 127) (held 1 { st := .running, lastRx := 5, awaited := [(0, 1)] })) (fun t => t.now == 2000000005 &&
      (t.ctx 127).status == 4 && t.relay.errRank == 0) = true ∧
    ran (exec (.collTimeout 127) (held 0 { st := .rendezvous, launchAt := 5, posts := [(0, 0)] })) (fun t => t.now == 2000000005 &&
      (t.ctx 127).status == 4 && t.relay.errRank == 1) = true := by decide +kernel

/-- Context 127 gathers segment 0 of stack 23's Sluice, with an expectation. -/
def gathering (expect step : Nat) (c : Commit → Commit := id) (f : Sluice → Sluice := id) : State :=
  { sluice f c with
    plots := [(0, { resv := Mem.write [] 64 (leBytes 16 (2 + 23 * 2 ^ 18 + 2 ^ 82)) })]
    relay := { groups := [(4095, { n := 2 })], ctxs := [(127, { st := .running, src := [{ segs := [(0, 2, 2)] }],
                                                                desc := pack [(8, 1 + 4095 * 65536 + 2 ^ 37), (8, 7), (8, 0), (8, 2 + 2 ^ 40),
      (8, rsvAddr 0 64 + 2 ^ 48), (8, 0), (8, 0), (8, expect + step * 16)] ++ List.replicate 64 0 })] } }

/-- The tags served to context 127, by segment. -/
def servedTags (s : State) : List (Nat × BitVec 31) := ((s.ctx 127).src.getD 0 {}).served.map (fun e => (e.1, e.2.tag))

theorem test_gather : (gathering 0 0).gatherPiece 127 23 0 = some 0 ∧
    ran (exec (.sluiceGatherServe 23 ⟨127, 0, none⟩) (gathering 0 0 (fun c => { c with step := 5 }))) (fun t => servedTags t == [(0, 5)]) ∧
    ran (exec (.sluiceGatherServe 23 ⟨127, 0, none⟩) (gathering 0 0 (fun c => { c with st := .pending }))) (fun t => servedTags t == []
      && (sl t).waiting == [(127, 0)]) ∧
    ran (exec (.gatherWaitRetry 23 0) (gathering 0 0 (fun c => { c with step := 5 }) (fun x => { x with waiting := [(127, 0)] }))) (fun t =>
      servedTags t == [(0, 5)] && (sl t).waiting == []) ∧
    ran (exec (.gatherWaitRetry 23 0) (gathering 0 0)) (fun t => (sl t).waiting == []) := by decide +kernel

/-- A gather that expects step 6 waits for it; one that expects step 4 is stale. -/
theorem test_gather_expect :
    ran (exec (.sluiceGatherServe 23 ⟨127, 0, none⟩) (gathering 1 6 (fun c => { c with step := 5 }))) (fun t => (sl t).waiting == [(127, 0)]) = true ∧
    ran (exec (.sluiceGatherServe 23 ⟨127, 0, none⟩) (gathering 1 4 (fun c => { c with step := 5 }))) (fun t => (sl t).stale
      && (sl t).stale1 == 4 && (sl t).stale2 == 5 && t.commit.cause == 32 && servedTags t == [(0, 5)]) = true := by decide +kernel

/-! ### The host port -/

theorem test_step : step { up with pending := [.loadArm, .thermalTrip none 115] } = exec .loadArm { up with pending := [.thermalTrip none 115] } ∧
    ran (step { up with pending := [.loadArm, .droop 0 true] }) (fun t => t.clock.loadArm && t.pending == [.droop 0 true]) = true ∧
    ran (step up) (fun t => t.pending == []) = true := ⟨rfl, by decide +kernel, by decide +kernel⟩

/-- The PCW is IDLE with a packet of HSEQ 1 in CMD_REQ. -/
def idle (op : Nat) (ps : List (Nat × Nat) := []) (f : Window → Window := id) : State :=
  { up with host := { pcw := f { st := .idle, req := packet op ps } } }

/-- COMMIT: consumed, out of step, repeated, of a bad length, in BUSY, in OFFLINE, and while the Command role is down. -/
theorem test_commit_write :
    ran (exec (.cmdCommit .pcw 1) (idle 0x54)) (fun t => t.host.pcw.st == .busy && t.host.pcw.cur == some 1 && t.host.dseq == 1
      && t.host.pcw.lastHseq == 1) = true ∧
    ran (exec (.cmdCommit .pcw 1) (idle 0x54 [] (fun q => { q with lastHseq := 5 }))) (fun t => status t == stGap && result t == [5, 0, 0, 0]
      && t.host.dseq == 0) = true ∧
    ran (exec (.cmdCommit .pcw 1) (idle 0x54 [] (fun q => { q with lastHseq := 1, cache := replyBytes 0x54 1 9 3 0 [8] }))) (fun t =>
      status t == stDuplicate && (t.host.pcw.reply.drop 14) == [3, 0, 8]) = true ∧
    ran (exec (.cmdCommit .pcw 2) (idle 0x54)) (fun t => status t == stBadPacket && t.host.pcw.st == .done) = true ∧
    ran (exec (.cmdCommit .pcw 1) (idle 0xFF)) (fun t => status t == stUnknownOp) = true ∧
    ran (exec (.cmdCommit .pcw 1) (idle 0x54 [(4, 1)])) (fun t => status t == stRsvEnc) = true ∧
    ran (exec (.cmdCommit .pcw 1) (idle 0x54 [] (fun q => { q with st := .busy }))) (fun t => t.host.pcw.commitIgnored) = true ∧
    ran (exec (.cmdCommit .pcw 1) on) (fun t => t == on) = true ∧
    ran (exec (.cmdCommit .pcw 1) { idle 0x54 with boot := { perst := false } }) (fun t => t.host.pcw.latched == some 1) = true := by
  decide +kernel

/-- The JCW may not order VETO; a reply signals its vector where asked. -/
theorem test_commit_jcw :
    ran (exec (.cmdCommit .jcw 1) { up with host := { jcw := { st := .idle, req := packet 0x72 [(4, 0)] } } }) (fun t => t.host.jcw.st == .done
      && leNat ((t.host.jcw.reply.drop 12).take 2) == stDenied) = true ∧
    ran (exec (.veto .pcw) { asks 0x54 [] with host := { (asks 0x54 []).host with pcw := { (asks 0x54 []).host.pcw with irqEn := true }, msixTable := [] } })
      (fun t => t.host.msixSent == [0] && t.host.pcw.cur.isNone && t.host.pcw.cache == t.host.pcw.reply) = true := by decide +kernel

theorem test_echo_identify_fetch : (asks 0x00 [(4, 6)]).carries .pcw 0x00 [] = some 7 ∧ (asks 0x01 []).carries .pcw 0x01 [] = some 7 ∧
    (asks 0x02 [(8, 0), (4, 65536), (8, 64)]).carries .pcw 0x02 [0, 65536, 64] = some 7 ∧
    ran (exec (.echo .pcw [6, 0, 0, 0]) (asks 0x00 [(4, 6)])) (fun t => status t == 0 && result t == [6, 0, 0, 0]) ∧
    ran (exec (.identify .pcw) (asks 0x01 [])) (fun t => status t == 0 && result t == identity up) ∧
    ran (exec (.journalFetch .pcw 0 65536 64) { asks 0x02 [(8, 0), (4, 65536), (8, 64)] with host := { (asks 0x02 [(8, 0), (4, 65536), (8, 64)]).host with
      recs := [{ jseq := 5, type := 0x77 }], jhead := 6 } }) (fun t => status t == 0 && leNat ((result t).take 8) == 5
        && leNat ((result t).drop 8) == 1 && t.host.hostMem.le 64 1 == 5) ∧
    ran (exec (.journalFetch .pcw 0 65537 64) (asks 0x02 [(8, 0), (4, 65537), (8, 64)])) (fun t => status t == stRange) := by decide +kernel

/-- The ring of 64 records at host byte 4,096, with the records 1 and 2 not yet written. -/
def ring (f : HostPort → HostPort := id) : State := { up with host := f {
  jen := true, jsize := 6, jbase := 4096, jhead := 3, jwritten := 1, jtail := 1, jmod := 0, jheadWb := 8, msixTable := [],
  recs := [{ jseq := 2, type := 9 }, { jseq := 1, type := 8 }, { jseq := 0 }] } }

theorem test_ring :
    ran (exec .journalRingWrite (ring)) (fun t => t.host.jwritten == 3 && t.host.hostMem.le 8 8 == 3 && t.host.hostMem.le (4096 + 64) 1 == 1
      && t.host.hostMem.le (4096 + 128) 1 == 2 && t.host.msixSent == [2] && !t.host.jfull) = true ∧
    ran (exec .journalRingWrite (ring fun h => { h with jtail := 0, jhead := 66, jwritten := 64, recs := (List.range 66).reverse.map (fun n => { jseq := BitVec.ofNat 64 n }) }))
      (fun t => t.host.jfull && t.host.jwritten == 64) = true ∧
    (ring fun h => { h with jtail := 0, jhead := 65600, jwritten := 64 }).host.ringFull = true ∧
    ran (exec .journalRingWrite (ring fun h => { h with jtail := 0, jhead := 65700, jwritten := 64 })) (fun t => t.host.jwritten == 64
      && !t.host.jgap && t.host.jhead == 65700) = true ∧
    ran (exec .journalRingWrite (ring fun h => { h with jen := false })) (fun t => t.host.jwritten == 1) = true ∧
    ran (exec (.cmdJtailWrite 2) (ring)) (fun t => t.host.jtail == 2 && t.host.jwritten == 1) = true ∧
    ran (exec (.cmdJtailWrite 2) (ring fun h => { h with jhead := 65546 })) (fun t => t.host.jgap && t.host.jwritten == 11
      && (t.host.recs.head?.map (fun r => (r.type, r.payload))) == some (0xF1, [1, 0, 10, 0])) = true := by decide +kernel

theorem test_jcfg :
    ran (exec (.cmdJcfgWrite (1 + 20 * 2 + 65535 * 65536)) (ring fun h => { h with jen := false })) (fun t => t.host.jen && t.host.jsize == 20
      && t.host.jmod == 65535 && t.host.jwritten == 1) = true ∧
    ran (exec (.cmdJcfgWrite (1 + 21 * 2)) (ring)) (fun t => t.host.jsize == 6) = true ∧
    ran (exec .journalModTimer (ring fun h => { h with jmod := 1 })) (fun t => t.now == 1000 && t.host.msixSent == [2] && t.host.jsignalled == 1) = true ∧
    ran (exec .journalModTimer (ring fun h => { h with jmod := 1, jsignalled := 1 })) (fun t => t.host.msixSent == []) = true := by decide +kernel

theorem test_bar2_write :
    ran (exec (.bar2Write 0xFFFFF) up) (fun t => t.host.bar2Write && t.host.bar2Cnt == 1 && (t.host.recs.head?.map (fun r => (r.type, r.payload))) ==
      some (0xF3, [0xFFFFF])) = true ∧
    ran (exec (.registerWrite true 0x1000 [1] 0 []) { up with host := { bar2Write := true, bar2Cnt := 0xFFFFFFFF } }) (fun t => t.host.bar2Cnt == 0xFFFFFFFF
      && t.host.recs == []) = true := by decide +kernel

/-- Reads: CMD_DSEQ of the JCW's copy, beyond the BAR, of a form not accepted, and a 96-bit register by its first word. -/
theorem test_register_read : accessOk 0x80C 4 = true ∧ accessOk 0x80C 3 = false ∧
    ran (exec (.wideRegisterRead true 0x80C 4) { up with host := { dseq := 5 } }) (fun t => t.host.rdData == leBytes 4 5) ∧
    ran (exec (.wideRegisterRead true 0x100000 4) up) (fun t => t.host.rdData == [0, 0, 0, 0]) ∧
    ran (exec (.wideRegisterRead false 0x80C 3) up) (fun t => t.host.rdData == [0, 0, 0]) ∧
    ran (exec (.wideRegisterRead true 0x80C 4) { up with host := { d3hot := true, rdData := [9] } }) (fun t => t.host.rdData == [9]) := by
  decide +kernel

/-- PLT_PSTART of Plot 271, and CMD_REQ in IDLE, BUSY and OFFLINE. -/
theorem test_register_write :
    ran (exec (.registerWrite false (0x1000000 + 271 * 0x8000 + 0x604) (leBytes 4 4095) 0 []) up) (fun t => (t.plot 271).pacer.startEntry == 4095) = true ∧
    ran (exec (.registerWrite false (0x1000000 + 0x604) (leBytes 4 5) 0 []) (run1 0)) (fun t => (pac t).startEntry == 0) = true ∧
    ran (exec (.registerWrite false 0x13FC [1, 2, 3, 4] 0 []) (idle 0)) (fun t => t.host.pcw.req.bytes 0x3FC 4 == [1, 2, 3, 4]) = true ∧
    ran (exec (.registerWrite false 0x1000 [1, 2, 3, 4] 0 []) (asks 0 [])) (fun t => t.host.pcw.reqIgnored) = true ∧
    ran (exec (.registerWrite false 0x1000 [1, 2, 3, 4] 0 []) on) (fun t => t == on) = true ∧
    ran (exec (.registerWrite false 0x4000000 [1, 2, 3, 4] 0 []) up) (fun t => t == up) = true := by decide +kernel

/-- A clear of NUMEV0.VALID in the cycle of a NaN: VALID stays, and the event is counted (R8, R83, R414). -/
theorem test_set_wins :
    (let s := plot0 { numev := { valid := true, cause := 3 } }
     ran (exec (.registerWrite false (0x1000000 + 0x510) [1, 0, 0, 0] 1 []) s) (fun t => (t.plot 0).numev == { valid := true, cause := 3 }
       && (t.plot 0).swcnt == 1) ∧
     ran (exec (.registerWrite false (0x1000000 + 0x510) [1, 0, 0, 0] 0 []) s) (fun t => !(t.plot 0).numev.valid && (t.plot 0).swcnt == 0)) := by
  decide +kernel

/-- CMD_JBASE: the lower word is staged and the upper commits both; while EN is 1 neither counts; 8 bytes commit at once. -/
theorem test_register_pair : up.reg64 0x3000 = some (0, true) ∧ (ring).reg64 0x3000 = some (0, false) ∧
    ran (exec (.registerWrite false 0x3000 [0, 0x10, 0, 0] 0 []) up) (fun t => t.host.jbase == 0 && t.staged 0 0x3000 == some 0x1000
      && ran (exec (.registerWrite false 0x3004 [1, 0, 0, 0] 0 []) t) (fun u => u.host.jbase == 0x100001000 && u.host.stage == [])) ∧
    ran (exec (.registerWrite false 0x3000 [0xFF, 0x1F, 0, 0, 2, 0, 0, 0] 0 []) up) (fun t => t.host.jbase == 0x200001000) ∧
    ran (exec (.registerWrite false 0x3000 [0, 0x20, 0, 0] 0 []) (ring)) (fun t => t.host.stage == [] && t.host.jbase == 4096) := by
  decide +kernel

/-- A register of 256 bits is captured by the read of its first word. -/
theorem test_register_wide : wideReg 0x101FE0 = some 0x101FE0 ∧ wideReg 0x101FE4 = some 0x101FE0 ∧ wideReg 0x102FE4 = some 0x102FE0 ∧
    wideReg 0x103000 = none ∧
    ran (exec (.wideRegisterRead false 0x101FE0 4) (waiting { valid := true, kind := 1, time := 500 })) (fun t =>
      t.host.bar0Cap == some (0x101FE0, t.wideVal 0x101FE0)) ∧
    ran (exec (.wideRegisterRead false 0x101FE4 4) { up with host := { bar0Cap := some (0x101FE0, 7 * 2 ^ 32) } }) (fun t =>
      t.host.rdData == [7, 0, 0, 0]) := by decide +kernel

/-- BAR4 lies over the Reservoir of logical Plot 0 from byte 0 on. -/
def bar4 (base : Nat) : State := { up with host := { bar4Base := BitVec.ofNat 18 base } }

theorem test_bar4 : (bar4 0x20000).bar4Bad (rsvAddr 0 4) 4 = false ∧ (bar4 0x20000).memWaits (rsvAddr 0 4) 4 = false ∧
    (bar4 0x3FFFF).bar4Bad 0xFFFFC0000000 4 = true ∧
    ran (exec (.bar4Write 4 [1, 2, 3, 4] []) (bar4 0x20000)) (fun t => (t.plot 0).resv.bytes 4 4 == [1, 2, 3, 4]
      && ran (exec (.bar4Read 4 4 [] []) t) (fun u => u.host.bar4Data == [1, 2, 3, 4] && u.host.bar4Status == 0)) ∧
    ran (exec (.bar4Read 0 4 [] []) (bar4 0x3FFFF)) (fun t => t.host.bar4Err && t.host.bar4Status == 2 && t.host.bar4ErrAddr == 0xFFFFC0000000
      && ran (exec (.bar4Write 64 [9] []) t) (fun u => u.host.bar4ErrAddr == 0xFFFFC0000000)) ∧
    ran (exec (.bar4Write 64 [9] []) (bar4 0x3FFFF)) (fun t => t.host.bar4ErrAddr == 0xFFFFC0000040) ∧
    ran (exec (.bar4Read 0 4 [] []) { bar4 0 with boot := { (bar4 0).boot with hbmReady := true } }) (fun t => t.host.bar4Status == 0) ∧
    ran (exec (.cmdBar4BaseWrite 0xFFFFFFFFFFFFFFFF) up) (fun t => t.host.bar4Base == 0x3FFFF) := by decide +kernel

/-- Region 63 beside region 0: apart, overlapping, out of range, with a reserved mode, and with the seal closed. -/
def region63 (r : Region) : State := { up with regions := { tbl := [(0, { size := 24, valid := true }), (63, r)] } }

theorem test_region :
    ran (exec (.regionWrite 63 .cfg 0x403) (region63 { base := 24, size := 24, soff := 1, mode := 1 })) (fun t =>
      (t.regions.tbl.get 63 {}).valid && (t.regions.tbl.get 63 {}).mode == 1 && !t.regions.overlap) = true ∧
    ran (exec (.regionWrite 63 .base 23) (region63 { base := 24, size := 24, soff := 1, valid := true })) (fun t =>
      t.regions.overlap && t.regions.region == 63 && (t.regions.tbl.get 63 {}).base == 24) = true ∧
    ran (exec (.regionWrite 63 .size 25) (region63 { base := 24, size := 24, soff := 1, valid := true })) (fun t =>
      t.regions.range && !t.regions.overlap && (t.regions.tbl.get 63 {}).size == 24) = true ∧
    ran (exec (.regionWrite 63 .soff 5) { region63 {} with cfgSeal := { st := .sealed } }) (fun t => (t.regions.tbl.get 63 {}).soff == 0) = true ∧
    ran (exec (.regionWrite 63 .soff 5) (region63 {})) (fun t => (t.regions.tbl.get 63 {}).soff == 5) = true ∧
    ran (exec (.regionWrite 63 .soff 15728641) (region63 { valid := true, mode := 1 })) (fun t => !t.regions.range
      && (t.regions.tbl.get 63 {}).soff == 15728641) = true := by decide +kernel

/-! ### Plot commands and host transfers -/

/-- Logical Plot 255 alone, as a Plot set. -/
def last : BitVec 256 := BitVec.ofNat 256 (2 ^ 255)

/-- A host command on a device whose Plot 255 is x. -/
def on255 (x : Plot) (op : Nat) (ps : List (Nat × Nat)) : State := asks op ps { up with plots := [(255, x)] }

/-- PLAN_LOAD of n step entries for Plot 255 from the Reservoir of Plot 0. -/
def planLoads (kind first n src : Nat) (x : Plot := {}) : State :=
  let s := on255 x 0x10 [(32, 2 ^ 255), (4, kind), (4, first), (4, n), (8, src)]
  { s with plots := [(0, { resv := Mem.write [] 8 [7] }), (255, x)] }

theorem test_plan_load : (planLoads 0 4095 1 (rsvAddr 0 0)).carries .pcw 0x10 [2 ^ 255, 0, 4095, 1, rsvAddr 0 0] = some 7 ∧
    (planLoads 0 4095 1 (rsvAddr 0 0)).memWaits (rsvAddr 0 0) 16 = false ∧ (planLoads 0 4095 1 (rsvAddr 0 0)).memErr none (rsvAddr 0 0) 16 = 0 ∧
    (devRead none (rsvAddr 0 0) 16 [] (planLoads 0 4095 1 (rsvAddr 0 0))).1.bad = [] ∧
    ran (exec (.planLoad .pcw last 0 4095 1 (BitVec.ofNat 64 (rsvAddr 0 0)) []) (planLoads 0 4095 1 (rsvAddr 0 0))) (fun t => status t == 0
      && (t.plot 255).stepMem == [(65528, 7)] && leNat (result t) == 0) ∧
    ran (exec (.planLoad .pcw last 2 255 1 (BitVec.ofNat 64 (rsvAddr 0 0)) []) (planLoads 2 255 1 (rsvAddr 0 0) { pacer := { st := .running } }))
      (fun t => status t == 0 && leNat ((result t).drop 16) == 2 ^ 255 && (t.plot 255).dtab == []) ∧
    ran (exec (.planLoad .pcw last 0 4095 2 (BitVec.ofNat 64 (rsvAddr 0 0)) []) (planLoads 0 4095 2 (rsvAddr 0 0))) (fun t => status t == stRange) ∧
    ran (exec (.planLoad .pcw last 3 0 1 (BitVec.ofNat 64 (rsvAddr 0 0)) []) (planLoads 3 0 1 (rsvAddr 0 0))) (fun t => status t == stRsvEnc) ∧
    (let s := { planLoads 0 0 1 (rsvAddr 0 0) with power := { st := .retain } }
     ran (exec (.planLoad .pcw last 0 0 1 (BitVec.ofNat 64 (rsvAddr 0 0)) []) s) (fun t => status t == stState)) := by decide +kernel

/-- RUN_CONTROL on Plot 255. -/
def control (k entry : Nat) (q : Pacer) : State := on255 { pacer := q } 0x11 [(32, 2 ^ 255), (4, k), (4, entry)]

theorem test_run_control : (control 0 4095 {}).carries .pcw 0x11 [2 ^ 255, 0, 4095] = some 7 ∧
    (control 3 0 {}).carries .pcw 0x11 [2 ^ 255, 3, 0] = some 7 ∧
    ran (exec (.runControlStart .pcw last 4095 []) (control 0 4095 {})) (fun t => status t == 0 && (p255 t).st == .running && (p255 t).pc == 4095) ∧
    ran (exec (.runControlStart .pcw last 0xFFFFFFFF []) (control 0 0xFFFFFFFF { startEntry := 9 })) (fun t => (p255 t).pc == 9) ∧
    ran (exec (.runControlStart .pcw last 4096 []) (control 0 4096 {})) (fun t => status t == stRange) ∧
    ran (exec (.runControlStart .pcw last 0 []) (control 0 0 { st := .draining })) (fun t => status t == stRefused
      && leNat ((result t).drop 16) == 2 ^ 255) ∧
    ran (exec (.runControlStart .pcw last 0 [(255, .bmc), (3, .safety)]) (control 0 0 {})) (fun t => status t == stSuperseded
      && leNat ((result t).drop 48) == 2 ^ 255 && (p255 t).st == .stopped) ∧
    ran (exec (.runControlStart .pcw last 0 []) { control 0 0 {} with power := { st := .idle } }) (fun t => status t == stState) := by decide +kernel

theorem test_run_control_others :
    ran (exec (.runControlStop .pcw last 0 [] 0 []) (control 1 0 { st := .paused })) (fun t => status t == 0 && (p255 t).st == .stopped) = true ∧
    ran (exec (.runControlPause .pcw last 0 [] 0) (control 2 0 { st := .running })) (fun t => status t == 0 && (p255 t).st == .draining
      && (p255 t).drainTo == .toPaused) = true ∧
    ran (exec (.runControlStop .pcw last 0 [] last []) (control 1 0 { st := .draining, drainTo := .toNumericHalt })) (fun t => status t == 0
      && (p255 t).drainTo == .toNumericHalt) = true ∧
    ran (exec (.runControlPause .pcw last 0 [] 0) (control 2 0 {})) (fun t => status t == stRefused) = true ∧
    ran (exec (.runControlResume .pcw last 0 []) (control 3 0 { st := .paused, checked := true })) (fun t => status t == 0 && (p255 t).st == .running
      && !(p255 t).checked) = true := by decide +kernel

theorem test_flag_raise : (on255 {} 0x13 [(32, 2 ^ 255), (4, 63)]).carries .pcw 0x13 [2 ^ 255, 63] = some 7 ∧
    ran (exec (.flagRaise .pcw last 63) (on255 {} 0x13 [(32, 2 ^ 255), (4, 63)])) (fun t => status t == 0 && (p255 t).flags.get 63 0 == 1) ∧
    ran (exec (.flagRaise .pcw last 63) (on255 { pacer := { flags := [(63, 15)] } } 0x13 [(32, 2 ^ 255), (4, 63)])) (fun t => (p255 t).flagOvf
      && (p255 t).flags.get 63 0 == 15) ∧
    ran (exec (.flagRaise .pcw last 64) (on255 {} 0x13 [(32, 2 ^ 255), (4, 64)])) (fun t => status t == stRange) ∧
    (let s := on255 {} 0x13 [(32, 2 ^ 255), (4, 63)]
     ran (exec (.flagRaise .pcw last 63) { s with ras := { s.ras with plotMap := [(255, 0x1FF)], unmapped := [255] } }) (fun t => status t == stRange)) := by
  decide +kernel

/-- PACER_SET of PLT_PSTART, of PLT_PTIME7, of a reserved encoding and of an offset that is no register of the Pacer. -/
theorem test_pacer_set :
    (let f (q : Pacer) (o v : Nat) := on255 { pacer := q } 0x14 [(32, 2 ^ 255), (4, o), (8, v)]
     (f {} 0x604 4095).carries .pcw 0x14 [2 ^ 255, 0x604, 4095] = some 7 ∧ pacerSetReg 0x604 = some false ∧ pacerSetReg 0x6B8 = some true ∧
     ran (exec (.pacerSet .pcw last 0x604 4095) (f {} 0x604 4095)) (fun t => status t == 0 && (p255 t).startEntry == 4095 && leNat (result t) == 0) ∧
     ran (exec (.pacerSet .pcw last 0x604 4095) (f { st := .running } 0x604 4095)) (fun t => status t == 0 && (p255 t).startEntry == 0
       && leNat ((result t).drop 16) == 2 ^ 255) ∧
     ran (exec (.pacerSet .pcw last 0x698 0xFFFFFFFFFFFFFFFF) (f {} 0x698 0xFFFFFFFFFFFFFFFF)) (fun t => (p255 t).ptime.getD 3 0 == 0xFFFFFFFFFFFFFFFF) ∧
     ran (exec (.pacerSet .pcw last 0x608 0x10000) (f {} 0x608 0x10000)) (fun t => status t == stRsvEnc) ∧
     ran (exec (.pacerSet .pcw last 0x600 0) (f {} 0x600 0)) (fun t => status t == stRange)) := by decide +kernel

theorem test_plot_reset : (on255 {} 0x12 [(32, 2 ^ 255)]).carries .pcw 0x12 [2 ^ 255] = some 7 ∧
    ran (exec (.plotReset .pcw last []) (on255 { pacer := { st := .faultHalt, startEntry := 9 }, stepMem := [(65535, 1)] } 0x12 [(32, 2 ^ 255)]))
      (fun t => status t == 0 && (p255 t).st == .stopped && (p255 t).startEntry == 0 && (t.plot 255).stepMem == [(65535, 1)]) ∧
    ran (exec (.plotReset .pcw last []) { on255 {} 0x12 [(32, 2 ^ 255)] with power := { st := .retain } }) (fun t => status t == stState) := by
  decide +kernel

theorem test_dma_commands : (asks 0x20 [(8, 64), (4, 4096)]).carries .pcw 0x20 [64, 4096] = some 7 ∧
    (asks 0x21 [(8, 64), (4, 1)]).carries .pcw 0x21 [64, 1] = some 7 ∧
    (asks 0x22 [(8, rsvAddr 0 0), (8, 6), (4, 0x04030201)]).carries .pcw 0x22 [rsvAddr 0 0, 6, 0x04030201] = some 7 ∧
    ran (exec (.dmaToDevice .pcw 64 4096) (asks 0x20 [(8, 64), (4, 4096)])) (fun t => status t == stAccepted
      && t.host.dmas == [{ kind := .toDevice, win := .pcw, hseq := 1, dseq := 7, list := 64, count := 4096, pattern := 0 }]) ∧
    ran (exec (.dmaToDevice .pcw 64 4097) (asks 0x20 [(8, 64), (4, 4097)])) (fun t => status t == stRange && t.host.dmas == []) ∧
    ran (exec (.dmaToHost .pcw 64 1) (asks 0x21 [(8, 64), (4, 1)])) (fun t => status t == stAccepted) ∧
    ran (exec (.dmaFill .pcw (BitVec.ofNat 64 (rsvAddr 0 0)) 6 0x04030201) (asks 0x22 [(8, rsvAddr 0 0), (8, 6), (4, 0x04030201)])) (fun t =>
      status t == stAccepted) ∧
    ran (exec (.dmaFill .pcw 0xFFFFC0000000 6 0) (asks 0x22 [(8, 0xFFFFC0000000), (8, 6), (4, 0)])) (fun t => status t == stRange) := by
  decide +kernel

/-- A list entry in host memory at byte 64: four bytes at 128 against Plot 0's Reservoir from byte 8, which raises flag 63 of Plot 255. -/
def entry1 (n : Nat := 4) (raise : Nat := 255 * 2 ^ 14 + 63 * 2 ^ 8 + 2 ^ 7) : Mem :=
  Mem.write (Mem.write [] 64 (leBytes 8 128 ++ leBytes 8 (rsvAddr 0 8) ++ leBytes 8 n ++ leBytes 4 raise)) 128 [1, 2, 3, 4]

/-- A transfer of a kind over one entry of that list. -/
def moves (kind : HostKind) (m : Mem) (count : Nat := 1) : State :=
  { up with host := { hostMem := m, dmas := [{ kind, win := .jcw, hseq := 5, dseq := 7, list := if kind = .fill then rsvAddr 0 8 else 64, count,
                                               pattern := 0x04030201 }] } }

/-- Type, DSEQ and payload of the newest record. -/
def newest (s : State) : Option (Nat × BitVec 32 × List (BitVec 32)) := s.host.recs.head?.map (fun r => (r.type.toNat, r.dseq, r.payload))

theorem test_host_transfers : (moves .toHost (entry1)).memErr none (rsvAddr 0 8) 4 = 0 ∧ (moves .toHost (entry1)).memWaits (rsvAddr 0 8) 4 = false ∧
    ran (exec (.hostDmaEntryComplete 0 []) (moves .toDevice (entry1))) (fun t => (t.plot 0).resv.bytes 8 4 == [1, 2, 3, 4]
      && (p255 t).flags.get 63 0 == 1 && t.host.dmas == [] && newest t == some (0xF0, 7, [5, 0x20, 0, 4, 0])) ∧
    ran (exec (.hostDmaEntryComplete 0 []) { moves .toHost (entry1 4 0) with plots := [(0, { resv := [(8, 9)] })] }) (fun t =>
      t.host.hostMem.bytes 128 4 == [9, 0, 0, 0] && newest t == some (0xF0, 7, [5, 0x21, 0, 4, 0])) ∧
    ran (exec (.hostDmaEntryComplete 0 []) (moves .toHost (entry1 4 0) 2)) (fun t => t.host.dmas.map (fun x => (x.next, x.bytes)) == [(1, 4)]) ∧
    ran (exec (.hostDmaEntryComplete 0 []) (moves .toHost (entry1 0))) (fun t => newest t == some (0xF0, 7, [5, 0x21, w32 stFailed, 0, 2])) ∧
    ran (exec (.hostDmaEntryComplete 0 []) (moves .fill [])) (fun t => t.host.dmas.length == 1) ∧
    ran (exec (.dmaFillComplete 0 []) (moves .fill [] 6)) (fun t => (t.plot 0).resv.bytes 8 6 == [1, 2, 3, 4, 1, 2]
      && newest t == some (0xF0, 7, [5, 0x22, 0])) ∧
    ran (exec (.dmaFillComplete 0 []) (moves .toHost [])) (fun t => t.host.dmas.length == 1) := by decide +kernel

/-! ### Boot, Marshals, firmware and resets -/

/-- The header of an image: version 9, SVN 3 with COMMIT, state version 4, signed under RFC 8032 with the seeds 01.. and 02... -/
def imgHead : List Byte :=
  [0xA237EEB4918A8DCBCC7E4CC36654A3565F177DA80E7739815C6F0FB4018874F31B12941DBF0967CA725DBA3C2DDB52FD95F10974DDE3888A0000079F314D4B56,
   0x74B59185090C60B05326669BB5FD0D100DC3B946AD78749CA93C92322B25D5D500000000000000000000000000000000000000000000000094B3C98F5B0FF65D,
   0x0000000000001000000010000000000F00000004000000830000000931484956008920377A55E090272C1157BC9473950196AF2574C0F3E7B5B6C2B4240486AB,
   0x9DE1FD852D43D84260D968522C84C499F310936E645D3D2B1CE6EF01DFA3A5360840BC41DEA37E44000000000000100000000000000010000000000000001000,
   0x00000000000000000000000000000000000000000000000000000000000000000000000000000000886A2B5BFED00D0DFE467DE39C0C85DEE9263624A2438FCC,
   0x00000000000000000000000000000000000000000000000000000000000000000000000000000000000000000000000000000000000000000000000000000000,
   0x00000000000000000000000000000000000000000000000000000000000000000000000000000000000000000000000000000000000000000000000000000000,
   0x0B3FC9CE2E184D7FCF2F6709E7D0F9CE102703DCA2261AFB5601D4CFF8B57FA79F58D05F5B0599499869E7C8C8AFDCE913099DD5DBA750BF491863A085BD53A2].flatMap (leBytes 64)

/-- SHA-512 of the root key that signs its manifest. -/
def rootHash1 : List Byte := leBytes 64 0x45E312F52FB0FE88E0420EC4F2A554AEB4FC9636D097DA03B752FEC140BEE158A835364F14C4D5140E03EFBAF3B38EFFBD808BB10CB95D0AAB9E30E78A728437

/-- The image: the header and 3,584 zero bytes. -/
def image1 : List Byte := imgHead ++ List.replicate 3584 0

/-- The fuses under which the image verifies. -/
def sec1 : Sec := { rootHash := rootHash1 }

/-- Every check of R451 passes; its SHA-512 values and signatures are those of another implementation. -/
theorem test_image_passes : imageStep sec1 image1 = none := by decide +kernel

/-- Another length, a revoked key and another root key. -/
theorem test_image_fails : imageStep { sec1 with revoke := 0x8000 } image1 = some 4 ∧
    keyStep {} image1 4 15 = some 2 ∧ imageStep sec1 (image1 ++ [0]) = some 1 := by decide +kernel

/-- The boot window is LOADING with an image in slot A. -/
def booting (img : List Byte) : State :=
  { on with sec := sec1, boot := { perst := false, st := .loading, len := 4096, slotA := img } }

theorem booting_verifies (img : List Byte) (h : imageStep sec1 img = none) (e : img.isEmpty = false) :
    exec (.bootVerifyComplete [5]) (booting img) = .next (bootVerified [5] (booting img)) ∧
    bootVerified [5] (booting img) = commitSvn img (note 0x70 0 [w32 (imgVersion img), 0] noDseq (openWindows (startRoles false
      ((failSpare (booting img) 5).onBoot (fun b => { b.setImage false img (sha512 img) with
        st := .running, code := 0, slot := false, active := BitVec.ofNat 32 (imgVersion img), staged := 0 }))))) := by
  refine ⟨rfl, ?_⟩
  simp only [bootVerified, show (booting img).boot.slotA = img from rfl, show (booting img).sec = sec1 from rfl, e, h]
  rfl

/-- The image starts every role, opens both windows and posts FW_LOADED. -/
theorem test_boot_verify : ran (exec (.bootVerifyComplete [5]) (booting image1)) (fun t => t.boot.st == .running && t.roleUp 4
      && t.host.jcw.st == .idle && t.boot.active == 9 && t.boot.mFailed == 32 && newest t == some (0x70, noDseq, [9, 0])) = true := by
  have e := booting_verifies image1 test_image_passes (by decide +kernel)
  rw [e.1, e.2]
  decide +kernel

theorem test_boot_rejects :
    ran (exec (.bootVerifyComplete []) (booting (List.replicate 64 0))) (fun t => t.boot.st == .rejected && t.boot.code == 3 && t.boot.slotA == []
      && t.sec.bootErr == 1 && newest t == some (0xC4, noDseq, [1, 0, 0])) = true ∧
    ran (exec (.bootVerifyComplete []) (booting [])) (fun t => t.boot.code == 2) = true ∧
    ran (exec (.bootVerifyComplete []) { booting [] with boot := { (booting []).boot with len := 4095 } }) (fun t => t.boot.code == 1) = true ∧
    ran (exec (.bootVerifyComplete []) up) (fun t => t.boot.st == .running) = true := by decide +kernel

/-- GO of an image that is too short and, in READY, of 4,096 bytes of a Reservoir. -/
theorem test_boot_go :
    ran (exec (.bootGo []) { on with boot := { perst := false, st := .rejected, len := 4095, code := 1 } }) (fun t => t.boot.st == .loading
      && t.boot.slotA == [] && t.boot.code == 0) = true ∧
    ran (exec (.bootGo []) up) (fun t => t.boot.st == .running) = true ∧
    ran (exec .bootReady { on with boot := { perst := false, hbmReady := true } }) (fun t => t.boot.st == .ready) = true ∧
    ran (exec .bootReady on) (fun t => t.boot.st == .init) = true := by decide +kernel

theorem test_boot_image : on.memErr none (rsvAddr 0 0) 4096 = 0 ∧ (devRead none (rsvAddr 0 0) 4096 [] on).1.bad = [] ∧
    (match readImage (rsvAddr 0 0) 4096 [] on with
     | (some b, _) => b.length == 4096
     | _ => false) = true := by decide +kernel

/-- A device whose role 2 has crashed n times. -/
def crashed (n : Nat) (role : Nat := 2) : State :=
  { up with boot := { up.boot with crashes := List.replicate n (role, 0) }, power := { capAtGrant := 1000 } }

/-- A first crash restarts the Marshal, engages the hold governor for the Power role, and posts MARSHAL_CRASH. -/
theorem test_crash : (crashed 0).crashable 1 = true ∧
    ran (exec (.watchdogExpiry 1 true) (crashed 0)) (fun t => t.now == 10000000 && (t.marshal 1).st == .restarting && t.power.hold
      && t.power.capHold == 950 && (t.host.recs.map (·.payload)).getD 1 [] == [2, 1, 1, 0, 0]) ∧
    ran (exec (.marshalFault 2 3 0x100000002 true) up) (fun t => (t.marshal 2).st == .restarting
      && newest t == some (0x71, noDseq, [3, 3, 1, 2, 1])) ∧
    ran (exec (.marshalFault 2 4 0 true) up) (fun t => t.host.recs == []) ∧
    ran (exec (.watchdogExpiry 5 true) up) (fun t => t.now == 0) := by decide +kernel

/-- The third crash moves the role to a spare; without one it stays; an image that no longer hashes right stops the role. -/
theorem test_takeover : up.firstSpare = some 4 ∧
    ran (exec (.marshalFault 2 3 0 true) (crashed 2 3)) (fun t => (t.marshal 4).role == 3 && (t.marshal 4).st == .starting
      && (t.marshal 2).role == 0 && (t.marshal 2).st == .failed && newest t == some (0x73, noDseq, [3, 2, 1])) ∧
    (let s := crashed 2 3
     let s := { s with boot := { s.boot with mFailed := 0x30 } }
     s.firstSpare = none ∧ ran (exec (.marshalFault 2 3 0 true) s) (fun t => (t.marshal 2).st == .restarting && (t.marshal 2).role == 3)) ∧
    ran (exec (.marshalFault 0 3 0 false) up) (fun t => (t.marshal 0).st == .off && (t.marshal 0).cause == 4 && t.ras.fatal
      && t.host.jcw.st == .offline) := by decide +kernel

/-- Marshal m of role m + 1 restarts. -/
def restarting (m : Nat) : State := { up with boot := { up.boot with marshals := listUpd roles m (fun x => { x with st := .restarting }) } }

theorem test_restart : (restarting 0).holder 1 = some 0 ∧
    ran (exec (.marshalRestartComplete 1) { restarting 0 with host := { pcw := { st := .busy, req := packet 0x54 [], cur := some 7 },
                                                                        jcw := { st := .busy, latched := some 9 } } }) (fun t => (t.marshal 0).st == .running
      && t.host.jcw.latched.isNone && t.host.pcw.st == .done && status t == stRestarted) ∧
    ran (exec (.marshalRestartComplete 3) { restarting 2 with clock := { ns := 5000 } }) (fun t => newest t == some (0x72, noDseq, [3, 0, 5])) ∧
    ran (exec (.marshalRestartComplete 3) up) (fun t => t.host.recs == []) ∧
    (asks 0xF3 [(4, 4)]).carries .pcw 0xF3 [4] = some 7 ∧
    ran (exec (.marshalRestart .pcw 4) (asks 0xF3 [(4, 4)])) (fun t => status t == stAccepted && (t.marshal 3).st == .restarting) ∧
    ran (exec (.marshalRestart .pcw 5) (asks 0xF3 [(4, 5)])) (fun t => status t == stRange) ∧
    ran (exec (.marshalRestart .pcw 4) (asks 0xF3 [(4, 4)] (restarting 3))) (fun t => status t == stState) ∧
    ran (exec .grantMissing up) (fun t => t.power.hold && t.now == 20000 && newest t == some (0x75, noDseq, [1, 3610, 0, 0])) := by decide +kernel

/-- FW_STAGE of 4,096 bytes of a Reservoir, of fewer, and with another command of firmware in progress. -/
theorem test_fw_stage : (asks 0xF0 [(8, rsvAddr 0 0), (4, 4096)]).carries .pcw 0xF0 [rsvAddr 0 0, 4096] = some 7 ∧
    up.memWaits (rsvAddr 0 0) 4096 = false ∧ up.bothSlots = false ∧
    ran (exec (.fwStage .pcw (BitVec.ofNat 64 (rsvAddr 0 0)) 4096 []) (asks 0xF0 [(8, rsvAddr 0 0), (4, 4096)])) (fun t => status t == stAccepted
      && (t.fwLong 0xF0).isSome) ∧
    ran (exec (.fwStage .pcw (BitVec.ofNat 64 (rsvAddr 0 0)) 4095 []) (asks 0xF0 [(8, rsvAddr 0 0), (4, 4095)])) (fun t => status t == stRange) ∧
    (let s := asks 0xF0 [(8, rsvAddr 0 0), (4, 4096)]
     ran (exec (.fwStage .pcw (BitVec.ofNat 64 (rsvAddr 0 0)) 4096 []) { s with host := { s.host with longs := [{ op := 0xF1, win := .pcw, hseq := 1, dseq := 2, arg := 2 }] } })
       (fun t => status t == stState)) := by decide +kernel

/-- A long firmware command runs, with an image in slot B. -/
def staging (op arg : Nat) (b : Boot → Boot := id) : State :=
  { up with host := { longs := [{ op := BitVec.ofNat 8 op, win := .pcw, hseq := 5, dseq := 7, arg }] }, sec := sec1, boot := b up.boot }

theorem staging_verifies (img : List Byte) (h : imageStep sec1 img = none) :
    exec .fwStageComplete (staging 0xF0 0 fun b => { b with slotB := img }) = .next (finishLong 7 stOk []
      (staging 0xF0 0 fun b => { b with slotB := img, hashB := sha512 img, staged := BitVec.ofNat 32 (imgVersion img) })) := by
  have e : exec .fwStageComplete (staging 0xF0 0 fun b => { b with slotB := img }) = (match imageStep sec1 img with
    | some k => .next (finishLong 7 stFailed [w32 k] (rejectImage k true img 7 (staging 0xF0 0 fun b => { b with slotB := [], hashB := [] })))
    | none => .next (finishLong 7 stOk [] (staging 0xF0 0 fun b =>
        { b with slotB := img, hashB := sha512 img, staged := BitVec.ofNat 32 (imgVersion img) }))) := rfl
  rw [e, h]

/-- A staged image that verifies, and one that does not. -/
theorem test_fw_stage_complete :
    ran (exec .fwStageComplete (staging 0xF0 0 fun b => { b with slotB := image1 })) (fun t => t.boot.staged == 9 && t.host.longs == []
      && newest t == some (0xF0, 7, [5, 0xF0, 0])) = true ∧
    ran (exec .fwStageComplete (staging 0xF0 0 fun b => { b with slotB := [1] })) (fun t => t.boot.slotB == [] && t.sec.bootErrSlot
      && newest t == some (0xF0, 7, [5, 0xF0, w32 stFailed, 1])) = true := by
  refine ⟨?_, by decide +kernel⟩
  rw [staging_verifies image1 test_image_passes]
  decide +kernel

/-- FW_ACTIVATE of the Health role, of reserved roles and without a staged image. -/
theorem test_fw_activate :
    (let s (r : Nat) := asks 0xF1 [(4, r)] { up with boot := { up.boot with slotB := [1], hashB := [2] } }
     (s 16).carries .pcw 0xF1 [16] = some 7 ∧
     ran (exec (.fwActivate .pcw 16) (s 16)) (fun t => status t == stAccepted && (t.fwLong 0xF1).map (·.arg) == some 16) ∧
     ran (exec (.fwActivate .pcw 17) (s 17)) (fun t => status t == stRsvEnc) ∧
     ran (exec (.fwActivate .pcw 32) (s 32)) (fun t => status t == stRsvEnc) ∧
     ran (exec (.fwActivate .pcw 16) (asks 0xF1 [(4, 16)])) (fun t => status t == stState)) := by decide +kernel

/-- The Health role moves to Marshal 4; the last of several roles ends the command; a crash and another state version fail it. -/
theorem test_fw_move :
    ran (exec (.fwRoleMove false) (staging 0xF1 0b11000)) (fun t => (t.marshal 4).role == 4 && (t.marshal 4).slot && (t.marshal 4).st == .running
      && (t.marshal 3).role == 0 && (t.marshal 3).st == .off && (t.host.longs.map (·.arg)) == [0b01000 + 32 * 16] && t.host.recs == []) = true ∧
    ran (exec (.fwRoleMove false) (staging 0xF1 (0b10000 + 32 * 8))) (fun t => newest t == some (0xF0, 7, [5, 0xF1, 0])) = true ∧
    ran (exec (.fwRoleMove true) (staging 0xF1 16)) (fun t => newest t == some (0xF0, 7, [5, 0xF1, w32 stFailed, 3, 0])) = true ∧
    ran (exec (.fwRoleMove false) (staging 0xF1 16 fun b => { b with slotB := List.replicate 0xB0 1 })) (fun t =>
      newest t == some (0xF0, 7, [5, 0xF1, w32 stFailed, 2, 0])) = true ∧
    ran (exec (.fwRoleMove false) (staging 0xF1 16 fun b => { b with mFailed := 0x30 })) (fun t =>
      newest t == some (0xF0, 7, [5, 0xF1, w32 stFailed, 1, 0])) = true ∧
    ran (exec (.fwRoleMove false) up) (fun t => t.host.recs == []) = true := by decide +kernel

theorem test_warm_reset : (asks 0xF2 []).carries .pcw 0xF2 [] = some 7 ∧ up.noRepair = true ∧
    ran (exec (.deviceReset .pcw) (asks 0xF2 [])) (fun t => status t == 0 && t.boot.resetAt == some (10000, 1)) ∧
    ran (exec .warmReset { up with boot := { up.boot with resetAt := some (10000, 1) } }) (fun t => t.now == 0 && t.boot.resetAt.isNone
      && t.boot.lastWarm == some 10000 && newest t == some (0xF2, noDseq, [1])) ∧
    ran (exec .warmReset up) (fun t => t.host.recs == []) ∧
    ran (exec .functionLevelReset { up with host := { d3hot := true } }) (fun t => !t.host.d3hot && newest t == some (0xF2, noDseq, [2])) ∧
    ran (exec .sysResetN { up with boot := { up.boot with lastWarm := some 1, upNs := 50000000 } }) (fun t => t.host.recs == []) ∧
    ran (exec .sysResetN { up with boot := { up.boot with lastWarm := some 0, upNs := 50000000 }, plots := [(271, { pacer := { st := .running } })] })
      (fun t => newest t == some (0xF2, noDseq, [1]) && (t.plot 271).pacer.st == .stopped) := by decide +kernel

/-- A retained image that still hashes right starts again. -/
theorem test_retained : ran (exec .functionLevelReset { up with boot := { up.boot with slotA := [1], hashA := sha512 [1], hbmReady := true } }) (fun t =>
      t.boot.st == .running && t.boot.slotA == [1] && t.host.pcw.st == .idle) = true ∧
    ran (exec .functionLevelReset { up with boot := { up.boot with slotA := [2], hashA := sha512 [1], hbmReady := true } }) (fun t =>
      t.boot.st == .rejected && t.boot.code == 4) = true := by decide +kernel

theorem test_cold_reset :
    ran (exec .coldReset { up with ras := { fuses := [0] }, sec := { lcBits := 3, dbg := 2 } }) (fun t => t.boot.perst && t.ras.fuses == [0]
      && t.sec.lcBits == 3 && t.sec.dbg == 0 && !t.power.off) = true ∧
    ran (exec .powerRemoval up) (fun t => t.power.off && !t.clocked) = true := by decide +kernel

/-- PERST_N is released: with reference A, with B alone, with none, with a fuse word bad in both banks, and again. -/
theorem test_perst_release : State.reset.boot.perst = true ∧ State.reset.power.off = false ∧
    ran (exec (.perstRelease 0x3FFF 7 true false [] false) { State.reset with sec := { lcBits := 3 } }) (fun t => t.clocked && t.router.id == 0x3FFF
      && t.router.idSrc && t.boot.strap == 0x3FFFF && t.sec.lc == 2 && t.sec.signOk && t.boot.hsDone && newest t == some (0xC3, noDseq, [2])) ∧
    ran (exec (.perstRelease 0 0 false true [] false) State.reset) (fun t => t.ras.pllAlt && t.boot.refB) ∧
    ran (exec (.perstRelease 0 0 false false [] false) State.reset) (fun t => !t.clocked && t.ras.bootFault && t.ras.fatalCause == 3) ∧
    ran (exec (.perstRelease 0 0 true true [] true) State.reset) (fun t => t.ras.bootFault && !t.boot.hsDone) ∧
    ran (exec (.perstRelease 9 0 true true [] false) on) (fun t => t == on) := by decide +kernel

/-! ### The seal, repairs, tokens and attestation -/

theorem word0_sealed (s : State) (h : HostPort) (c : Seal) (o : Nat) (lo : 0x2000000 ≤ o) (hi : o < 0x2960000) :
    State.word0 { s with host := h, cfgSeal := c } o = s.word0 o := by
  unfold State.word0
  have a (n : Nat) (k : n ≤ 0x2000000) : ¬ o < n := by omega
  simp only [a _ (by decide : 0x100000 ≤ 0x2000000), a _ (by decide : 0x200000 ≤ 0x2000000), a _ (by decide : 0x300000 ≤ 0x2000000),
    a _ (by decide : 0x400000 ≤ 0x2000000), a _ (by decide : 0x500000 ≤ 0x2000000), a _ (by decide : 0x1000000 + 272 * 0x8000 ≤ 0x2000000),
    show ¬ (0x3000000 ≤ o) by omega, if_false, decide_false, Bool.and_false, Bool.false_and]
  rfl

theorem sealDir_bounds : ∀ e ∈ sealDir, 0x2000000 ≤ e.offset ∧ e.offset + e.count * e.stride ≤ 0x2960000 ∧ 0 < e.stride := by decide +kernel

/-- The sealed set reads alike whatever the host port and the seal hold. -/
theorem sealStream_same (s : State) (h : HostPort) (c : Seal) (e : DirE) (he : e ∈ sealDir) :
    State.sealStream { s with host := h, cfgSeal := c } e = s.sealStream e := by
  have b := sealDir_bounds e he
  have w : State.sealWords { s with host := h, cfgSeal := c } e = s.sealWords e := by
    unfold State.sealWords
    split
    · rfl
    · refine List.map_congr_left fun i hi => ?_
      have hm : i * e.stride + e.stride ≤ e.count * e.stride := by
        rw [← Nat.succ_mul]; exact Nat.mul_le_mul_right _ (List.mem_range.1 hi)
      rw [word0_sealed _ _ _ _ (by omega) (by omega)]
  unfold State.sealStream
  rw [w]

theorem sealRef_same (s : State) (h : HostPort) (c : Seal) : State.sealRef { s with host := h, cfgSeal := c } = s.sealRef := by
  have e : sealDir.flatMap (State.sealStream { s with host := h, cfgSeal := c }) = sealDir.flatMap s.sealStream := by
    exact congrArg List.flatten (List.map_congr_left (sealStream_same s h c))
  unfold State.sealRef
  rw [e]

theorem entryCrcs_same (s : State) (h : HostPort) (c : Seal) : State.entryCrcs { s with host := h, cfgSeal := c } = s.entryCrcs :=
  List.map_congr_left fun e he => congrArg crc32c (sealStream_same s h c e he)

theorem leNat_leBytes (n v : Nat) : leNat (leBytes n v) = v % 256 ^ n := by
  induction n generalizing v with
  | zero => simp [leBytes, leNat, Nat.mod_one]
  | succ n ih => rw [Nat.pow_succ, Nat.mul_comm (256 ^ n) 256, Nat.mod_mul]; simp [leBytes, leNat, ih]

theorem leBytes_length (n v : Nat) : (leBytes n v).length = n := by
  induction n generalizing v with
  | zero => rfl
  | succ n ih => simp [leBytes, ih]

/-- Bytes read from the middle of a run just written. -/
theorem bytes_written (a b c : List Byte) : Mem.bytes (Mem.write [] 0 (a ++ b ++ c)) a.length b.length = b := by
  unfold Mem.bytes
  refine List.ext_getElem (by simp) fun i h1 h2 => ?_
  simp only [List.getElem_map, List.getElem_range]
  have f (m : Mem) (p n k : Nat) (hk : p ≤ k ∧ k < p + n) : Mem.read (m.filter (fun c => p ≤ c.1 && c.1 < p + n)) k = m.read k := by
    unfold Mem.read
    rw [find?_filter_key m (fun j => decide (p ≤ j) && decide (j < p + n)) k]
    simp [hk]
  rw [f _ _ _ _ (by omega), Mem.read_write, if_pos (by simp; omega)]
  simp [List.getD_eq_getElem?_getD, List.getElem?_append, h2, show ¬ a.length + i < a.length by omega]
theorem commit_carries (n : Nat) (h : n < 2 ^ 32) (s : State) (hr : s.roleUp 1 = true) : (asks 0x91 [(4, n)] s).carries .pcw 0x91 [n] = some 7 := by
  have k : pack [(4, n)] = leBytes 4 n := by simp [pack, place, placeEnd, leBytes]
  have p : packet 0x91 [(4, n)] = Mem.write [] 0 ((leBytes 4 (0x91 + 20 * 65536) ++ leBytes 4 1 ++ List.replicate 8 0) ++ leBytes 4 n ++ []) := by
    simp [packet, k, leBytes_length]
  have q : packet 0x91 [(4, n)] = Mem.write [] 0 ([] ++ leBytes 1 0x91 ++ ([0, 20, 0] ++ leBytes 4 1 ++ List.replicate 8 0 ++ leBytes 4 n)) := by
    rw [p]; simp [leBytes]
  have e1 : (packet 0x91 [(4, n)]).le 16 4 = n := by
    have := bytes_written (leBytes 4 (0x91 + 20 * 65536) ++ leBytes 4 1 ++ List.replicate 8 0) (leBytes 4 n) []
    unfold Mem.le
    rw [p]
    exact (congrArg leNat (show _ = leBytes 4 n from this)).trans ((leNat_leBytes 4 n).trans (Nat.mod_eq_of_lt h))
  have e2 : (packet 0x91 [(4, n)]).le 0 1 = 0x91 := by
    have := bytes_written [] (leBytes 1 0x91) ([0, 20, 0] ++ leBytes 4 1 ++ List.replicate 8 0 ++ leBytes 4 n)
    unfold Mem.le
    rw [q]
    exact congrArg leNat (show _ = leBytes 1 0x91 from this)
  have o : opInfo 0x91 = some (false, [4]) := rfl
  simp [State.carries, o, State.window, asks, Window.params, place, e1, e2, opRoles]
  exact hr
/-- SEAL_COMMIT carries the sealed set's own CRC, or another value, with the seal OPEN. -/
theorem test_seal_commit (v : BitVec 32) : (asks 0x91 [(4, v.toNat)]).clocked = true ∧ (asks 0x91 [(4, v.toNat)]).cfgSeal.st = .open ∧
    (asks 0x91 [(4, v.toNat)]).carries .pcw 0x91 [v.toNat] = some 7 ∧ (asks 0x91 [(4, v.toNat)]).sealRef = up.sealRef :=
  ⟨rfl, rfl, commit_carries v.toNat v.isLt up rfl, sealRef_same up _ _⟩

/-- The seal is SEALED with REF 9 and its entries' CRCs as given. -/
def closed (crcs : List (BitVec 32)) : State := { up with cfgSeal := { st := .sealed, ref := 9, crcs } }

/-- A pass over a set that matches changes GEN_SEALCUR alone; the first entry that does not match breaks the seal. -/
theorem test_seal_pass : (closed up.entryCrcs).cfgSeal.crcs = (closed up.entryCrcs).entryCrcs ∧
    (closed []).entryCrcs[0]? ≠ (closed []).cfgSeal.crcs[0]? ∧
    ran (exec (.sealPass none) (closed [])) (fun t => t.cfgSeal.st == .broken && t.cfgSeal.brk && t.cfgSeal.firstBad == 0
      && (t.host.recs.head?.map (fun r => (r.type, r.cls, r.index))) == some (0x89, 4, 0)) = true ∧
    ran (exec (.sealPass none) up) (fun t => t.cfgSeal.st == .open) = true := by
  refine ⟨(entryCrcs_same up _ { st := .sealed, ref := 9, crcs := up.entryCrcs }).symm, by simp [closed, State.entryCrcs, sealDir], ?_, ?_⟩
  · decide +kernel
  · decide +kernel

theorem test_seal_commands : (asks 0x90 []).carries .pcw 0x90 [] = some 7 ∧ (asks 0x92 []).carries .pcw 0x92 [] = some 7 ∧
    ran (exec (.sealOpen .pcw) (asks 0x90 [] (closed []))) (fun t => t.cfgSeal.st == .open && status t == 0) ∧
    ran (exec (.sealStatus .pcw) (asks 0x92 [] (closed []))) (fun t => status t == 0 && leNat (result t) == (closed []).cfgSeal.stat) ∧
    ran (exec (.sealCommit .pcw 9) (asks 0x91 [(4, 9)] (closed []))) (fun t => status t == 0) ∧
    ran (exec (.sealCommit .pcw 8) (asks 0x91 [(4, 8)] (closed []))) (fun t => status t == stState) := by decide +kernel

/-- PLOT_REMAP of logical Plot 255 to physical Plot p. -/
def remaps (p : Nat) (x : Plot := {}) : State := on255 x 0x80 [(4, 255), (4, p)]

theorem test_remap : (remaps 271).carries .pcw 0x80 [255, 271] = some 7 ∧ (remaps 271).phys? 255 = some 255 ∧
    (remaps 271).plotState 271 = .spare ∧
    ran (exec (.plotRemap .pcw 255 271 true) (remaps 271 { resv := [(5, 6)], pacer := { startEntry := 9 } })) (fun t => status t == 0
      && t.phys? 255 == some 271 && t.plotState 271 == .enabled && t.plotState 255 == .retired && (t.plot 271).resv == [(5, 6)]
      && (t.plot 271).pacer.startEntry == 9 && newest t == some (0x83, 7, [255, 271, 1, 15])) ∧
    ran (exec (.plotRemap .pcw 255 271 false) (remaps 271 { resv := [(5, 6)] })) (fun t => (t.plot 271).resv == []) ∧
    ran (exec (.plotRemap .pcw 255 0x1FF true) (remaps 0x1FF)) (fun t => status t == 0 && t.phys? 255 == none && t.plotState 255 == .retired
      && newest t == some (0x84, 7, [255])) ∧
    ran (exec (.plotRemap .pcw 255 272 true) (remaps 272)) (fun t => status t == stRange) ∧
    ran (exec (.plotRemap .pcw 255 271 true) (remaps 271 { pacer := { st := .running } })) (fun t => status t == stState) := by decide +kernel

theorem test_spare_fuse : (asks 0x84 []).carries .pcw 0x84 [] = some 7 ∧
    (let s := asks 0x84 [] { up with plots := [(255, { furrows := [{ map := { badCol := 64, spareEn := true } }, {}, {}, {}] })] }
     ran (exec (.spareFuse .pcw) s) (fun t => status t == 0 && t.ras.fuses == [w32 (2 + 255 * 16 + 64 * 2 ^ 15)] && leNat (result t) == 1023)) ∧
    ran (exec (.spareFuse .pcw) (asks 0x84 [])) (fun t => status t == 0 && leNat (result t) == 1024) ∧
    ran (exec (.spareFuse .pcw) (asks 0x84 [] { up with ras := { fuses := List.replicate 1024 0 } })) (fun t => status t == stExhausted) := by
  decide +kernel

/-- A column of physical Plot 271 with two residue errors in the last 24 h is repaired; with AUTO_COLUMN clear it is not. -/
theorem test_auto_repair :
    (let s (auto : Nat) : State := { up with ras := { auto := BitVec.ofNat 6 auto }, plots := [(271, { residueCnt := [(3 * 1024 + 64, [0, 0])] })] }
     ran (exec (.healthAutoRepair (.column 271 3 64) []) (s 1)) (fun t => t.host.dseq == 1
       && ((t.plot 271).furrow 3).map == { badCol := 64, spareEn := true } && ((t.plot 271).furrow 3).mapPending) = true ∧
     ran (exec (.healthAutoRepair (.column 271 3 64) []) (s 0)) (fun t => t.host.dseq == 0) = true ∧
     ran (exec (.healthAutoRepair (.column 271 3 64) []) { s 1 with boot := { perst := false } }) (fun t => t.host.dseq == 0) = true) := by decide +kernel

theorem test_ce_summary :
    ran (exec .ceSummaryTimer { up with ras := { ceNow := [0, 0, 3, 0, 0, 0], ceSumMs := 1 } }) (fun t => t.now == 1000000
      && newest t == some (0x82, noDseq, [0, 0, 3, 0, 0, 0]) && t.ras.ceNow == [0, 0, 0, 0, 0, 0]) = true ∧
    ran (exec .ceSummaryTimer { up with ras := { ceSumMs := 1 } }) (fun t => t.now == 1000000 && t.host.recs == []) = true := by decide +kernel

/-- A debug token of a level in BLANK, which no key signs: nonce 5, no serial number. -/
def tokenBlank (level : Nat) : List Byte :=
  leBytes 4 0x314D4B56 ++ List.replicate 0x9C 0 ++ leBytes 4 (1 + level * 4) ++ [0, 0, 0, 0] ++ leBytes 8 0 ++ leBytes 8 5 ++ List.replicate 0x148 0

/-- A debug token for FULL in PROD: nonce 5, every serial number 9, signed under RFC 8032 as the image is. -/
def tokenFull : List Byte :=
  [0xA237EEB4918A8DCBCC7E4CC36654A3565F177DA80E7739815C6F0FB4018874F31B12941DBF0967CA725DBA3C2DDB52FD95F10974DDE3888A000007FF314D4B56,
   0x47D7C9041E79E9377CCE0C2DFDEFABA852BA1BA64525BFB74A137B3143CEC32100000000000000000000000000000000000000000000000094B3C98F5B0FF65D,
   0x00000000000000000000000000000005000000000000000900000000000000F904C65C683B709E787193CA389BA6C788CA6D1719452754A080591AB83773D4E1,
   0x00000000000000000000000000000000000000000000000000000000000000000000000000000000000000000000000000000000000000000000000000000000,
   0x00000000000000000000000000000000000000000000000000000000000000000000000000000000000000000000000000000000000000000000000000000000,
   0x00000000000000000000000000000000000000000000000000000000000000000000000000000000000000000000000000000000000000000000000000000000,
   0x00000000000000000000000000000000000000000000000000000000000000000000000000000000000000000000000000000000000000000000000000000000,
   0x0BA2ADD7B46BCA834E73F8B9A701E670203BD07E217A0BD6FE8E6768A2360A371031925C90FE73C29DB50170FA759505977849379FC878B61DCE0779C3E3F30D].flatMap (leBytes 64)

/-- A lifecycle token from BLANK to PROD that names the root of the chain 30 03 01 02 03. -/
def tokenLife : List Byte :=
  [0xA237EEB4918A8DCBCC7E4CC36654A3565F177DA80E7739815C6F0FB4018874F31B12941DBF0967CA725DBA3C2DDB52FD95F10974DDE3888A000007FF314D4B56,
   0x47D7C9041E79E9377CCE0C2DFDEFABA852BA1BA64525BFB74A137B3143CEC32100000000000000000000000000000000000000000000000094B3C98F5B0FF65D,
   0x5D75BBEAA458EEDD0000000000000005000000000000000000000000000000FA04C65C683B709E787193CA389BA6C788CA6D1719452754A080591AB83773D4E1,
   0x00000000000000001BE5A54375EDEC66ED29E907CED76507C459DE45024355114766FB17D1BC2425DB19F7C5DD984E8FB2DE7E8E764783C139C05EBACF6F7EB1,
   0x00000000000000000000000000000000000000000000000000000000000000000000000000000000000000000000000000000000000000000000000000000000,
   0x00000000000000000000000000000000000000000000000000000000000000000000000000000000000000000000000000000000000000000000000000000000,
   0x00000000000000000000000000000000000000000000000000000000000000000000000000000000000000000000000000000000000000000000000000000000,
   0x0F8842BC3F99B63C8D5F3C0C1380522DD167079186BA4F2EF2B66F0AEAA732B3CB2BECBBD51AE2391D9D70F504CD7E73D04BD7E8D81BD9F286CFF7AC3F44FB57].flatMap (leBytes 64)

/-- A command whose token lies in the Reservoir of Plot 0. -/
def tokens (op : Nat) (ps : List (Nat × Nat)) (t : List Byte) (c : Sec) : State :=
  asks op ps { up with sec := c, plots := [(0, { resv := Mem.write [] 0 t })] }

/-- The same for DEBUG_TOKEN of n bytes. -/
def debugs (n : Nat) (t : List Byte) (c : Sec) : State := tokens 0xA2 [(8, rsvAddr 0 0), (4, n)] t c

theorem test_debug_token : (debugs 512 (tokenBlank 1) { nonce := 5 }).carries .pcw 0xA2 [rsvAddr 0 0, 512] = some 7 ∧
    (debugs 512 (tokenBlank 1) { nonce := 5 }).tokenWaits (rsvAddr 0 0) 512 = false ∧
    (debugs 512 (tokenBlank 1) { nonce := 5 }).memErr none (rsvAddr 0 0) 512 = 0 ∧
    tokCause { nonce := 5 } (tokenBlank 1) 1 0 = none ∧ tokCause { nonce := 4 } (tokenBlank 1) 1 0 = some 12 ∧
    tokCause { nonce := 5 } (tokenBlank 3) 1 0 = some 13 ∧ tokCause { nonce := 5, dbg := 1 } (tokenBlank 1) 1 0 = some 13 ∧
    ran (exec (.debugToken .pcw (BitVec.ofNat 64 (rsvAddr 0 0)) 512 []) (debugs 512 (tokenBlank 1) { nonce := 5 })) (fun t => status t == 0
      && t.sec.dbg == 1 && t.sec.debugMax == 1 && leNat (result t) == 1 && newest t == some (0xC0, 7, [0, 1, 0, 1])) ∧
    ran (exec (.debugToken .pcw (BitVec.ofNat 64 (rsvAddr 0 0)) 512 []) (debugs 512 (tokenBlank 1) { nonce := 4 })) (fun t => status t == stFailed
      && t.sec.tokReject && t.sec.tokCause == 12 && newest t == some (0xC1, 7, [1, 12, 0])) ∧
    ran (exec (.debugToken .pcw (BitVec.ofNat 64 (rsvAddr 0 0)) 511 []) (debugs 511 (tokenBlank 1) { nonce := 5 })) (fun t => status t == stFailed
      && leNat (result t) == 1) ∧
    ran (exec (.debugToken .pcw (BitVec.ofNat 64 (rsvAddr 0 0)) 512 []) (debugs 512 [] { lcPending := true })) (fun t => status t == stState) := by
  decide +kernel

/-- PROD with the fuses under which the tokens verify. -/
def sec2 : Sec := { rootHash := rootHash1, lc := 2, lcBits := 2, nonce := 5, serial := 9, signOk := true }

/-- FULL in PROD: a token that verifies, while the machine is quiet; a running Pacer refuses it. -/
theorem test_debug_full : tokCause sec2 tokenFull 1 0 = none ∧ tokValue tokenFull = 2 ∧ (debugs 512 tokenFull sec2).clearOk = true ∧
    (devRead none (rsvAddr 0 0) 512 [] (debugs 512 tokenFull sec2)).1.bad = [] ∧ (plotEvent 1 { st := .running }).clearOk = false := by
  decide +kernel

/-- A lifecycle token from BLANK to PROD burns its bit and withdraws signing. -/
theorem test_lifecycle : (tokens 0xA3 [(4, 2), (8, rsvAddr 0 0), (4, 512)] tokenLife {}).carries .pcw 0xA3 [2, rsvAddr 0 0, 512] = some 7 ∧
    tokCause { rootHash := rootHash1, nonce := 5, cert := [0x30, 3, 1, 2, 3] } tokenLife 2 2 = none ∧
    (let t := (lifecycleSet 2 (keyId tokenLife) 7 up).s
     t.sec.lcBits = 2 ∧ t.sec.lcPending = true ∧ t.sec.lcTarget = 2 ∧ t.sec.lc = 0 ∧ newest t = some (0xC2, 7, [0, 2, 15])) ∧
    ran (exec (.lifecycle .pcw 1 (BitVec.ofNat 64 (rsvAddr 0 0)) 512 []) (tokens 0xA3 [(4, 1), (8, rsvAddr 0 0), (4, 512)] [] { lcPending := true }))
      (fun t => status t == stState) := by decide +kernel

theorem test_token_lower : (asks 0xA2 [(8, 0), (4, 0)]).carries .pcw 0xA2 [0, 0] = some 7 ∧
    ran (exec (.debugTokenLower .pcw 0) (asks 0xA2 [(8, 0), (4, 0)] { up with sec := { dbg := 2, debugMax := 2 } })) (fun t => t.sec.dbg == 0
      && t.sec.debugMax == 2 && newest t == some (0xC0, 7, [2, 0, 0, 2])) := by decide +kernel

/-- FULL takes effect 33,554,432 ns after the clear began, with every memory at zero. -/
theorem test_content_clear :
    (let s : State := { up with sec := { sec2 with clearing := true, clearTok := some (7, 15, 0) }, plots := [(271, { resv := [(0, 1)] })],
                                host := { longs := [{ op := 0xA2, win := .pcw, hseq := 5, dseq := 7, arg := 0 }] } }
     ran (exec .contentClearComplete s) (fun t => t.now == 33554432 && t.sec.dbg == 2 && !t.sec.clearing && !t.sec.signOk && (t.plot 271).resv == []
       && t.host.longs == [] && newest t == some (0xF0, 7, [5, 0xA2, 0, 2])) = true ∧
     ran (exec .contentClearComplete up) (fun t => t.now == 0) = true) := by decide +kernel

/-- At most MAX bytes go to the host; the chain begins with its length. -/
theorem test_to_host : (asks 0xA0 [(8, 64), (4, 3)]).carries .pcw 0xA0 [64, 3] = some 7 ∧ (asks 0xA1 [(8, 64), (4, 2)]).carries .pcw 0xA1 [64, 2] = some 7 ∧
    ran (exec (.measurements .pcw 64 2) (asks 0xA0 [(8, 64), (4, 2)])) (fun t => status t == 0 && leNat (result t) == 2
      && t.host.hostMem == [(64, 1), (65, 1)]) ∧
    ran (exec (.devidChain .pcw 64 2) (asks 0xA1 [(8, 64), (4, 2)] { up with sec := { lc := 2, cert := [0x30, 3, 1, 2, 3] } })) (fun t =>
      leNat (result t) == 2 && t.host.hostMem == [(64, 73)]) ∧
    ran (exec (.devidChain .pcw 64 2) (asks 0xA1 [(8, 64), (4, 2)])) (fun t => leNat (result t) == 0 && t.host.hostMem == []) := by decide +kernel

/-- A device in PROD with a chain. -/
def attests (c : Sec → Sec := id) : State := { up with sec := c { lc := 2, signOk := true, cert := [0x30, 3, 1, 2, 3] } }

/-- The SPDM response. -/
def said (s : State) : List Byte := s.sec.spdm

theorem test_spdm : (attests).roleUp 1 = true ∧ (attests).roleUp 4 = true ∧
    ran (exec (.getVersion true) up) (fun t => said t == [0x10, 0x04, 0, 0, 0, 1, 0, 0x12]) ∧
    ran (exec (.getVersion false) (restarting 3)) (fun t => said t == []) ∧
    ran (exec (.getCapabilities false) up) (fun t => (said t).take 2 == [0x12, 0x61] && (said t).length == 20 && t.free == 9) ∧
    ran (exec (.getDigests true) up) (fun t => said t == [0x12, 0x7F, 5, 0]) ∧
    ran (exec (.negotiateAlgorithms true { ed25519 := true, sha512 := true, dmtf := false }) (attests)) (fun t => (said t).length == 36
      && (said t).getD 6 9 == 0 && ((said t).drop 8).take 8 == [8, 0, 0, 0, 0, 4, 0, 0]) ∧
    ran (exec (.getDigests false) (attests)) (fun t => (said t).take 4 == [0x12, 0x01, 0, 1] && (said t).length == 68) ∧
    ran (exec (.getCertificate true 0 72 9) (attests)) (fun t => said t == [0x12, 0x02, 0, 0, 1, 0, 0, 0, 3]) ∧
    ran (exec (.getCertificate true 0 73 9) (attests)) (fun t => said t == [0x12, 0x7F, 1, 0]) := by decide +kernel

theorem test_spdm_signed :
    ran (exec (.challenge true 0 (List.replicate 32 7)) (attests)) (fun t => (said t).take 4 == [0x12, 0x03, 0, 1]) = true ∧
    ran (exec (.challenge true 0 (List.replicate 32 7)) (attests fun c => { c with signOk := false })) (fun t => said t == [0x12, 0x7F, 5, 0]) = true ∧
    ran (exec (.getMeasurements true 255 false []) (attests fun c => { c with signOk := false })) (fun t => (said t).take 5 == [0x12, 0x60, 0, 0, 7]) = true ∧
    ran (exec (.getMeasurements false 0 false []) (attests)) (fun t => (said t).take 8 == [0x12, 0x60, 7, 0, 0, 0, 0, 0]) = true ∧
    ran (exec (.getMeasurements true 8 false []) (attests)) (fun t => said t == [0x12, 0x7F, 1, 0]) = true := by decide +kernel

theorem test_mctp :
    ran (exec (.mctpRequest .monitor) up) (fun t => t.sec.pldm.length == 44) = true ∧
    ran (exec (.mctpRequest (.setTdp 2400)) up) (fun t => t.power.tdp == 2400) = true ∧
    ran (exec (.mctpRequest (.setTdp 3801)) up) (fun t => t.power.tdp == 3800) = true ∧
    ran (exec (.mctpRequest (.setCap 7)) up) (fun t => t.power.capBmc == 7) = true ∧
    ran (exec (.mctpRequest (.setCeil 0x8000 700)) up) (fun t => t.power.islands.map (·.ceilBmc) == List.replicate 15 0 ++ [700]) = true ∧
    ran (exec (.mctpRequest (.setCap 7)) (restarting 3)) (fun t => t.power.capBmc == 0) = true := by decide +kernel

/-- The test port is open at a level. -/
def probes (level : Nat) (halted : Bool := false) : State :=
  { up with sec := { dbg := BitVec.ofNat 2 level }, boot := { up.boot with marshals := listUpd roles 5 (fun x => { x with halted }) } }

theorem test_debug_port : (probes 0).portOpen .idcode = true ∧ (probes 1).portOpen (.rsvRead 0 0 1) = false ∧
    ran (exec (.debugPortAccess (.rsvRead 271 0 1)) (probes 1)) (fun t => t.host.dbgData == []) ∧
    ran (exec (.debugPortAccess (.rsvWrite 271 16777215 [7])) (probes 2)) (fun t => (t.plot 271).resv == [(16777215, 7)]
      && ran (exec (.debugPortAccess (.rsvRead 271 16777215 1)) t) (fun u => u.host.dbgData == [7])) ∧
    ran (exec (.debugPortAccess (.rsvWrite 271 16777216 [7])) (probes 2)) (fun t => (t.plot 271).resv == []) ∧
    (match exec (.debugPortAccess (.step 5)) (probes 2 true) with
     | .refused .marshalInstruction => true
     | _ => false) = true ∧
    ran (exec (.debugPortAccess (.step 5)) (probes 2)) (fun t => t.host.dbgData == []) ∧
    ran (exec (.debugPortAccess .idcode) up) (fun t => t.host.dbgData.length == 4) := by decide +kernel

/-! ### Invariants -/

/-- A device in service with a command waiting. -/
def waits (c : Instr) : State := { up with pending := [c] }

/-- The wait counters of every Plot add up, and a step answers a next state. -/
theorem test_counts : (waits (.flagRaise .pcw 1 0)).countsAdd ∧ ran (step (waits (.flagRaise .pcw 1 0))) (fun t => t.pending == []) = true ∧
    (∃ q : Pacer, q.countsAdd ∧ q.pcnt = [3, 1, 0, 2, 0, 0, 0, 0, 0, 0, 0]) := by
  refine ⟨fun p => ?_, by decide +kernel, { pcnt := [3, 1, 0, 2, 0, 0, 0, 0, 0, 0, 0] }, ⟨rfl, rfl⟩, rfl⟩
  show Pacer.countsAdd {}
  exact ⟨rfl, rfl⟩

/-- A device in service whose Plot map has been changed: Plot 7 is RETIRED and 271 serves in its place; an event is held on it. -/
def remapped : State := { waits .bootReady with
  ras := { plotSt := [(7, .retired), (271, .enabled)], plotMap := [(7, 271)] }
  starter := { evs := [(255, { valid := true, status := 1, kind := 1, held := some [(6, 6), (7, 271)] })] } }

theorem test_remapped : remapped.plotsInv := by
  have hp : ∀ l p, remapped.phys? l = some p → l < 256 ∧ (if l = 7 then p = 271 else p = l) := by
    intro l p h
    by_cases c : l = 7
    · subst c
      have e : remapped.phys? 7 = some 271 := by decide +kernel
      rw [e] at h; cases h; decide
    · have g : remapped.ras.plotMap.get l (BitVec.ofNat 9 l) = BitVec.ofNat 9 l := by
        simp [remapped, Tbl.get, List.find?, show ((7 : Nat) == l) = false by simpa using Ne.symm c]
      unfold State.phys? at h
      rw [g] at h
      simp [remapped] at h
      rw [if_neg c]
      have := h.1
      have k := h.2
      omega
  refine ⟨fun l m p a b => ?_, fun l p h => ?_, fun e h g => ?_⟩
  · have x := hp l p a
    have y := hp m p b
    split at x <;> split at y <;> omega
  · have x := hp l p h
    by_cases c : l = 7
    · rw [if_pos c] at x; rw [x.2]; decide +kernel
    · rw [if_neg c] at x
      have k7 : ((7 : Nat) == p) = false := by simp; omega
      have k271 : ((271 : Nat) == p) = false := by simp; omega
      simp [State.plotState, remapped, Tbl.get, List.find?, k7, k271]
      omega
  · by_cases c : e = 255
    · subst c
      have q : (remapped.ev 255).held = some [(6, 6), (7, 271)] := by decide +kernel
      rw [q] at g; cases g; decide
    · have q : remapped.ev e = {} := by
        simp [State.ev, remapped, Tbl.get, List.find?, show ((255 : Nat) == e) = false by simpa using Ne.symm c]
      rw [q] at g; cases g

/-- The control invariant holds with a record in the Journal, debug level FULL and a remapped Plot. -/
theorem test_control : State.controlInv { remapped with
    host := { jhead := 5, recs := [{ jseq := 4 }, { jseq := 3 }] }, sec := { dbg := 2, debugMax := 2 } } := by
  refine ⟨rfl, by decide, by decide, by decide, fun i r h => ?_, test_remapped, fun p x h => ?_, fun l x h => ?_, rfl, rfl, by decide⟩
  case refine_2 => subst h; exact ⟨rfl, List.nodup_nil, fun c h => by cases h⟩
  case refine_3 => subst h; exact ⟨rfl, rfl, rfl, fun n h => by cases h⟩
  match i, h with
  | 0, h => simp at h; subst h; rfl
  | 1, h => simp at h; subst h; rfl
  | i + 2, h => simp at h

/-- Regions 0 and 63, apart in device addresses and in the bytes of stack 23. -/
def twoRegions : Tbl Region :=
  [(0, { size := 24, valid := true }), (63, { base := 24, size := 8, soff := 1, mode := 2, stack := 23, valid := true })]

theorem twoRegions_keys (k : Nat) (h : (twoRegions.get k {}).valid = true) : k = 0 ∨ k = 63 := by
  refine Decidable.byContradiction fun c => ?_
  rw [not_or] at c
  have e : twoRegions.get k {} = {} := by
    simp [twoRegions, Tbl.get, List.find?, show ((0 : Nat) == k) = false by simpa using Ne.symm c.1,
      show ((63 : Nat) == k) = false by simpa using Ne.symm c.2]
  rw [e] at h
  cases h

theorem test_regions : State.regionsApart { waits (.regionWrite 63 .soff 9) with regions := { tbl := twoRegions } } := by
  have m0 : (twoRegions.get 0 {}).stks = List.range 24 := by decide +kernel
  have m63 : (twoRegions.get 63 {}).stks = [23] := by decide +kernel
  have s0 : ∀ k ∈ List.range 24, (twoRegions.get 0 {}).on k = (0, 1) := by decide +kernel
  have s63 : (twoRegions.get 63 {}).on 23 = (1, 9) := by decide +kernel
  have b : (twoRegions.get 0 {}).base.toNat = 0 ∧ (twoRegions.get 0 {}).size.toNat = 24 ∧ (twoRegions.get 63 {}).base.toNat = 24 := by decide +kernel
  refine ⟨fun m n x y h hx hy vx vy => ?_, fun m r k u hr vr hk => ?_⟩
  · replace hx : x = twoRegions.get m {} := hx
    replace hy : y = twoRegions.get n {} := hy
    subst hx hy
    have z := s0 23 (by decide)
    rcases twoRegions_keys m vx with rfl | rfl <;> rcases twoRegions_keys n vy with rfl | rfl
    all_goals first
      | exact absurd rfl h
      | (refine ⟨fun u p => by omega, fun k u kx ky => ?_⟩
         first
           | (rw [m63, List.mem_singleton] at ky; subst ky; rw [s63, z]; omega)
           | (rw [m63, List.mem_singleton] at kx; subst kx; rw [s63, z]; omega))
  · replace hr : r = twoRegions.get m {} := hr
    subst hr
    rcases twoRegions_keys m vr with rfl | rfl
    · rw [m0] at hk; rw [s0 k hk]; omega
    · rw [m63, List.mem_singleton] at hk; subst hk; rw [s63]; omega

/-! ### Well-formedness: one ill-formed term per check -/

theorem test_ill_formed_0 : ([.thermalTrip (some 24) 0,
    .flumeRowRead 272 [],
    .flumeSegmentWrite 272 0 0,
    .flumeSegmentWrite 0 4 0,
    .flumeSegmentWrite 0 0 8,
    .columnGroupTakeRow 272 0 0 none,
    .columnGroupTakeRow 0 4 0 none,
    .columnGroupTakeRow 0 0 8 none,
    .basinRowWrite 272 0 0 [],
    .basinRowWrite 0 4 0 [],
    .basinRowWrite 0 0 8 [],
    .shadowLoadStart 272 [],
    .shadowLoadComplete 272,
    .shadowExchange 272 0,
    .shadowExchange 0 4,
    .pltFcolmapWrite 272 0 0,
    .pltFcolmapWrite 0 4 0,
    .pltBspareWrite 272 0 0 0,
    .pltBspareWrite 0 4 0 0,
    .pltBspareWrite 0 0 4 0] : List Instr).all (fun c => !c.wf) = true := by decide +kernel

theorem test_ill_formed_1 : ([.pltWexpWrite 272 0,
    .cntClr 272,
    .pcntctlClr 272,
    .pltPflagsetWrite 272 0,
    .pltRsvrepentWrite 272 0 [],
    .workEntryIssue 272,
    .timeWaitExpiry 272,
    .fillTimeout 272,
    .nop 272,
    .loopset 272,
    .loop 272,
    .skip 272,
    .return_ 272,
    .setix 272,
    .addix 272,
    .xorix 272,
    .timeadd 272,
    .clear 272,
    .batchend 272,
    .batchendEffect 272] : List Instr).all (fun c => !c.wf) = true := by decide +kernel

theorem test_ill_formed_2 : ([.slotfree 272,
    .slotfreeEffect 272,
    .halt 272,
    .entryComplete 272 0,
    .drainComplete 272 [],
    .drain 272 {},
    .add 272 {},
    .mul 272 {},
    .max 272 {},
    .axpby 272 {},
    .exp2 272 {},
    .log2 272 {},
    .rcp 272 {},
    .rsqrt 272 {},
    .convert 272 {},
    .split 272 {},
    .rowscale 272 {},
    .rescaleAcc 272 {},
    .softmaxBlock 272 {},
    .tagread 272 {}] : List Instr).all (fun c => !c.wf) = true := by decide +kernel

theorem test_ill_formed_3 : ([.fillc 272 {},
    .inboxAppendReserve 272 0 false 0 0 0,
    .inboxAppendReserve 0 4 false 0 0 0,
    .inboxAppendComplete 272 0 0,
    .inboxAppendComplete 0 4 0,
    .regionWrite 64 .base 0,
    .dmaTransferStart 272,
    .dmaTransferComplete 272,
    .hbmDemandRead 24 0 .clean none,
    .hbmWrite 24 0 (List.replicate 32 0),
    .hbmWrite 0 0 [],
    .hbmWrite 0 1 (List.replicate 32 0),
    .hbmPartialWrite 24 0 [0] .clean,
    .hbmPartialWrite 0 0 [] .clean,
    .hbmPartialWrite 0 0 (List.replicate 33 0) .clean,
    .patrolScrubRead 24 [],
    .dieLinkReplay 24 false,
    .hbmRefresh 24,
    .hbmTempThreshold 24 0,
    .hbmIdlePowerDown 24 0] : List Instr).all (fun c => !c.wf) = true := by decide +kernel

theorem test_ill_formed_4 : ([.hbmIdlePowerDown 0 32,
    .pprDrainDone 24 0,
    .pprDrainDone 0 32,
    .pprRowReadDone 24 0 [],
    .pprRowReadDone 0 32 [],
    .pprProgramDone 24 0,
    .pprProgramDone 0 32,
    .pprComplete 24 0,
    .pprComplete 0 32,
    .spareTargetReady 24,
    .spareBlockCopied 24 [],
    .spareCopyComplete 24,
    .sluiceElementArrive 24 0 0 [],
    .sluiceElementArrive 0 0x40000 0 [],
    .sluiceBlockUpdate 24 0 none,
    .sluiceHoldTimeout 24 0,
    .sluiceEvalComplete 24,
    .sluiceGatherServe 24 { ctx := 0, seg := 0 },
    .gatherWaitRetry 24 0,
    .pipemapWrite 24 0] : List Instr).all (fun c => !c.wf) = true := by decide +kernel

theorem test_ill_formed_5 : ([.pipemapApply 24,
    .verdict 256 [],
    .commit 256 [],
    .rollback 256 [],
    .verdictResult [],
    .runStart 256 [],
    .runStop 256 [] 0 [],
    .runPause 256 [] 0,
    .runResume 256 [],
    .collLaunch 256 [],
    .starterPowerState 256 [],
    .starterPowerCap 256,
    .starterClockCeil 256,
    .drainBegin 256 [],
    .routeSwap 256 [],
    .drainEnd 256 [],
    .starterTelemetry 256,
    .starterDispatch 256,
    .timing 18 (.request false),
    .lnkCfgEnableWrite 18 0] : List Instr).all (fun c => !c.wf) = true := by decide +kernel

theorem test_ill_formed_6 : ([.linkDisableTimeout 18,
    .laneEqualisationDone 18,
    .laneDeskewDone 18,
    .laneQualifyWindowEnd 18 0 [0, 0, 0, 0, 0] 0,
    .laneQualifyWindowEnd 0 0 [] 0,
    .laneMapAgreed 18,
    .bibResendTimer 18,
    .bib 18 0,
    .linkTrainingTimeout 18,
    .flitTransmit 18,
    .flitReceive 18 { type := 0, seq := 0, ackSeq := 0, nak := false, replay := false },
    .markerReceive 18 [] none,
    .laneSignalLoss 18 0 false,
    .laneSignalLoss 0 5 false,
    .symbolWindowEnd 18 [0, 0, 0, 0, 0],
    .symbolWindowEnd 0 [],
    .retrainComplete 18 0,
    .retrainTimeout 18,
    .laneRequalifyComplete 18 false,
    .canalWrite 18 0] : List Instr).all (fun c => !c.wf) = true := by decide +kernel

theorem test_ill_formed_7 : ([.packetReceive 18 {},
    .routePacket 18,
    .spillwayTurn 18,
    .packetInject 6 0,
    .packetInject 0 288,
    .ejection 4,
    .batonParkDeliver 6 0,
    .batonParkDeliver 0 16384,
    .spillCredit 18,
    .discoveryPass 18,
    .linkSettle 18,
    .admissionNotice 18 false,
    .collPost .pcw [],
    .flagsLaunch 64,
    .post 0 4096 0 0 0,
    .post 0 0 0 16384 0,
    .retry 4096 0,
    .postRetryTimer 128,
    .go 4096 0,
    .abort 4096 0 ⟨0, 0, 0, 0, []⟩] : List Instr).all (fun c => !c.wf) = true := by decide +kernel

theorem test_ill_formed_8 : ([.collCount 4096 0 0 0,
    .collCount 0 0 16384 0,
    .collData 4096 0 { src := 0, up := true, shard := 0, a := 0, b := 0, blk := 0, data := [] } [],
    .collCredit 4096 0 0,
    .collCredit 0 0 16384,
    .collBlockSend 128 0 [],
    .collTimeout 128,
    .pieceComplete 128 false 0,
    .pieceComplete 0 false 4096,
    .echo .pcw (List.replicate 1009 0),
    .bar4Write 0 (List.replicate 4097 0) [],
    .wideRegisterRead false 0 0,
    .wideRegisterRead false 0 65,
    .registerWrite false 0 [] 0 [],
    .registerWrite false 0 (List.replicate 65 0) 0 [],
    .thermalLoop [],
    .thermalThrottle 16 0,
    .droop 16 false,
    .watchdogExpiry 6 false,
    .marshalFault 6 0 0 false] : List Instr).all (fun c => !c.wf) = true := by decide +kernel

theorem test_ill_formed_9 : ([.marshalRestartComplete 0,
    .marshalRestartComplete 5] : List Instr).all (fun c => !c.wf) = true := by decide +kernel

theorem test_well_formed_0 : ([.thermalTrip none 0,
    .flumeRowRead 0 [],
    .flumeSegmentWrite 0 0 0,
    .columnGroupTakeRow 0 0 0 none,
    .basinRowWrite 0 0 0 [],
    .shadowLoadStart 0 [],
    .shadowLoadComplete 0,
    .shadowExchange 0 0,
    .pltFcolmapWrite 0 0 0,
    .pltBspareWrite 0 0 0 0,
    .pltWexpWrite 0 0,
    .cntClr 0,
    .pcntctlClr 0,
    .pltPflagsetWrite 0 0,
    .pltRsvrepentWrite 0 0 [],
    .workEntryIssue 0,
    .timeWaitExpiry 0,
    .fillTimeout 0,
    .nop 0,
    .loopset 0] : List Instr).all (fun c => c.wf) = true := by decide +kernel

theorem test_well_formed_1 : ([.loop 0,
    .skip 0,
    .return_ 0,
    .setix 0,
    .addix 0,
    .xorix 0,
    .timeadd 0,
    .clear 0,
    .batchend 0,
    .batchendEffect 0,
    .slotfree 0,
    .slotfreeEffect 0,
    .halt 0,
    .entryComplete 0 0,
    .drainComplete 0 [],
    .drain 0 {},
    .add 0 {},
    .mul 0 {},
    .max 0 {},
    .axpby 0 {}] : List Instr).all (fun c => c.wf) = true := by decide +kernel

theorem test_well_formed_2 : ([.exp2 0 {},
    .log2 0 {},
    .rcp 0 {},
    .rsqrt 0 {},
    .convert 0 {},
    .split 0 {},
    .rowscale 0 {},
    .rescaleAcc 0 {},
    .softmaxBlock 0 {},
    .tagread 0 {},
    .fillc 0 {},
    .inboxAppendReserve 0 0 false 0 0 0,
    .inboxAppendComplete 0 0 0,
    .regionWrite 0 .base 0,
    .dmaTransferStart 0,
    .dmaTransferComplete 0,
    .hbmDemandRead 0 0 .clean none,
    .hbmWrite 0 0 (List.replicate 32 0),
    .hbmPartialWrite 0 0 [0] .clean,
    .patrolScrubRead 0 []] : List Instr).all (fun c => c.wf) = true := by decide +kernel

theorem test_well_formed_3 : ([.dieLinkReplay 0 false,
    .hbmRefresh 0,
    .hbmTempThreshold 0 0,
    .hbmIdlePowerDown 0 0,
    .pprDrainDone 0 0,
    .pprRowReadDone 0 0 [],
    .pprProgramDone 0 0,
    .pprComplete 0 0,
    .spareTargetReady 0,
    .spareBlockCopied 0 [],
    .spareCopyComplete 0,
    .sluiceElementArrive 0 0 0 [],
    .sluiceBlockUpdate 0 0 none,
    .sluiceHoldTimeout 0 0,
    .sluiceEvalComplete 0,
    .sluiceGatherServe 0 { ctx := 0, seg := 0 },
    .gatherWaitRetry 0 0,
    .pipemapWrite 0 0,
    .pipemapApply 0,
    .verdict 0 []] : List Instr).all (fun c => c.wf) = true := by decide +kernel

theorem test_well_formed_4 : ([.commit 0 [],
    .rollback 0 [],
    .verdictResult (List.replicate 16 0),
    .runStart 0 [],
    .runStop 0 [] 0 [],
    .runPause 0 [] 0,
    .runResume 0 [],
    .collLaunch 0 [],
    .starterPowerState 0 [],
    .starterPowerCap 0,
    .starterClockCeil 0,
    .drainBegin 0 [],
    .routeSwap 0 [],
    .drainEnd 0 [],
    .starterTelemetry 0,
    .starterDispatch 0,
    .timing 0 (.request false),
    .lnkCfgEnableWrite 0 0,
    .linkDisableTimeout 0,
    .laneEqualisationDone 0] : List Instr).all (fun c => c.wf) = true := by decide +kernel

theorem test_well_formed_5 : ([.laneDeskewDone 0,
    .laneQualifyWindowEnd 0 0 [0, 0, 0, 0, 0] 0,
    .laneMapAgreed 0,
    .bibResendTimer 0,
    .bib 0 0,
    .linkTrainingTimeout 0,
    .flitTransmit 0,
    .flitReceive 0 { type := 0, seq := 0, ackSeq := 0, nak := false, replay := false },
    .markerReceive 0 [] none,
    .laneSignalLoss 0 0 false,
    .symbolWindowEnd 0 [0, 0, 0, 0, 0],
    .retrainComplete 0 0,
    .retrainTimeout 0,
    .laneRequalifyComplete 0 false,
    .canalWrite 0 0,
    .packetReceive 0 {},
    .routePacket 0,
    .spillwayTurn 0,
    .packetInject 0 0,
    .ejection 0] : List Instr).all (fun c => c.wf) = true := by decide +kernel

theorem test_well_formed_6 : ([.batonParkDeliver 0 0,
    .spillCredit 0,
    .discoveryPass 0,
    .linkSettle 0,
    .admissionNotice 0 false,
    .collPost .pcw (List.replicate 128 0),
    .flagsLaunch 0,
    .post 0 0 0 0 0,
    .retry 0 0,
    .postRetryTimer 0,
    .go 0 0,
    .abort 0 0 ⟨0, 0, 0, 0, []⟩,
    .collCount 0 0 0 0,
    .collData 0 0 { src := 0, up := true, shard := 0, a := 0, b := 0, blk := 0, data := [] } [],
    .collCredit 0 0 0,
    .collBlockSend 0 0 [],
    .collTimeout 0,
    .pieceComplete 0 false 0,
    .echo .pcw [0],
    .bar4Write 0 [0] []] : List Instr).all (fun c => c.wf) = true := by decide +kernel

theorem test_well_formed_7 : ([.wideRegisterRead false 0 4,
    .registerWrite false 0 [0] 0 [],
    .thermalLoop (List.replicate 16 0),
    .thermalThrottle 0 0,
    .droop 0 false,
    .watchdogExpiry 0 false,
    .marshalFault 0 0 0 false,
    .marshalRestartComplete 1] : List Instr).all (fun c => c.wf) = true := by decide +kernel

end Sys2Proof.Tests
end

/-! SUPPORT. What one row position of a vector operation leaves in the Reservoir (R72, R75, R80, R117, R118): the values of its
elements, the frame of what records them, then an equation for each operation. They settle O11. -/

namespace Sys2Proof.Machine.VectorUnit

/-! ### Little-endian bytes

The laws of `Mem` speak of single bytes; a proof does not lean on the lemmas of the tests' module. -/

@[simp] theorem length_leBytes (n v : Nat) : (leBytes n v).length = n := by
  induction n generalizing v with
  | zero => rfl
  | succ n ih => simp [leBytes, ih]

theorem leNat_leBytes (n v : Nat) : leNat (leBytes n v) = v % 256 ^ n := by
  induction n generalizing v with
  | zero => simp [leBytes, leNat, Nat.mod_one]
  | succ n ih =>
    have hb : (BitVec.ofNat 8 v).toNat = v % 256 := BitVec.toNat_ofNat v 8
    rw [leBytes, leNat, ih, hb, Nat.pow_succ', Nat.mod_mul]

/-- Cutting a memory to a run does not show in the run. -/
theorem read_filter_run (m : Mem) {a n i : Nat} (h : i < n) :
    Mem.read (m.filter (fun c => a ≤ c.1 && c.1 < a + n)) (a + i) = m.read (a + i) := by
  unfold Mem.read
  rw [find?_filter_key m (fun k => a ≤ k && k < a + n), if_pos (by simp [h])]

theorem bytes_eq_reads (m : Mem) (a n : Nat) : m.bytes a n = (List.range n).map (fun i => m.read (a + i)) :=
  List.map_congr_left fun _ hi => read_filter_run m (List.mem_range.1 hi)

/-- A run reads back as it was written. -/
theorem bytes_write_same (m : Mem) (a : Nat) (bs : List Byte) : (m.write a bs).bytes a bs.length = bs := by
  rw [bytes_eq_reads]
  refine List.ext_getElem (by simp) fun i _ hi => ?_
  simp [Mem.read_write, hi]

/-- A number that fits in its bytes reads back as it was written. -/
theorem le_write_leBytes (m : Mem) (a : Nat) {n v : Nat} (h : v < 256 ^ n) :
    (m.write a (leBytes n v)).le a n = v := by
  have hb := bytes_write_same m a (leBytes n v)
  rw [length_leBytes] at hb
  rw [Mem.le, hb, leNat_leBytes, Nat.mod_eq_of_lt h]

/-! ### Numbers made of bits -/

/-- A sum of powers of two with exponents from n on is a multiple of 2 ^ n. -/
theorem two_pow_dvd_sum_ite {α : Type} {l : List α} {key : α → Nat} {n : Nat} (hn : ∀ q ∈ l, n ≤ key q) (P : α → Bool) :
    2 ^ n ∣ (l.map (fun q => if P q then 2 ^ key q else 0)).sum := by
  induction l with
  | nil => exact Nat.dvd_zero _
  | cons q l ih =>
    rw [List.map_cons, List.sum_cons]
    refine Nat.dvd_add ?_ (ih fun r hr => hn r (List.mem_cons_of_mem q hr))
    split
    · exact Nat.pow_dvd_pow 2 (hn q List.mem_cons_self)
    · exact Nat.dvd_zero _

theorem testBit_ite_two_pow (b : Bool) (k i : Nat) :
    (if b then 2 ^ k else 0).testBit i = true ↔ b = true ∧ k = i := by
  cases b
  · simp only [Bool.false_eq_true, if_false, Nat.zero_testBit, false_and]
  · simp only [if_true, Nat.testBit_two_pow, decide_eq_true_eq, true_and]

/-- A sum of powers of two with rising exponents has the bits that its terms name. -/
theorem testBit_sum_ite_two_pow {α : Type} {l : List α} {key : α → Nat} (hl : l.Pairwise (fun q r => key q < key r))
    (P : α → Bool) (i : Nat) :
    (l.map (fun q => if P q then 2 ^ key q else 0)).sum.testBit i = true ↔ ∃ q, q ∈ l ∧ P q = true ∧ key q = i := by
  induction l with
  | nil =>
    simp only [List.map_nil, List.sum_nil, Nat.zero_testBit, Bool.false_eq_true, List.not_mem_nil, false_and, exists_false]
  | cons q l ih =>
    obtain ⟨hq, hl⟩ := List.pairwise_cons.1 hl
    obtain ⟨a, ha⟩ := two_pow_dvd_sum_ite hq P
    have hb : (if P q then 2 ^ key q else 0) < 2 ^ (key q + 1) := by
      have := Nat.pow_lt_pow_succ (a := 2) (n := key q) (by decide)
      split <;> omega
    rw [List.map_cons, List.sum_cons, Nat.add_comm, ha, Nat.two_pow_add_eq_or_of_lt hb, ← ha, Nat.testBit_or,
      Bool.or_eq_true, ih hl, testBit_ite_two_pow]
    constructor
    · rintro (⟨r, hr, h⟩ | h)
      · exact ⟨r, List.mem_cons_of_mem q hr, h⟩
      · exact ⟨q, List.mem_cons_self, h⟩
    · rintro ⟨r, hr, h⟩
      rcases List.mem_cons.1 hr with rfl | hr
      · exact .inr h
      · exact .inl ⟨r, hr, h⟩

/-- A sum of powers of two with rising exponents below n is below 2 ^ n. -/
theorem sum_ite_two_pow_lt {α : Type} {l : List α} {key : α → Nat} {n : Nat}
    (hl : l.Pairwise (fun q r => key q < key r)) (hn : ∀ q ∈ l, key q < n) (P : α → Bool) :
    (l.map (fun q => if P q then 2 ^ key q else 0)).sum < 2 ^ n := by
  refine Nat.lt_pow_two_of_testBit _ fun i hi => ?_
  rw [Bool.eq_false_iff]
  intro hb
  obtain ⟨q, hq, -, rfl⟩ := (testBit_sum_ite_two_pow hl P i).1 hb
  exact absurd (hn q hq) (by omega)

/-! ### Values of chains of FP32 operations -/

@[simp] theorem then_v (a : FR) (f : BitVec 32 → FR) : (a.then f).v = (f a.v).v := rfl
@[simp] theorem op2_v (f : BitVec 32 → BitVec 32 → FR) (a b : FR) : (FR.op2 f a b).v = (f a.v b.v).v := rfl
@[simp] theorem readFR_v (x : BitVec 32) : (readFR x).v = x := rfl
@[simp] theorem propFR_v (bad : Bool) (x : BitVec 32) : (propFR bad x).v = x := rfl
@[simp] theorem plainFR_v (x : BitVec 32) : (plainFR x).v = x := rfl

/-! ### The cells of a row position -/

theorem mem_maskList {m f : Nat} : f ∈ maskList m ↔ f < 4 ∧ bitOf m f = true := by simp [maskList]

theorem mem_cells {d : VxD} {f j : Nat} : (f, j) ∈ d.cells ↔ (f < 4 ∧ bitOf d.fmask f = true) ∧ j < 64 := by
  simp [VxD.cells, mem_maskList]

/-- The lanes rise with 64 × Furrow + column. -/
theorem cells_rise (d : VxD) : d.cells.Pairwise (fun q r => 64 * q.1 + q.2 < 64 * r.1 + r.2) := by
  have hf : (maskList d.fmask).Pairwise (· < ·) := List.pairwise_lt_range.filter _
  refine List.pairwise_flatMap.2 ⟨fun f _ => ?_, hf.imp fun {f g} hfg q hq r hr => ?_⟩
  · exact List.pairwise_lt_range.map _ fun _ _ h => Nat.add_lt_add_left h _
  · obtain ⟨i, hi, rfl⟩ := List.mem_map.1 hq
    obtain ⟨j, -, rfl⟩ := List.mem_map.1 hr
    have := List.mem_range.1 hi
    show 64 * f + i < 64 * g + j
    omega

/-! ### Operands -/

theorem pair_iff (d : VxD) : d.pair = true ↔ d.op = 1 ∧ d.inFmt = 9 := by simp [VxD.pair]

/-- The row of a position of an operation that reads no pairs (R116). -/
theorem rows_single {d : VxD} (h : d.pair = false) (k : Nat) : d.rows k = [(d.brow + k) % 1024] := by
  simp [VxD.rows, physRows, h]

/-- The two rows of a pair position (R116). -/
theorem rows_pair {d : VxD} (h : d.pair = true) (k : Nat) :
    d.rows k = [2 * ((d.brow + k) % 512), 2 * ((d.brow + k) % 512) + 1] := by
  simp [VxD.rows, physRows, h]

/-- A Basin word that is neither of a pair nor an INT32 is read as it stands (R75). -/
theorem basinValue_v {d : VxD} (hp : d.pair = false) (hi : d.op = 1 → d.inFmt ≠ 8) (o : OvfMode) (fu : Furrow)
    (k j : Nat) : (d.basinValue o fu k j).v = fu.read ((d.brow + k) % 1024) j := by
  have hn : (d.op = 1 && d.inFmt = 8 : Bool) = false := by simpa using hi
  simp [VxD.basinValue, rows_single hp, hn]

/-- Only the elements of MXFP4 operands draw free values. -/
theorem rowA_state {d : VxD} (h : d.aFmt ≠ 4) (p : Nat) (c : VecCmd) (k : Nat) (s : State) : (rowA p c d k s).2 = s := by
  unfold rowA vecElems
  simp only [h, if_false]
  split <;> rfl

/-! ### What recording and writing leave in the Reservoir -/

@[simp] theorem more_resv (x : Plot) (n : Nat) : (x.more n).resv = x.resv := rfl
@[simp] theorem clamps_resv (x : Plot) (n : Nat) : (x.clamps n).resv = x.resv := rfl
@[simp] theorem trapNow_resv (x : Plot) : x.trapNow.resv = x.resv := by
  unfold Plot.trapNow
  split <;> rfl

@[simp] theorem numericEvents_resv (p : Nat) (evs : List NumEv) (s : State) :
    ((numericEvents p evs s).plot p).resv = (s.plot p).resv := by
  cases evs with
  | nil => rfl
  | cons e rest =>
    simp only [numericEvents]
    split
    · simp
    · rw [State.sameButEvents_plot (post_same ..)]
      simp

@[simp] theorem markRow_resv (p : Nat) (c : VecCmd) (d : VxD) (k : Nat) (ms : Marks) (s : State) :
    ((markRow p c d k ms s).plot p).resv = (s.plot p).resv := by
  simp [markRow]

theorem foldl_markRow_resv {α : Type} (p : Nat) (c : VecCmd) (d : VxD) (k : Nat) (ms : α → Marks) (l : List α) (s : State) :
    ((l.foldl (fun s e => markRow p c d k (ms e) s) s).plot p).resv = (s.plot p).resv := by
  induction l generalizing s with
  | nil => rfl
  | cons e l ih => simp [ih]

@[simp] theorem putRsv_resv (p a : Nat) (bs : List Byte) (s : State) :
    ((putRsv p a bs s).plot p).resv = (s.plot p).resv.write a bs := by
  simp [putRsv]

@[simp] theorem apply_none (d : VxD) (k : Nat) (es : List Elem) : LaneFault.apply none d k es = es := rfl

/-- The bytes of a row of elements are those of their values. -/
theorem outCodes_bytes (o : OvfMode) (fmt : Nat) (es : List Elem) :
    (outCodes o fmt es).1 = rowOut o fmt (es.map (fun e => e.r.v)) := by
  simp [outCodes, rowOut, Function.comp_def]

/-- A row of results in a format other than MXFP4 goes to D alone (R65, R117). -/
theorem putRow_resv {fmt : Nat} (h : fmt ≠ 4) (p : Nat) (c : VecCmd) (d : VxD) (k : Nat) (es : List Elem) (s : State) :
    ((putRow p c d fmt k es s).plot p).resv =
      (s.plot p).resv.write (d.dAt c k) (rowOut (s.plot p).pacer.ovf fmt (es.map (fun e => e.r.v))) := by
  simp [putRow, h, outCodes_bytes]

@[simp] theorem dAt_zero (d : VxD) (c : VecCmd) : d.dAt c 0 = d.dAddr + c.ixD := by simp [VxD.dAt]
@[simp] theorem eAt_zero (d : VxD) (c : VecCmd) : d.eAt c 0 = d.eAddr + c.ixD := by simp [VxD.eAt]

/-! ### An operation of one row position -/

theorem foldl_keep {α β : Type} (l : List α) (s : β) : l.foldl (fun s _ => s) s = s := by
  induction l with
  | nil => rfl
  | cons _ l ih => exact ih

/-- With no error met, the reads of an operation change nothing. -/
theorem vecHits_none (p : Nat) (c : VecCmd) (d : VxD) (s : State) : vecHits p c d {} s = s := by
  simp only [vecHits, List.filter_nil, List.foldl_nil, foldl_keep, ite_self]

/-- An operation of one row position that may start, with no error met, leaves in the Reservoir what its position
leaves. -/
theorem vectorOp_resv {s : State} {p op : Nat} {c : VecCmd} {d : VxD} {rest : List VecCmd} (h : s.atVector p c d rest)
    (h1 : d.count = 1) (hop : d.op = op) (pos : VecCmd → VxD → Nat → State → State) {m : Mem}
    (hm : ((pos c d 0 s).plot p).resv = m) :
    ∃ t, s.plotLive p (vectorOp p op {} pos s) = .next t ∧ (t.plot p).resv = m := by
  obtain ⟨hon, hq, rfl, hready⟩ := h
  refine ⟨(pos c (parseVx c.desc) 0 s).onPlot p (fun y =>
    { y with vecQ := rest }.onWork c.seq (fun w => { w with vec := false })), ?_, by simp [Plot.onWork, hm]⟩
  rw [plotLive_on hon, vectorOp]
  simp [hq, hready, h1, hop, vecHits_none]

/-! ### Row positions -/

/-- DRAIN writes SA × Basin + SB, converted (R75, R117). -/
theorem drainRow_resv {d : VxD} (h7 : d.inFmt = 7) (hout : d.outFmt ≠ 4) (p : Nat) (c : VecCmd) (k : Nat) (s : State) :
    ((drainRow p {} c d k s).plot p).resv = (s.plot p).resv.write (d.dAt c k)
      (rowOut (s.plot p).pacer.ovf d.outFmt (d.cells.map (fun q =>
        (fadd (s.plot p).pacer.ovf (fmul (s.plot p).pacer.ovf d.sa
          (((s.plot p).furrow q.1).read ((d.brow + k) % 1024) q.2)).v d.sb).v))) := by
  have hp : d.pair = false := by simp [VxD.pair, h7]
  have hv := basinValue_v hp (by simp [h7]) (s.plot p).pacer.ovf
  simp [drainRow, hp, putRow_resv hout, hv, Function.comp_def]

/-- DRAIN with PAIR_KEEP writes a pair's two words as stored (R75, R117). -/
theorem drainRow_keep_resv {d : VxD} (hp : d.pair = true) (hk : d.keep = true) (p : Nat) (c : VecCmd) (k : Nat) (s : State) :
    ((drainRow p {} c d k s).plot p).resv = (s.plot p).resv.write (d.dAt c k) (d.cells.flatMap (fun q =>
      leBytes 4 (((s.plot p).furrow q.1).read (2 * ((d.brow + k) % 512)) q.2).toNat ++
      leBytes 4 (((s.plot p).furrow q.1).read (2 * ((d.brow + k) % 512) + 1) q.2).toNat)) := by
  simp [drainRow, hp, hk, rows_pair hp]

/-- Numbering elements does not change what is made of the elements. -/
theorem map_zipIdx_value {α β : Type} (f : α → β) (l : List α) : l.zipIdx.map (fun x => f x.1) = l.map f := by
  calc l.zipIdx.map (fun x => f x.1) = (l.zipIdx.map Prod.fst).map f := List.map_map.symm
    _ = l.map f := by rw [List.zipIdx_map_fst]

/-- SPLIT writes the hi parts to D, then the lo parts to E (R72, R117). -/
theorem splitRow_resv {d : VxD} (hin : d.aFmt ≠ 4) (p : Nat) (c : VecCmd) (k : Nat) (s : State) :
    ((splitRow p {} c d k s).plot p).resv = ((s.plot p).resv.write (d.dAt c k)
      (packCodes 16 ((rowA p c d k s).1.map (fun v => (split (s.plot p).pacer.ovf v).1)))).write (d.eAt c k)
      (packCodes 16 ((rowA p c d k s).1.map (fun v => (split (s.plot p).pacer.ovf v).2.1))) := by
  simp [splitRow, rowA_state hin, Function.comp_def, map_zipIdx_value (fun v => (split (s.plot p).pacer.ovf v).1),
    map_zipIdx_value (fun v => (split (s.plot p).pacer.ovf v).2.1)]

/-- RESCALE_ACC writes A × B + Basin in FP32 (R117). -/
theorem rescaleRow_resv {d : VxD} (hop : d.op = 13) (p : Nat) (c : VecCmd) (k : Nat) (s : State) :
    ((rescaleRow p {} c d k s).plot p).resv = (s.plot p).resv.write (d.dAt c k)
      (rowOut (s.plot p).pacer.ovf 7 (((rowA p c d k s).1.zip d.cells).map (fun v =>
        (fadd (s.plot p).pacer.ovf (fmul (s.plot p).pacer.ovf v.1 (vecAt p (d.bAddr + c.ixA) k s)).v
          (((s.plot p).furrow v.2.1).read ((d.brow + k) % 1024) v.2.2)).v))) := by
  have hp : d.pair = false := by simp [VxD.pair, hop]
  have ha : d.aFmt ≠ 4 := by simp [VxD.aFmt, hop]
  have hv := basinValue_v hp (by simp [hop]) (s.plot p).pacer.ovf
  simp [rescaleRow, putRow_resv, rowA_state ha, hv, Function.comp_def]

/-- The bits that TAGREAD writes for a row: that of lane (f, j) is its NaN tag (R80). -/
def tagBits (d : VxD) (x : Plot) (r : Nat) : Nat :=
  (d.cells.map (fun q => if (x.furrow q.1).tag r q.2 then 2 ^ (64 * q.1 + q.2) else 0)).sum

theorem tagBits_lt (d : VxD) (x : Plot) (r : Nat) : tagBits d x r < 256 ^ 32 := by
  have hn : ∀ q ∈ d.cells, 64 * q.1 + q.2 < 256 := fun q hq => by
    obtain ⟨⟨hf, -⟩, hj⟩ := mem_cells.1 hq
    omega
  exact sum_ite_two_pow_lt (cells_rise d) hn (fun q => (x.furrow q.1).tag r q.2)

theorem testBit_tagBits (d : VxD) (x : Plot) (r : Nat) {f j : Nat} (hf : f < 4) (hj : j < 64) :
    (tagBits d x r).testBit (64 * f + j) = (bitOf d.fmask f && (x.furrow f).tag r j) := by
  rw [Bool.eq_iff_iff, tagBits,
    testBit_sum_ite_two_pow (cells_rise d) (fun q => (x.furrow q.1).tag r q.2) (64 * f + j), Bool.and_eq_true]
  constructor
  · rintro ⟨⟨g, i⟩, hq, ht, hk⟩
    obtain ⟨⟨-, hm⟩, hi⟩ := mem_cells.1 hq
    obtain ⟨rfl, rfl⟩ : g = f ∧ i = j := by simp only at hk; omega
    exact ⟨hm, ht⟩
  · rintro ⟨hm, ht⟩
    exact ⟨(f, j), mem_cells.2 ⟨⟨hf, hm⟩, hj⟩, ht, rfl⟩

/-- TAGREAD writes its bits in 32 bytes (R80, R117). -/
theorem tagRow_resv {d : VxD} (hp : d.pair = false) (p : Nat) (c : VecCmd) (k : Nat) (s : State) :
    ((tagRow p c d k s).plot p).resv =
      (s.plot p).resv.write (d.dAt c k) (leBytes 32 (tagBits d (s.plot p) ((d.brow + k) % 1024))) := by
  simp [tagRow, rows_single hp, tagBits]

/-- The scores of a row position of SOFTMAX_BLOCK: SA × Basin (R118). -/
def softmaxScores (o : OvfMode) (d : VxD) (x : Plot) (k : Nat) : List (BitVec 32) :=
  d.cells.map (fun q => (fmul o d.sa ((x.furrow q.1).read ((d.brow + k) % 1024) q.2)).v)

/-- The probabilities of scores under a maximum; under −∞ they are zero (R118). -/
def softmaxProbs (o : OvfMode) (m : BitVec 32) (ss : List (BitVec 32)) : List (BitVec 32) :=
  if m = 0xFF800000#32 then ss.map (fun _ => 0#32) else ss.map (fun v => (fexp2 o (fsub o v m).v).v)

/-- The factor that rescales an old sum from maximum ma to m; under −∞ it is 1.0 (R118). -/
def softmaxFactor (o : OvfMode) (m ma : BitVec 32) : BitVec 32 :=
  if m = 0xFF800000#32 then 0x3F800000#32 else (fexp2 o (fsub o ma m).v).v

/-- SOFTMAX_BLOCK writes the probabilities to D, then the new maximum to A, the new sum to B and the factor to E (R118). -/
theorem softmaxRow_resv {d : VxD} (hop : d.op = 14) (hout : d.outFmt ≠ 4) {o : OvfMode} {p k : Nat} {s : State}
    (ho : o = (s.plot p).pacer.ovf) {c : VecCmd} {m cc : BitVec 32} {ps : List (BitVec 32)}
    (hm : m = (softmaxScores o d (s.plot p) k).foldl fmax (vecAt p (d.aAddr + c.ixA) k s))
    (hps : ps = softmaxProbs o m (softmaxScores o d (s.plot p) k))
    (hcc : cc = softmaxFactor o m (vecAt p (d.aAddr + c.ixA) k s)) :
    ((softmaxRow p {} c d k s).plot p).resv = ((((s.plot p).resv.write (d.dAt c k) (rowOut o d.outFmt ps)).write
      (d.aAddr + c.ixA + 4 * k) (leBytes 4 m.toNat)).write (d.bAddr + c.ixA + 4 * k) (leBytes 4
        (fadd o (fmul o (vecAt p (d.bAddr + c.ixA) k s) cc).v (laneSum o d.fmask ps).v).v.toNat)).write
      (d.eAddr + c.ixD + 4 * k) (leBytes 4 cc.toNat) := by
  have hp : d.pair = false := by simp [VxD.pair, hop]
  have hv := basinValue_v hp (by simp [hop]) o
  simp only [softmaxScores, List.foldl_map] at hm
  by_cases hinf : m = 0xFF800000#32 <;>
    simp [softmaxRow, putRow_resv hout, foldl_markRow_resv, List.foldl_map, hv, ← ho, ← hm, hinf, Function.comp_def, hps,
      hcc, softmaxProbs, softmaxFactor, softmaxScores]

/-! ### The results of the operations -/

/-- Settles O11: each operation of one row position leaves in the Reservoir what its position writes there. -/
theorem vectorBasinOps : Obligations.VectorBasinOps := by
  unfold Obligations.VectorBasinOps
  intro s p c d rest o a h h1 ho ha
  subst ho ha
  refine ⟨fun hop hin hout => ?drain, fun hop hin hkeep => ?keep, fun hop hin => ?split, fun hop => ?rescale,
    fun hop => ?tags, fun hop hout ma sb ss m ps cc bn hma hsb hss hm hps hcc hbn => ?softmax⟩
  case drain => exact vectorOp_resv h h1 hop _ (by simp [drainRow_resv hin hout])
  case keep => exact vectorOp_resv h h1 hop _ (by simp [drainRow_keep_resv ((pair_iff d).2 ⟨hop, hin⟩) hkeep])
  case split =>
    have hfmt : d.aFmt ≠ 4 := by simpa [VxD.aFmt, hop] using hin
    exact vectorOp_resv h h1 hop _ (by simp [splitRow_resv hfmt])
  case rescale => exact vectorOp_resv h h1 hop _ (by simp [rescaleRow_resv hop])
  case tags =>
    have hp : d.pair = false := by simp [VxD.pair, hop]
    obtain ⟨t, ht, hr⟩ := vectorOp_resv h h1 hop (tagRow p) (tagRow_resv hp p c 0 s)
    refine ⟨t, ht, fun f j hf hj => ?_⟩
    rw [hr, dAt_zero, le_write_leBytes _ _ (tagBits_lt ..), testBit_tagBits _ _ _ hf hj]
    rfl
  case softmax =>
    subst hma hsb hss
    have hr := softmaxRow_resv hop hout rfl hm hps hcc
    exact vectorOp_resv h h1 hop _ (by simp [hr, hbn])

end Sys2Proof.Machine.VectorUnit

/-! SUPPORT. The region table (R146, R147, R149): apart from the resets and the writes of the region registers nothing changes it, one
lemma for each function of the model, in the order of the model's files; and those keep valid regions apart. They settle O59.

The lemmas on the parts of the state hold by `rfl`, and `simp` closes a side condition with them by definition; where such a condition
holds a large record update or a product of numerals, `-implicitDefEqProofs` has it write the step out, so that nothing is unfolded to
check it. -/

namespace Sys2Proof.Machine.RegionFrame

/-! ### Folds, branches and outcomes -/

theorem foldl_kept {α β γ : Type} {π : β → γ} {f : β → α → β} (h : ∀ b a, π (f b a) = π b) (l : List α) (b : β) :
    π (l.foldl f b) = π b := by
  induction l generalizing b with
  | nil => rfl
  | cons a l ih => exact (ih (f b a)).trans (h b a)

@[simp] theorem foldl_regions {α : Type} {f : State → α → State} (h : ∀ s a, (f s a).regions = s.regions) (l : List α) (s : State) :
    (l.foldl f s).regions = s.regions := foldl_kept h l s

@[simp] theorem foldl_regions_snd {α β : Type} {f : β × State → α → β × State} (h : ∀ q a, (f q a).2.regions = q.2.regions)
    (l : List α) (q : β × State) : (l.foldl f q).2.regions = q.2.regions :=
  foldl_kept (π := fun q : β × State => q.2.regions) h l q

@[simp] theorem foldl_regions_snd_snd {α β γ : Type} {f : β × γ × State → α → β × γ × State}
    (h : ∀ q a, (f q a).2.2.regions = q.2.2.regions) (l : List α) (q : β × γ × State) :
    (l.foldl f q).2.2.regions = q.2.2.regions := foldl_kept (π := fun q : β × γ × State => q.2.2.regions) h l q

/-- What each step of a fold that may stop keeps holds of what the fold gives. -/
theorem foldl_bind_some {α β : Type} {P : β → Prop} {f : β → α → Option β} (hf : ∀ b a c, P b → f b a = some c → P c)
    (l : List α) {o : Option β} (ho : ∀ b, o = some b → P b) {c : β} (h : l.foldl (fun o a => o.bind (fun b => f b a)) o = some c) :
    P c := by
  induction l generalizing o with
  | nil => exact ho c h
  | cons a l ih =>
    refine ih (fun d hd => ?_) h
    obtain ⟨b, hb, g⟩ := Option.bind_eq_some_iff.1 hd
    exact hf b a d (ho b hb) g

@[simp] theorem ite_regions (c : Prop) [Decidable c] (a b : State) :
    (if c then a else b).regions = if c then a.regions else b.regions := apply_ite State.regions c a b

@[simp] theorem ite_snd_regions {α : Type} (c : Prop) [Decidable c] (a b : α × State) :
    (if c then a else b).2.regions = if c then a.2.regions else b.2.regions := apply_ite (fun q : α × State => q.2.regions) c a b

@[simp] theorem ite_reply_regions (c : Prop) [Decidable c] (a b : Reply) :
    (if c then a else b).s.regions = if c then a.s.regions else b.s.regions := apply_ite (fun r : Reply => r.s.regions) c a b

/-- Whatever state an outcome goes on in, its region table is g. -/
def keepsRegions (g : Regions) (o : Out) : Prop := ∀ t, o = .next t → t.regions = g

@[simp] theorem keeps_next (g : Regions) (t : State) : keepsRegions g (.next t) ↔ t.regions = g := by simp [keepsRegions]

@[simp] theorem keeps_ite (g : Regions) (c : Prop) [Decidable c] (a b : Out) :
    keepsRegions g (if c then a else b) ↔ if c then keepsRegions g a else keepsRegions g b := by
  split <;> rfl

@[simp] theorem keeps_live (s : State) (o : Out) :
    keepsRegions s.regions (s.live o) ↔ (s.clocked = true → keepsRegions s.regions o) := by
  cases h : s.clocked <;> simp [State.live, h]

@[simp] theorem keeps_plotLive (s : State) (p : Nat) (o : Out) :
    keepsRegions s.regions (s.plotLive p o) ↔ (s.plotOn p = true → keepsRegions s.regions o) := by
  cases h : s.plotOn p <;> simp [State.plotLive, h]

@[simp] theorem keeps_busWrite (s : State) (o : Out) :
    keepsRegions s.regions (s.busWrite o) ↔ ((s.clocked && s.barsOpen) = true → keepsRegions s.regions o) := by
  cases h : s.clocked && s.barsOpen <;> simp [State.busWrite, h]

@[simp] theorem keeps_when (g : Regions) (c : Bool) (t s : State) :
    keepsRegions g (when c t s) ↔ if c then t.regions = g else s.regions = g := by
  cases c <;> simp [when]

/-- An outcome after changes that keep the region table. -/
theorem keeps_after {s t : State} {o : Out} (h : t.regions = s.regions) (ho : keepsRegions t.regions o) : keepsRegions s.regions o :=
  h ▸ ho

section

variable (s : State)
   (p l k n c o a e f i seg op code rank first kind sb tag m key index g group st ch off cls phys type ca eb r shard blk role : Nat)
   (w : Win) (ecc : List (Nat × EccHit)) (v d seq count entry stack : BitVec 32) (x : VecFaults) (bs data : List Byte)
   (rivals : List Order) (pset trapped : BitVec 256) (bad : List Nat) (doe slot : Bool) (tags : List (BitVec 31))
   (errs : List (Nat × UnitErr)) (addr list host : BitVec 64) (b : CollBlock) (elems : List (BitVec 32 × Bool)) (self : Option Nat)

/-! ### Ops -/

@[simp] theorem draw_regions : (s.draw).2.regions = s.regions := by rfl
@[simp] theorem drawBytes_regions : (s.drawBytes n).2.regions = s.regions := by rfl
@[simp] theorem dropStage_regions : (dropStage key a s).regions = s.regions := by simp [dropStage]
@[simp] theorem signalMsix_regions (v : Nat) : (signalMsix v s).regions = s.regions := by simp [signalMsix]
@[simp] theorem deliverMsix_regions : (deliverMsix s).regions = s.regions := by simp [deliverMsix]
@[simp] theorem post_regions (dseq : BitVec 32) (time : BitVec 64) (payload : List (BitVec 32)) :
    (post type cls index dseq time payload s).regions = s.regions := by rfl
@[simp] theorem countClass_regions : (countClass c s).regions = s.regions := by simp [countClass]
@[simp] theorem latchCause_regions (bit : Nat) : (latchCause bit s).regions = s.regions := by simp [latchCause]
@[simp] theorem stepFatalEffect_regions : (stepFatalEffect s).regions = s.regions := by simp [stepFatalEffect]
@[simp] theorem event_regions (payload : List (BitVec 32)) (dseq : BitVec 32) :
    (event type cls index payload dseq s).regions = s.regions := by
  simp [event]
@[simp] theorem note_regions (payload : List (BitVec 32)) (dseq : BitVec 32) :
    (note type index payload dseq s).regions = s.regions := by rfl
@[simp] theorem corrected_regions (src : Nat) : (corrected src s).regions = s.regions := by rfl
@[simp] theorem memUe_regions (source addr : Nat) (arr : Nat) : (memUe source index addr seg arr s).regions = s.regions := by simp [memUe]

/-! ### Flags -/

@[simp] theorem numericEvents_regions (evs : List NumEv) : (numericEvents p evs s).regions = s.regions := by
  unfold numericEvents
  split <;> simp
@[simp] theorem noteRow_regions (obj : Nat) : (noteRow kind obj s).regions = s.regions := by rfl
@[simp] theorem rsvHit_regions (h : EccHit) : (rsvHit p h s).regions = s.regions := by simp [rsvHit]
@[simp] theorem rsvHits_regions (hits : List EccHit) : (rsvHits p a n hits s).regions = s.regions := by simp [rsvHits]
@[simp] theorem basinHit_regions (h : EccHit) : (basinHit p f h s).regions = s.regions := by simp [basinHit]
@[simp] theorem plotFault_regions (unit col : Nat) : (plotFault p unit f col s).regions = s.regions := by simp [plotFault]
@[simp] theorem copyHits_regions (ecc : List EccHit) : (copyHits p ecc s).regions = s.regions := by simp [copyHits]
@[simp] theorem applySpares_regions (ecc : List EccHit) : (applySpares p ecc s).regions = s.regions := by simp [applySpares]
@[simp] theorem applyIfStopped_regions (ecc : List EccHit) : (applyIfStopped p ecc s).regions = s.regions := by simp [applyIfStopped]
@[simp] theorem stopPlot_regions : (stopPlot p s).regions = s.regions := by rfl
@[simp] theorem stopAll_regions : (stopAll s).regions = s.regions := by simp [stopAll]
@[simp] theorem deviceFatal_regions (cause : Nat) : (deviceFatal cause index s).regions = s.regions := by simp [deviceFatal]
@[simp] theorem raiseLocal_regions : (raiseLocal p f s).regions = s.regions := by rfl
@[simp] theorem raiseReady_regions (d : Nat) : (raiseReady p d s).regions = s.regions := by
  unfold raiseReady
  split <;> simp
@[simp] theorem makeRaise_regions (r : BitVec 8) : (makeRaise p r s).regions = s.regions := by simp [makeRaise]

/-! ### Command -/

@[simp] theorem sendReply_regions (b : List Byte) : (sendReply w b s).regions = s.regions := by simp [sendReply]
@[simp] theorem answer_regions (res : List Byte) : (answer w d st res s).regions = s.regions := by simp [answer]
@[simp] theorem caused_regions (n : BitVec 64) : (caused n d s).regions = s.regions := by rfl
@[simp] theorem command_keeps (w : Win) (op : Nat) (ps : List Nat) (act : BitVec 32 → State → Reply) (s : State)
    (h : ∀ d, (act d s).s.regions = s.regions) : keepsRegions s.regions (command w op ps act s) := by
  unfold command
  split <;> simp [h]

@[simp] theorem refuse_regions : (refuse st s).s.regions = s.regions := by rfl
@[simp] theorem done_regions : (done s).s.regions = s.regions := by rfl
@[simp] theorem startLong_regions (arg : Nat) : (startLong w op d arg s).regions = s.regions := by rfl
@[simp] theorem accept_regions (arg : Nat) : (accept w op d arg s).s.regions = s.regions := by rfl
@[simp] theorem cmdDone_regions (hseq : BitVec 32) (res : List (BitVec 32)) : (cmdDone w hseq op d st res s).regions = s.regions := by rfl
@[simp] theorem finishLong_regions (res : List (BitVec 32)) : (finishLong d st res s).regions = s.regions := by
  simp [finishLong]
  split <;> simp
@[simp] theorem restartLongs_regions : (restartLongs s).regions = s.regions := by simp [restartLongs]

/-! ### Hbm -/

@[simp] theorem correctUnit_regions : (correctUnit k phys ca s).regions = s.regions := by simp [correctUnit]
@[simp] theorem uncorrectable_regions (kind : UeKind) : (uncorrectable k phys ca sb kind s).regions = s.regions := by
  unfold uncorrectable
  split <;> simp
@[simp] theorem metLatent_regions (sluice : Option (Nat × Nat)) : (metLatent k phys ca sb sluice s).regions = s.regions := by
  unfold metLatent
  split <;> simp
@[simp] theorem readUnit_regions (e : UnitErr) (kind : UeKind) : (readUnit k phys ca sb e kind s).regions = s.regions := by
  unfold readUnit
  (repeat' split) <;> simp
@[simp] theorem execHbmDemandRead_keeps (err : UnitErr) (sluice : Option (Nat × Nat)) :
    keepsRegions s.regions (execHbmDemandRead k sb err sluice s) := by
  simp [execHbmDemandRead]
@[simp] theorem execHbmWrite_keeps : keepsRegions s.regions (execHbmWrite k sb data s) := by simp [execHbmWrite]
@[simp] theorem partialWrite_regions (err : UnitErr) : (partialWrite k sb data err s).regions = s.regions := by simp [partialWrite]
@[simp] theorem execHbmPartialWrite_keeps (err : UnitErr) : keepsRegions s.regions (execHbmPartialWrite k sb data err s) := by
  simp [execHbmPartialWrite]
@[simp] theorem execPatrolScrubRead_keeps : keepsRegions s.regions (execPatrolScrubRead k errs s) := by simp [execPatrolScrubRead]
@[simp] theorem execDieLinkReplay_keeps (again : Bool) : keepsRegions s.regions (execDieLinkReplay k again s) := by simp [execDieLinkReplay]
@[simp] theorem execHbmRefresh_keeps : keepsRegions s.regions (execHbmRefresh k s) := by simp [execHbmRefresh]
@[simp] theorem execHbmTempThreshold_keeps (temp : BitVec 8) : keepsRegions s.regions (execHbmTempThreshold k temp s) := by
  simp [execHbmTempThreshold]
@[simp] theorem execHbmIdlePowerDown_keeps : keepsRegions s.regions (execHbmIdlePowerDown k ch s) := by simp [execHbmIdlePowerDown]
@[simp] theorem execHbmInitComplete_keeps (bad : List (Nat × Nat)) : keepsRegions s.regions (execHbmInitComplete bad s) := by
  simp -implicitDefEqProofs [execHbmInitComplete]
@[simp] theorem startPpr_regions (pc sid bg bank row : Nat) : (startPpr w k phys pc sid bg bank row d s).s.regions = s.regions := by
  simp [startPpr]
@[simp] theorem execHbmPpr_keeps (phys pc sid bg bank row : BitVec 32) :
    keepsRegions s.regions (execHbmPpr w stack phys pc sid bg bank row s) := by
  simp [execHbmPpr]
@[simp] theorem pprStep_keeps (st nx : PprStage) (f : Ppr → Ppr) : keepsRegions s.regions (pprStep k ch st nx f s) := by simp [pprStep]
@[simp] theorem execPprDrainDone_keeps : keepsRegions s.regions (execPprDrainDone k ch s) := by simp [execPprDrainDone]
@[simp] theorem execPprRowReadDone_keeps : keepsRegions s.regions (execPprRowReadDone k ch errs s) := by
  simp only [execPprRowReadDone, keeps_live]
  intro _
  split
  · simp
  · exact keeps_after (foldl_regions (fun s c => by split <;> simp) _ _) (pprStep_keeps _ _ _ _ _ _)
@[simp] theorem execPprProgramDone_keeps : keepsRegions s.regions (execPprProgramDone k ch s) := by simp [execPprProgramDone]
@[simp] theorem execPprComplete_keeps : keepsRegions s.regions (execPprComplete k ch s) := by
  unfold execPprComplete
  split <;> simp
@[simp] theorem startSpare_regions (lch rate : Nat) : (startSpare w k lch rate d s).s.regions = s.regions := by
  simp [startSpare]
  split <;> simp
@[simp] theorem execHbmSpare_keeps (lch rate : BitVec 32) : keepsRegions s.regions (execHbmSpare w stack lch rate s) := by
  simp [execHbmSpare]
@[simp] theorem execSpareTargetReady_keeps : keepsRegions s.regions (execSpareTargetReady k s) := by simp [execSpareTargetReady]
@[simp] theorem copyBlock_regions (c : SpareCopy) : (copyBlock k c errs s).regions = s.regions := by
  simp only [copyBlock, State.setStack_regions]
  exact foldl_regions (fun s u => by split <;> simp) _ _
@[simp] theorem execSpareBlockCopied_keeps : keepsRegions s.regions (execSpareBlockCopied k errs s) := by
  simp only [execSpareBlockCopied]
  split <;> simp
@[simp] theorem execSpareCopyComplete_keeps : keepsRegions s.regions (execSpareCopyComplete k s) := by
  simp only [execSpareCopyComplete]
  split <;> simp
@[simp] theorem setOffline_regions (lch : Nat) : (setOffline k lch s).s.regions = s.regions := by simp [setOffline]
@[simp] theorem execHbmOffline_keeps (lch : BitVec 32) : keepsRegions s.regions (execHbmOffline w stack lch s) := by simp [execHbmOffline]
@[simp] theorem rawWrite_regions : (rawWrite k sb bs s).regions = s.regions := by simp [rawWrite]
@[simp] theorem hbmTouch_regions : (s.hbmTouch a n).regions = s.regions := by
  unfold State.hbmTouch
  exact foldl_regions (fun s q => by split <;> simp) _ _
@[simp] theorem hbmWrite_regions (s : State) (a : Nat) (bs : List Byte) : ((s.hbmWrite a bs).getD s).regions = s.regions := by
  simp only [State.hbmWrite]
  split
  · rfl
  · exact foldl_regions (fun s q => by split <;> simp) _ _

@[simp] theorem hbmPoison_regions (addrs : List Nat) : (s.hbmPoison addrs).regions = s.regions := by
  unfold State.hbmPoison
  exact foldl_regions (fun s a => by split <;> simp) _ _
@[simp] theorem hbmMet_regions : (s.hbmMet a n).regions = s.regions := by
  unfold State.hbmMet
  exact foldl_regions (fun s q => by split <;> simp) _ _

/-! ### Furrow -/

@[simp] theorem basinHits_regions (hits : List EccHit) : (basinHits p f hits s).regions = s.regions := by simp [basinHits]
@[simp] theorem readRow_regions (st : Stream) (ecc : List EccHit) : (readRow p st ecc s).regions = s.regions := by simp [readRow]
@[simp] theorem execFlumeRowRead_keeps (ecc : List EccHit) : keepsRegions s.regions (execFlumeRowRead p ecc s) := by
  simp only [execFlumeRowRead]
  split <;> simp
@[simp] theorem execFlumeSegmentWrite_keeps : keepsRegions s.regions (execFlumeSegmentWrite p f g s) := by
  simp only [execFlumeSegmentWrite]
  split <;> simp
@[simp] theorem takeRow_regions (st : Stream) (t : Tile) (segs : List Seg) (residue : Option Residue) :
    (takeRow p f g st t segs residue s).regions = s.regions := by
  unfold takeRow
  split <;> simp
@[simp] theorem execColumnGroupTakeRow_keeps (residue : Option Residue) :
    keepsRegions s.regions (execColumnGroupTakeRow p f g residue s) := by
  simp only [execColumnGroupTakeRow, keeps_plotLive]
  intro _
  (repeat' split) <;> simp
@[simp] theorem writeBasin_regions (st : Stream) (sums : List (BitVec 32)) (ecc : List EccHit) :
    (writeBasin p f g st i sums ecc s).regions = s.regions := by
  simp [writeBasin]
@[simp] theorem execBasinRowWrite_keeps (ecc : List EccHit) : keepsRegions s.regions (execBasinRowWrite p f g ecc s) := by
  simp only [execBasinRowWrite, keeps_plotLive]
  intro _
  (repeat' split) <;> simp
@[simp] theorem startLoad_regions (c : LoadCmd) (ecc : List EccHit) : (startLoad p c ecc s).regions = s.regions := by simp [startLoad]
@[simp] theorem execShadowLoadStart_keeps (ecc : List EccHit) : keepsRegions s.regions (execShadowLoadStart p ecc s) := by
  simp only [execShadowLoadStart]
  split <;> simp
@[simp] theorem execShadowLoadComplete_keeps : keepsRegions s.regions (execShadowLoadComplete p s) := by
  simp only [execShadowLoadComplete]
  split <;> simp
@[simp] theorem execShadowExchange_keeps : keepsRegions s.regions (execShadowExchange p f s) := by
  simp only [execShadowExchange]
  split <;> simp
@[simp] theorem writeColMap_regions : (writeColMap p f v s).regions = s.regions := by rfl
@[simp] theorem execPltFcolmapWrite_keeps : keepsRegions s.regions (execPltFcolmapWrite p f v s) := by simp [execPltFcolmapWrite]
@[simp] theorem writeBspare_regions : (writeBspare p f e v s).regions = s.regions := by simp [writeBspare]
@[simp] theorem execPltBspareWrite_keeps : keepsRegions s.regions (execPltBspareWrite p f e v s) := by simp [execPltBspareWrite]
@[simp] theorem execPltWexpWrite_keeps : keepsRegions s.regions (execPltWexpWrite p v s) := by simp [execPltWexpWrite]
@[simp] theorem execCntClr_keeps : keepsRegions s.regions (execCntClr p s) := by simp [execCntClr]
@[simp] theorem execPcntctlClr_keeps : keepsRegions s.regions (execPcntctlClr p s) := by simp [execPcntctlClr]
@[simp] theorem execPltPflagsetWrite_keeps : keepsRegions s.regions (execPltPflagsetWrite p v s) := by simp [execPltPflagsetWrite]
@[simp] theorem writeRsvRep_regions (ecc : List EccHit) : (writeRsvRep p v ecc s).regions = s.regions := by simp [writeRsvRep]
@[simp] theorem execPltRsvrepentWrite_keeps (ecc : List EccHit) : keepsRegions s.regions (execPltRsvrepentWrite p v ecc s) := by
  simp [execPltRsvrepentWrite]

/-! ### Packets -/

@[simp] theorem enqueueAt_regions (unit : Nat) (k : Packet) : (enqueueAt unit k s).regions = s.regions := by rfl
@[simp] theorem enqueue_regions (k : Packet) : (enqueue k s).regions = s.regions := by rfl
@[simp] theorem request_regions (k : Packet) (r : Req) : (request k r s).regions = s.regions := by rfl
@[simp] theorem requestTag_regions (k : Packet) (r : Req) : (requestTag k r s).regions = s.regions := by rfl
@[simp] theorem sendAck_regions (k : Packet) : (sendAck k s).regions = s.regions := by rfl
@[simp] theorem sendNack_regions (k : Packet) : (sendNack k code s).regions = s.regions := by rfl
@[simp] theorem giveCredit_regions : (giveCredit l n s).regions = s.regions := by
  unfold giveCredit
  split <;> simp
@[simp] theorem sendCredit_regions (dev : BitVec 14) : (sendCredit p dev l n s).regions = s.regions := by simp [sendCredit]

/-! ### Pacer -/

@[simp] theorem startPlot_regions (e : Option (BitVec 12)) : (startPlot p e s).regions = s.regions := by rfl
@[simp] theorem pausePlot_regions : (pausePlot p s).regions = s.regions := by rfl
@[simp] theorem resumePlot_regions : (resumePlot p s).regions = s.regions := by rfl
@[simp] theorem refuseEntry_regions : (refuseEntry p code i s).regions = s.regions := by rfl
@[simp] theorem tryWork_regions (w : WorkE) : (tryWork p i w s).regions = s.regions := by simp [tryWork]
@[simp] theorem execWorkEntryIssue_keeps : keepsRegions s.regions (execWorkEntryIssue p s) := by simp [execWorkEntryIssue]
@[simp] theorem passTo_regions (t1 : Nat) (fr : BitVec 32) : (s.passTo t1 fr).regions = s.regions := by rfl
@[simp] theorem advanceTo_regions (t : Nat) : (s.advanceTo t).regions = s.regions := by simp [State.advanceTo]
@[simp] theorem execTimeWaitExpiry_keeps : keepsRegions s.regions (execTimeWaitExpiry p s) := by simp [execTimeWaitExpiry]
@[simp] theorem execFillTimeout_keeps : keepsRegions s.regions (execFillTimeout p s) := by
  simp [execFillTimeout]
  split <;> simp
@[simp] theorem issueControl_keeps (act : CtlE → Nat → Pacer → Pacer) : keepsRegions s.regions (issueControl p op act s) := by
  simp [issueControl]
@[simp] theorem execNop_keeps : keepsRegions s.regions (execNop p s) := by simp [execNop]
@[simp] theorem execLoopset_keeps : keepsRegions s.regions (execLoopset p s) := by simp [execLoopset]
@[simp] theorem execLoop_keeps : keepsRegions s.regions (execLoop p s) := by simp [execLoop]
@[simp] theorem execSkip_keeps : keepsRegions s.regions (execSkip p s) := by simp [execSkip]
@[simp] theorem execReturn_keeps : keepsRegions s.regions (execReturn p s) := by simp [execReturn]
@[simp] theorem execSetix_keeps : keepsRegions s.regions (execSetix p s) := by simp [execSetix]
@[simp] theorem execAddix_keeps : keepsRegions s.regions (execAddix p s) := by simp [execAddix]
@[simp] theorem execXorix_keeps : keepsRegions s.regions (execXorix p s) := by simp [execXorix]
@[simp] theorem execTimeadd_keeps : keepsRegions s.regions (execTimeadd p s) := by simp [execTimeadd]
@[simp] theorem execClear_keeps : keepsRegions s.regions (execClear p s) := by simp [execClear]
@[simp] theorem execBatchend_keeps : keepsRegions s.regions (execBatchend p s) := by simp [execBatchend]
@[simp] theorem execSlotfree_keeps : keepsRegions s.regions (execSlotfree p s) := by simp [execSlotfree]
@[simp] theorem execHalt_keeps : keepsRegions s.regions (execHalt p s) := by simp [execHalt]
@[simp] theorem execBatchendEffect_keeps : keepsRegions s.regions (execBatchendEffect p s) := by
  unfold execBatchendEffect
  split <;> simp
@[simp] theorem freeSlot_regions : (freeSlot p n s).regions = s.regions := by simp [freeSlot]
@[simp] theorem execSlotfreeEffect_keeps : keepsRegions s.regions (execSlotfreeEffect p s) := by
  unfold execSlotfreeEffect
  split <;> simp
@[simp] theorem execEntryComplete_keeps (seq : Nat) : keepsRegions s.regions (execEntryComplete p seq s) := by
  unfold execEntryComplete
  split <;> simp
@[simp] theorem endDrain_regions (ecc : List EccHit) : (endDrain p ecc s).regions = s.regions := by
  simp [endDrain]
  split <;> simp
@[simp] theorem execDrainComplete_keeps (ecc : List EccHit) : keepsRegions s.regions (execDrainComplete p ecc s) := by
  simp [execDrainComplete]
@[simp] theorem appendReserve_regions (rows rowB : Nat) : (appendReserve p n slot rows rowB tag s).2.regions = s.regions := by
  simp [appendReserve]
@[simp] theorem appendLand_regions : (appendLand p n tag o bs s).regions = s.regions := by
  simp only [appendLand]
  split <;> simp
@[simp] theorem fillGaps_regions : (fillGaps p n tag s).regions = s.regions := by
  simp only [fillGaps]
  split <;> simp
@[simp] theorem appendEnd_regions : (appendEnd p n tag s).regions = s.regions := by simp [appendEnd]

/-! ### Sluice -/

@[simp] theorem stepFatal_regions : (stepFatal s).regions = s.regions := by simp [stepFatal]
@[simp] theorem slcMet_regions : (s.slcMet k a n).regions = s.regions := by simp [State.slcMet]
@[simp] theorem segErr_regions : (segErr k seg s).regions = s.regions := by simp [segErr]
@[simp] theorem sampleStack_regions : (sampleStack k s).regions = s.regions := by simp [sampleStack]
@[simp] theorem sampleAll_regions : (sampleAll s).regions = s.regions := by simp [sampleAll]
@[simp] theorem sampleIdle_regions : (sampleIdle k s).regions = s.regions := by simp [sampleIdle]
@[simp] theorem tableRead_regions (old : List Byte) : (tableRead k old a n s).2.regions = s.regions := by
  unfold tableRead
  split <;> simp
@[simp] theorem readSeg_regions : (readSeg k i s).2.regions = s.regions := by simp [readSeg]
@[simp] theorem readGrp_regions : (readGrp k g s).2.regions = s.regions := by simp [readGrp]
@[simp] theorem readFact_regions : (readFact k f s).2.regions = s.regions := by simp [readFact]
@[simp] theorem countElems_regions (e : SegE) : (countElems k seg first e elems s).2.regions = s.regions := by simp [countElems]
@[simp] theorem pushElems_regions (next : Bool) : (pushElems k seg first elems next s).regions = s.regions := by rfl
@[simp] theorem elementArrive_regions : (elementArrive k seg first elems s).regions = s.regions := by simp [elementArrive]
@[simp] theorem execSluiceElementArrive_keeps : keepsRegions s.regions (execSluiceElementArrive k seg first elems s) := by
  simp [execSluiceElementArrive]
@[simp] theorem replayInlet_regions : (replayInlet k s).regions = s.regions := by simp [replayInlet]
@[simp] theorem execSluiceHoldTimeout_keeps : keepsRegions s.regions (execSluiceHoldTimeout k i s) := by
  unfold execSluiceHoldTimeout
  (repeat' split) <;> simp
@[simp] theorem evalGroup_regions : (evalGroup k g s).regions = s.regions := by simp [evalGroup]
@[simp] theorem hbmZero_regions : (s.hbmZero a n).regions = s.regions := by simp [State.hbmZero]
@[simp] theorem execSluiceEvalComplete_keeps : keepsRegions s.regions (execSluiceEvalComplete k s) := by simp [execSluiceEvalComplete]
@[simp] theorem committedBad_regions (arr : Nat) : (committedBad k a n seg arr s).2.regions = s.regions := by
  simp only [committedBad]
  refine foldl_regions_snd (fun q u => ?_) _ _
  (repeat' split) <;> simp
@[simp] theorem hbmWords_regions : (s.hbmWords a n).2.regions = s.regions := by
  unfold State.hbmWords
  split <;> simp
@[simp] theorem putElems_regions (vs : List Nat) : (putElems a eb vs bad s).regions = s.regions := by simp [putElems]
@[simp] theorem readAt_regions (as : List Nat) (s : State) : (readAt as s).2.regions = s.regions := by
  induction as generalizing s with
  | nil => rfl
  | cons a as ih => simp [readAt, ih]

@[simp] theorem readFactors_regions (e : SegE) (v : GrpVals) (d : FactD) (q : Nat) :
    (readFactors k seg e v d q first n s).2.regions = s.regions := by
  simp -implicitDefEqProofs [readFactors]
@[simp] theorem addWord_regions : (addWord a v s).regions = s.regions := by simp [addWord]
@[simp] theorem putWord_regions (bad : Bool) : (putWord a v bad s).regions = s.regions := by simp [putWord]
@[simp] theorem addOrPoison_regions (bad : Bool) : (addOrPoison a v bad s).regions = s.regions := by simp [addOrPoison]
@[simp] theorem writeFactors_regions (g : GrpE) (e : SegE) (d : FactD) (fs : List Fact) (gs : List (Option (BitVec 32)))
    (bad : Nat → Bool) :
    (writeFactors g e d p first fs gs bad s).regions = s.regions := by
  simp [writeFactors]
@[simp] theorem frozen_regions (e : SegE) : (s.frozen e first).2.regions = s.regions := by
  simp [State.frozen]
  split <;> simp
@[simp] theorem updateBlock_regions (b : InletBlock) (fault : Option LaneFault) : (updateBlock k b fault s).regions = s.regions := by
  simp only [updateBlock]
  split <;> simp -implicitDefEqProofs
@[simp] theorem execSluiceBlockUpdate_keeps (pipeFault : Option LaneFault) :
    keepsRegions s.regions (execSluiceBlockUpdate k i pipeFault s) := by
  unfold execSluiceBlockUpdate
  split <;> simp
@[simp] theorem execPipemapWrite_keeps : keepsRegions s.regions (execPipemapWrite k v s) := by simp [execPipemapWrite]
@[simp] theorem execPipemapApply_keeps : keepsRegions s.regions (execPipemapApply k s) := by
  simp only [execPipemapApply]
  split <;> simp

/-! ### Time -/

@[simp] theorem idle_regions : (idle s).regions = s.regions := by simp [idle]
@[simp] theorem execPaceRefChange_keeps (ok : Bool) : keepsRegions s.regions (execPaceRefChange ok s) := by simp [execPaceRefChange]
@[simp] theorem jumpTo_regions (t : Nat) : (jumpTo t s).regions = s.regions := by rfl
@[simp] theorem servo_regions (off2 : Int) (canStep : Bool) : (servo off2 canStep s).regions = s.regions := by
  simp -implicitDefEqProofs [servo]
@[simp] theorem execPaceSyncEdge_keeps : keepsRegions s.regions (execPaceSyncEdge s) := by simp -implicitDefEqProofs [execPaceSyncEdge]
@[simp] theorem execLoadArm_keeps : keepsRegions s.regions (execLoadArm s) := by simp [execLoadArm]
@[simp] theorem execSyncSeenLapse_keeps : keepsRegions s.regions (execSyncSeenLapse s) := by simp -implicitDefEqProofs [execSyncSeenLapse]
@[simp] theorem sendLocal_regions (k : Packet) : (sendLocal l k s).regions = s.regions := by rfl
@[simp] theorem execTimingRequestTimer_keeps : keepsRegions s.regions (execTimingRequestTimer s) := by
  simp [execTimingRequestTimer]
  split <;> simp
@[simp] theorem answerTiming_regions : (answerTiming l s).regions = s.regions := by simp [answerTiming]
@[simp] theorem takeTiming_regions (t1 t2 t3 t4 : Int) : (takeTiming l t1 t2 t3 t4 s).regions = s.regions := by simp [takeTiming]
@[simp] theorem takeAnswerOf_regions (t1 t4 : Nat) (master : BitVec 14) (gen : BitVec 8) (lock : BitVec 2) (replayed : Bool) :
    (takeAnswerOf l t1 t4 master gen lock replayed s).regions = s.regions := by
  unfold takeAnswerOf
  (repeat' split) <;> simp
  all_goals (split <;> simp)
@[simp] theorem execTiming_keeps (m : TimingMsg) : keepsRegions s.regions (execTiming l m s) := by
  simp [execTiming]
  split <;> simp
@[simp] theorem execParentLossTimeout_keeps : keepsRegions s.regions (execParentLossTimeout s) := by
  simp -implicitDefEqProofs [execParentLossTimeout]

/-! ### Link -/

@[simp] theorem laneRecord_regions : (laneRecord type cls l s).regions = s.regions := by simp [laneRecord]
@[simp] theorem dropTransit_regions (t : LinkSt) : (dropTransit l t s).regions = s.regions := by simp [dropTransit]
@[simp] theorem setLinkSt_regions (t : LinkSt) : (setLinkSt l t s).regions = s.regions := by simp [setLinkSt]
@[simp] theorem startTraining_regions : (startTraining l s).regions = s.regions := by simp [startTraining]
@[simp] theorem failLink_regions : (failLink l s).regions = s.regions := by simp [failLink]
@[simp] theorem disableLink_regions : (disableLink l s).regions = s.regions := by simp [disableLink]
@[simp] theorem retrainLink_regions : (retrainLink l d s).regions = s.regions := by simp [retrainLink]
@[simp] theorem endDisable_regions : (endDisable l s).regions = s.regions := by simp [endDisable]
@[simp] theorem writeEnable_regions (on : Bool) : (writeEnable l on d s).regions = s.regions := by simp [writeEnable]
@[simp] theorem writeLnkCfg_regions : (writeLnkCfg l v s).regions = s.regions := by simp [writeLnkCfg]
@[simp] theorem execLnkCfgEnableWrite_keeps : keepsRegions s.regions (execLnkCfgEnableWrite l v s) := by simp [execLnkCfgEnableWrite]
@[simp] theorem execLinkDisableTimeout_keeps : keepsRegions s.regions (execLinkDisableTimeout l s) := by
  unfold execLinkDisableTimeout
  split <;> simp
@[simp] theorem sendCtl_regions (body : BitVec 256) : (sendCtl l kind body s).regions = s.regions := by rfl
@[simp] theorem sendBib_regions : (sendBib l s).regions = s.regions := by rfl
@[simp] theorem storeBib_regions (b : BitVec 256) : (storeBib l b s).regions = s.regions := by simp [storeBib]
@[simp] theorem takeBib_regions (b : BitVec 256) : (takeBib l b s).regions = s.regions := by simp [takeBib]
@[simp] theorem execBib_keeps (b : BitVec 256) : keepsRegions s.regions (execBib l b s) := by simp [execBib]
@[simp] theorem execBibResendTimer_keeps : keepsRegions s.regions (execBibResendTimer l s) := by simp [execBibResendTimer]
@[simp] theorem noteMismatch_regions : (noteMismatch s).regions = s.regions := by simp [noteMismatch]
@[simp] theorem returnQueue_regions : (returnQueue l s).regions = s.regions := by rfl
@[simp] theorem canalChange_regions (o : Option Nat) : (canalChange l o s).regions = s.regions := by simp [canalChange]
@[simp] theorem packetBoundary_regions : (packetBoundary l s).regions = s.regions := by
  unfold packetBoundary
  split <;> simp
@[simp] theorem writeCanal_regions : (writeCanal c v s).regions = s.regions := by simp [writeCanal]
@[simp] theorem execCanalWrite_keeps : keepsRegions s.regions (execCanalWrite c v s) := by simp [execCanalWrite]
@[simp] theorem enterUp_regions : (enterUp l s).regions = s.regions := by simp [enterUp]
@[simp] theorem settleAdmit_regions : (settleAdmit l s).regions = s.regions := by simp [settleAdmit]
@[simp] theorem takeAdmission_regions (admits : Bool) : (takeAdmission l admits s).regions = s.regions := by simp [takeAdmission]
@[simp] theorem execAdmissionNotice_keeps (admits : Bool) : keepsRegions s.regions (execAdmissionNotice l admits s) := by
  simp [execAdmissionNotice]
@[simp] theorem fitWidth_regions : (fitWidth l s).regions = s.regions := by rfl
@[simp] theorem sendWidth_regions : (sendWidth l s).regions = s.regions := by rfl
@[simp] theorem trainStep_keeps (a b : TrainStep) : keepsRegions s.regions (trainStep l a b s) := by simp [trainStep]
@[simp] theorem execLaneEqualisationDone_keeps : keepsRegions s.regions (execLaneEqualisationDone l s) := by simp [execLaneEqualisationDone]
@[simp] theorem execLaneDeskewDone_keeps : keepsRegions s.regions (execLaneDeskewDone l s) := by simp [execLaneDeskewDone]
@[simp] theorem execLaneQualifyWindowEnd_keeps (rxLock : BitVec 5) (rxErrs : List (BitVec 32)) (txPass : BitVec 5) :
    keepsRegions s.regions (execLaneQualifyWindowEnd l rxLock rxErrs txPass s) := by
  simp [execLaneQualifyWindowEnd]
@[simp] theorem execLaneMapAgreed_keeps : keepsRegions s.regions (execLaneMapAgreed l s) := by simp [execLaneMapAgreed]
@[simp] theorem execLinkTrainingTimeout_keeps : keepsRegions s.regions (execLinkTrainingTimeout l s) := by simp [execLinkTrainingTimeout]
@[simp] theorem checkWidth_regions (w : Nat) : (checkWidth l w s).regions = s.regions := by simp [checkWidth]
@[simp] theorem failRxLane_regions : (failRxLane l p s).regions = s.regions := by simp [failRxLane]
@[simp] theorem execLaneSignalLoss_keeps (lane : Nat) (all : Bool) : keepsRegions s.regions (execLaneSignalLoss l lane all s) := by
  simp [execLaneSignalLoss]
@[simp] theorem execSymbolWindowEnd_keeps (errs : List (BitVec 32)) : keepsRegions s.regions (execSymbolWindowEnd l errs s) := by
  simp [execSymbolWindowEnd]
@[simp] theorem switchRx_regions (map : List Nat) (spare : Nat) : (switchRx l map spare s).regions = s.regions := by simp [switchRx]
@[simp] theorem switchTx_regions : (switchTx l s).regions = s.regions := by
  unfold switchTx
  split <;> simp
@[simp] theorem takeReport_regions (failed : List Nat) : (takeReport l failed s).regions = s.regions := by
  simp [takeReport]
  split <;> simp
@[simp] theorem execMarkerReceive_keeps (failed : List Nat) (newMap : Option (List Nat × Nat)) :
    keepsRegions s.regions (execMarkerReceive l failed newMap s) := by
  simp [execMarkerReceive]
  split <;> simp
@[simp] theorem endRetrain_regions (b : BitVec 256) : (endRetrain l b s).regions = s.regions := by simp [endRetrain]
@[simp] theorem execRetrainComplete_keeps (b : BitVec 256) : keepsRegions s.regions (execRetrainComplete l b s) := by
  simp [execRetrainComplete]
@[simp] theorem execRetrainTimeout_keeps : keepsRegions s.regions (execRetrainTimeout l s) := by simp [execRetrainTimeout]
@[simp] theorem takeNak_regions (q : BitVec 12) : (takeNak l q s).regions = s.regions := by simp [takeNak]
@[simp] theorem takeWidth_regions (narrow : Bool) : (takeWidth l narrow s).regions = s.regions := by rfl
@[simp] theorem takeCtl_regions (kind : BitVec 8) (body : BitVec 256) : (takeCtl l kind body s).regions = s.regions := by simp [takeCtl]
@[simp] theorem execFlitReceive_keeps (f : Flit) : keepsRegions s.regions (execFlitReceive l f s) := by simp [execFlitReceive]
@[simp] theorem execLinkEnable_keeps (mask value : BitVec 32) : keepsRegions s.regions (execLinkEnable w mask value s) := by
  simp [execLinkEnable]
@[simp] theorem execLinkRetrain_keeps (mask : BitVec 32) : keepsRegions s.regions (execLinkRetrain w mask s) := by simp [execLinkRetrain]
@[simp] theorem execLaneRequalify_keeps (link lane : BitVec 32) : keepsRegions s.regions (execLaneRequalify w link lane s) := by
  simp [execLaneRequalify]
@[simp] theorem execLaneRequalifyComplete_keeps (pass : Bool) : keepsRegions s.regions (execLaneRequalifyComplete l pass s) := by
  unfold execLaneRequalifyComplete
  split <;> simp

/-! ### Reservoir -/

@[simp] theorem readRsv_regions (ecc : List EccHit) : (readRsv p a n ecc s).2.regions = s.regions := by simp [readRsv]
@[simp] theorem readPiece_regions (q : Nat × Nat) : (readPiece self q ecc s).2.regions = s.regions := by
  unfold readPiece
  (repeat' split) <;> simp
@[simp] theorem devRead_regions : (devRead self a n ecc s).2.regions = s.regions := by simp [devRead]
@[simp] theorem writeRsvAt_regions (ecc : List EccHit) : (writeRsvAt p a bs bad ecc s).regions = s.regions := by simp [writeRsvAt]
@[simp] theorem writePiece_regions : (writePiece self a bs bad ecc s).regions = s.regions := by
  unfold writePiece
  (repeat' split) <;> simp
@[simp] theorem devWrite_regions : (devWrite self a bs bad ecc s).2.regions = s.regions := by simp [devWrite]
@[simp] theorem appendHits_regions (b : Inbox) (r : Resv) (ecc : List EccHit) : (appendHits p b r o n ecc s).regions = s.regions := by
  simp [appendHits]
@[simp] theorem appendBytes_regions (rows rowB : Nat) (ecc : List EccHit) :
    (appendBytes p n slot rows rowB tag o bs bad ecc s).2.regions = s.regions := by
  simp only [appendBytes]
  (repeat' split) <;> simp
@[simp] theorem appendClose_regions : (appendClose p n tag s).regions = s.regions := by rfl
@[simp] theorem dmaFail_regions (seq : Nat) : (dmaFail p seq code s).regions = s.regions := by
  unfold dmaFail
  split <;> simp
@[simp] theorem issueReads_regions (p seq fuel : Nat) (s : State) : (issueReads p seq fuel s).regions = s.regions := by
  induction fuel generalizing s with
  | zero => rfl
  | succ fuel ih =>
    unfold issueReads
    (repeat' split) <;> simp [ih]

@[simp] theorem execDmaTransferStart_keeps : keepsRegions s.regions (execDmaTransferStart p s) := by
  unfold execDmaTransferStart
  split <;> simp
@[simp] theorem sendDma_regions (seq : Nat) (c : DmaCmd) (k : Packet) : (sendDma p seq c k s).regions = s.regions := by simp [sendDma]
@[simp] theorem sendPiece_regions (seq : Nat) : (sendPiece p seq o bs bad s).regions = s.regions := by
  unfold sendPiece
  split <;> simp
@[simp] theorem closeRemote_regions (seq : Nat) : (closeRemote p seq s).regions = s.regions := by
  unfold closeRemote
  split <;> simp
@[simp] theorem dmaAck_regions (seq : Nat) : (dmaAck p seq n code s).regions = s.regions := by simp [dmaAck]
@[simp] theorem serveMesh_regions (m : MeshMsg) : (serveMesh m ecc s).2.regions = s.regions := by
  unfold serveMesh
  (repeat' split) <;> simp
@[simp] theorem execMeshReq_keeps : keepsRegions s.regions (execMeshReq k ecc s) := by
  unfold execMeshReq
  split <;> simp
@[simp] theorem dmaData_regions (m : MeshMsg) : (dmaData m s).regions = s.regions := by
  unfold dmaData
  (repeat' split) <;> simp
@[simp] theorem execMeshRsp_keeps : keepsRegions s.regions (execMeshRsp k s) := by
  unfold execMeshRsp
  split <;> simp
@[simp] theorem scramble_regions (c : DmaCmd) : (scramble p c s).regions = s.regions := by
  simp only [scramble]
  split
  · rfl
  · refine foldl_regions (fun s r => foldl_regions (fun s q => ?_) _ _) _ _
    split
    · rfl
    · split
      · refine (foldl_regions (fun s u => ?_) _ _).trans (drawBytes_regions _ _)
        split <;> simp
      · split <;> simp
@[simp] theorem dmaRaise_regions (c : DmaCmd) : (dmaRaise p c s).regions = s.regions := by
  simp only [dmaRaise]
  (repeat' split) <;> simp
@[simp] theorem execDmaTransferComplete_keeps : keepsRegions s.regions (execDmaTransferComplete p s) := by
  unfold execDmaTransferComplete
  (repeat' split) <;> simp
  all_goals (split <;> simp)
@[simp] theorem execInboxAppendReserve_keeps (rows rowBytes : Nat) :
    keepsRegions s.regions (execInboxAppendReserve p n slot rows rowBytes tag s) := by
  simp [execInboxAppendReserve]
@[simp] theorem execInboxAppendComplete_keeps : keepsRegions s.regions (execInboxAppendComplete p n tag s) := by
  simp [execInboxAppendComplete]
@[simp] theorem dropRegion_regions (reg : RgnReg) : (dropRegion r reg s).regions = s.regions := by
  unfold dropRegion
  split <;> simp

/-! ### Discovery -/

@[simp] theorem installHs_regions (h : List Byte) : (installHs h s).regions = s.regions := by simp [installHs]
@[simp] theorem execHeatsheetInstall_keeps : keepsRegions s.regions (execHeatsheetInstall w addr ecc s) := by simp [execHeatsheetInstall]
@[simp] theorem discRecord_regions : (discRecord l s).regions = s.regions := by rfl
@[simp] theorem follow_regions (v : Verd) : (follow l v s).regions = s.regions := by simp [follow]
@[simp] theorem decideLink_regions : (decideLink l s).regions = s.regions := by simp [decideLink]
@[simp] theorem discoveryPass_regions : (discoveryPass l s).regions = s.regions := by
  simp only [discoveryPass]
  refine (foldl_regions (fun t m => ?_) _ _).trans (foldl_regions (fun t m => decideLink_regions _ _) _ _)
  split <;> simp
@[simp] theorem execDiscoveryPass_keeps : keepsRegions s.regions (execDiscoveryPass l s) := by simp [execDiscoveryPass]
@[simp] theorem execLinkSettle_keeps : keepsRegions s.regions (execLinkSettle l s) := by simp -implicitDefEqProofs [execLinkSettle]

/-! ### Power -/

@[simp] theorem powerRequest_regions (t : PwrSt) : (powerRequest t s).2.regions = s.regions := by simp [powerRequest]
@[simp] theorem execPowerCap_keeps (watts : BitVec 32) : keepsRegions s.regions (execPowerCap w watts s) := by simp [execPowerCap]
@[simp] theorem setCeils_regions (mask : Nat) (f : Island → Island) : (setCeils mask f s).regions = s.regions := by rfl
@[simp] theorem execClockCeil_keeps (islands mhz : BitVec 32) : keepsRegions s.regions (execClockCeil w islands mhz s) := by
  simp [execClockCeil]
@[simp] theorem execTelemetry_keeps : keepsRegions s.regions (execTelemetry w s) := by simp [execTelemetry]

/-! ### Starter -/

@[simp] theorem execStarterWrite_keeps (index : BitVec 32) (entry : BitVec 256) :
    keepsRegions s.regions (execStarterWrite w index entry s) := by
  simp [execStarterWrite]
@[simp] theorem execStarterCancel_keeps (index : BitVec 32) : keepsRegions s.regions (execStarterCancel w index s) := by
  simp [execStarterCancel]
@[simp] theorem execStarterRead_keeps (index : BitVec 32) : keepsRegions s.regions (execStarterRead w index s) := by simp [execStarterRead]
@[simp] theorem execPsetWrite_keeps (set : BitVec 32) (plots : BitVec 256) : keepsRegions s.regions (execPsetWrite w set plots s) := by
  simp [execPsetWrite]
@[simp] theorem starterEnd_regions (late : Bool) : (starterEnd e code late s).regions = s.regions := by simp [starterEnd]
@[simp] theorem execStarterDispatch_keeps : keepsRegions s.regions (execStarterDispatch e s) := by simp [execStarterDispatch]
@[simp] theorem starterEvent_keeps (e kind : Nat) (rivals : List Order) (act : Ev → List (Nat × Nat) → State → Nat × State) (s : State)
    (h : ∀ v set s, (act v set s).2.regions = s.regions) : keepsRegions s.regions (starterEvent e kind rivals act s) := by
  simp only [starterEvent]
  split <;> simp [h]

@[simp] theorem psetEvent_regions (set : List (Nat × Nat)) (lost : BitVec 256) (act : Nat → Nat → State → Option State) (s : State)
    (h : ∀ l p s t, act l p s = some t → t.regions = s.regions) : (psetEvent set lost act s).2.regions = s.regions := by
  refine foldl_kept (π := fun q : Nat × State => q.2.regions) (fun q e => ?_) _ _
  simp only
  split
  · rfl
  · split
    · next g => exact h _ _ _ _ g
    · rfl

theorem tryStart_keeps {p : Nat} {e : Option (BitVec 12)} {s t : State} (h : tryStart p e s = some t) : t.regions = s.regions := by
  unfold tryStart at h
  split at h <;> cases h
  simp

theorem tryStop_keeps {p : Nat} {ecc : List EccHit} {s t : State} (h : tryStop p ecc s = some t) : t.regions = s.regions := by
  cases h
  simp

theorem tryPause_keeps {p : Nat} {s t : State} (h : tryPause p s = some t) : t.regions = s.regions := by
  unfold tryPause at h
  split at h <;> cases h
  simp

theorem unlessTrapped_keeps {trapped : BitVec 256} {l p : Nat} {act : State → Option State} {s t : State}
    (ha : ∀ t, act s = some t → t.regions = s.regions) (h : unlessTrapped trapped l p act s = some t) : t.regions = s.regions := by
  unfold unlessTrapped at h
  split at h
  · cases h; rfl
  · exact ha t h

theorem tryResume_keeps {p : Nat} {s t : State} (h : tryResume p s = some t) : t.regions = s.regions := by
  simp only [tryResume] at h
  split at h <;> cases h
  simp

@[simp] theorem execRunStart_keeps (rivals : List (Nat × Order)) : keepsRegions s.regions (execRunStart e rivals s) := by
  simp [execRunStart, psetEvent_regions _ _ _ _ fun _ _ _ _ h => tryStart_keeps h]
@[simp] theorem execRunStop_keeps (rivals : List (Nat × Order)) : keepsRegions s.regions (execRunStop e rivals trapped ecc s) := by
  simp [execRunStop, psetEvent_regions _ _ _ _ fun _ _ _ _ h => unlessTrapped_keeps (fun _ g => tryStop_keeps g) h]
@[simp] theorem execRunPause_keeps (rivals : List (Nat × Order)) : keepsRegions s.regions (execRunPause e rivals trapped s) := by
  simp [execRunPause, psetEvent_regions _ _ _ _ fun _ _ _ _ h => unlessTrapped_keeps (fun _ g => tryPause_keeps g) h]
@[simp] theorem execRunResume_keeps (rivals : List (Nat × Order)) : keepsRegions s.regions (execRunResume e rivals s) := by
  simp [execRunResume, psetEvent_regions _ _ _ _ fun _ _ _ _ h => tryResume_keeps h]
@[simp] theorem execStarterPowerState_keeps : keepsRegions s.regions (execStarterPowerState e rivals s) := by simp [execStarterPowerState]
@[simp] theorem execStarterPowerCap_keeps : keepsRegions s.regions (execStarterPowerCap e s) := by
  simp -implicitDefEqProofs [execStarterPowerCap]
@[simp] theorem execStarterClockCeil_keeps : keepsRegions s.regions (execStarterClockCeil e s) := by simp [execStarterClockCeil]
@[simp] theorem execStarterTelemetry_keeps : keepsRegions s.regions (execStarterTelemetry e s) := by
  simp -implicitDefEqProofs [execStarterTelemetry]

/-! ### Commit -/

@[simp] theorem writeLedger_regions : (writeLedger n k s).regions = s.regions := by simp [writeLedger]
@[simp] theorem retag_regions : (retag k s).regions = s.regions := by simp -implicitDefEqProofs [retag]
@[simp] theorem clearStep_regions : (clearStep k s).regions = s.regions := by rfl
@[simp] theorem nextStep_regions : (nextStep s).regions = s.regions := by simp [nextStep]
@[simp] theorem doCommit_regions (last : BitVec 2) (words : Option (List (BitVec 32))) : (doCommit last words s).regions = s.regions := by
  simp [doCommit]
@[simp] theorem doRollback_regions (last : BitVec 2) (word0 : Option (BitVec 32)) : (doRollback last word0 s).regions = s.regions := by
  simp [doRollback]
@[simp] theorem applyResult_regions (w : List (BitVec 32)) : (applyResult w s).regions = s.regions := by simp [applyResult]
@[simp] theorem takeResult_regions (w : List (BitVec 32)) : (takeResult w s).regions = s.regions := by
  unfold takeResult
  split <;> simp
@[simp] theorem execVerdictResult_keeps (words : List (BitVec 32)) : keepsRegions s.regions (execVerdictResult words s) := by
  simp [execVerdictResult]
@[simp] theorem execStepNRelease_keeps : keepsRegions s.regions (execStepNRelease s) := by
  unfold execStepNRelease
  split <;> simp
@[simp] theorem setVeto_regions : (setVeto s).regions = s.regions := by simp [setVeto]
@[simp] theorem execSlcCvetoWrite_keeps : keepsRegions s.regions (execSlcCvetoWrite v s) := by simp [execSlcCvetoWrite]
@[simp] theorem execVeto_keeps : keepsRegions s.regions (execVeto w s) := by simp [execVeto]
@[simp] theorem startPlan_regions (mode stale : Bool) (step : BitVec 31) : (startPlan mode stale step s).regions = s.regions := by
  simp [startPlan]
@[simp] theorem execPlanStart_keeps (mode stalePolicy cstep : BitVec 32) :
    keepsRegions s.regions (execPlanStart w mode stalePolicy cstep s) := by
  simp [execPlanStart]
@[simp] theorem execPlanEnd_keeps : keepsRegions s.regions (execPlanEnd w s) := by simp [execPlanEnd]
@[simp] theorem execResolveCommit_keeps : keepsRegions s.regions (execResolveCommit w s) := by simp [execResolveCommit]
@[simp] theorem execResolveRollback_keeps : keepsRegions s.regions (execResolveRollback w s) := by simp [execResolveRollback]
@[simp] theorem execTagRead_keeps (seg : BitVec 32) : keepsRegions s.regions (execTagRead w stack seg s) := by simp [execTagRead]
@[simp] theorem execSluiceConfig_keeps (c : SluiceConfig) : keepsRegions s.regions (execSluiceConfig w c s) := by simp [execSluiceConfig]

/-! ### Vector -/

@[simp] theorem vecElems_regions (fmt : Nat) : (vecElems fmt a n p s).2.regions = s.regions := by simp [vecElems]
@[simp] theorem outMx_regions (ovf : OvfMode) (es : List Elem) : (outMx ovf es s).2.2.2.regions = s.regions := by
  simp only [outMx]
  refine foldl_kept (π := fun q : List Byte × List Byte × Marks × State => q.2.2.2.regions) (fun q u => ?_) _ _
  simp
@[simp] theorem markRow_regions (c : VecCmd) (d : VxD) (ms : Marks) : (markRow p c d k ms s).regions = s.regions := by simp [markRow]
@[simp] theorem putRsv_regions : (putRsv p a bs s).regions = s.regions := by rfl
@[simp] theorem putRow_regions (c : VecCmd) (d : VxD) (fmt : Nat) (es : List Elem) : (putRow p c d fmt k es s).regions = s.regions := by
  simp [putRow]
@[simp] theorem vecHits_regions (c : VecCmd) (d : VxD) : (vecHits p c d x s).regions = s.regions := by simp [vecHits]
@[simp] theorem vectorOp_keeps (p op : Nat) (x : VecFaults) (pos : VecCmd → VxD → Nat → State → State) (s : State)
    (h : ∀ c d k s, (pos c d k s).regions = s.regions) : keepsRegions s.regions (vectorOp p op x pos s) := by
  simp only [vectorOp]
  split
  · simp
  · split
    · simp
    · simp only [keeps_next, State.onPlot_regions]
      split <;> simp [h]

@[simp] theorem rowA_regions (c : VecCmd) (d : VxD) : (rowA p c d k s).2.regions = s.regions := by simp [rowA]
@[simp] theorem rowB_regions (c : VecCmd) (d : VxD) : (rowB p c d k s).2.regions = s.regions := by simp [rowB]
@[simp] theorem unaryRow_regions (f : OvfMode → VxD → FR → FR) (c : VecCmd) (d : VxD) : (unaryRow p x f c d k s).regions = s.regions := by
  simp [unaryRow]
@[simp] theorem specialRow_regions (f : OvfMode → BitVec 32 → FR) (c : VecCmd) (d : VxD) :
    (specialRow p x f c d k s).regions = s.regions := by
  simp [specialRow]
@[simp] theorem binaryRow_regions (f : OvfMode → VxD → FR → FR → FR) (c : VecCmd) (d : VxD) :
    (binaryRow p x f c d k s).regions = s.regions := by
  simp [binaryRow]
@[simp] theorem drainRow_regions (c : VecCmd) (d : VxD) : (drainRow p x c d k s).regions = s.regions := by simp [drainRow]
@[simp] theorem execDrain_keeps : keepsRegions s.regions (execDrain p x s) := by simp [execDrain]
@[simp] theorem execAdd_keeps : keepsRegions s.regions (execAdd p x s) := by simp [execAdd]
@[simp] theorem execMul_keeps : keepsRegions s.regions (execMul p x s) := by simp [execMul]
@[simp] theorem execMax_keeps : keepsRegions s.regions (execMax p x s) := by simp [execMax]
@[simp] theorem execAxpby_keeps : keepsRegions s.regions (execAxpby p x s) := by simp [execAxpby]
@[simp] theorem execExp2_keeps : keepsRegions s.regions (execExp2 p x s) := by simp [execExp2]
@[simp] theorem execLog2_keeps : keepsRegions s.regions (execLog2 p x s) := by simp [execLog2]
@[simp] theorem execRcp_keeps : keepsRegions s.regions (execRcp p x s) := by simp [execRcp]
@[simp] theorem execRsqrt_keeps : keepsRegions s.regions (execRsqrt p x s) := by simp [execRsqrt]
@[simp] theorem execConvert_keeps : keepsRegions s.regions (execConvert p x s) := by simp [execConvert]
@[simp] theorem splitRow_regions (c : VecCmd) (d : VxD) : (splitRow p x c d k s).regions = s.regions := by simp [splitRow]
@[simp] theorem execSplit_keeps : keepsRegions s.regions (execSplit p x s) := by simp [execSplit]
@[simp] theorem execRowscale_keeps : keepsRegions s.regions (execRowscale p x s) := by simp [execRowscale]
@[simp] theorem rescaleRow_regions (c : VecCmd) (d : VxD) : (rescaleRow p x c d k s).regions = s.regions := by simp [rescaleRow]
@[simp] theorem execRescaleAcc_keeps : keepsRegions s.regions (execRescaleAcc p x s) := by simp [execRescaleAcc]
@[simp] theorem softmaxRow_regions (c : VecCmd) (d : VxD) : (softmaxRow p x c d k s).regions = s.regions := by simp [softmaxRow]
@[simp] theorem execSoftmaxBlock_keeps : keepsRegions s.regions (execSoftmaxBlock p x s) := by simp [execSoftmaxBlock]
@[simp] theorem tagRow_regions (c : VecCmd) (d : VxD) : (tagRow p c d k s).regions = s.regions := by rfl
@[simp] theorem execTagread_keeps : keepsRegions s.regions (execTagread p x s) := by simp [execTagread]
@[simp] theorem execFillc_keeps : keepsRegions s.regions (execFillc p x s) := by simp [execFillc]

/-! ### Relay -/

@[simp] theorem collCount_regions : (collCount k n s).regions = s.regions := by rfl
@[simp] theorem readWords_regions : (readWords a eb n ecc s).2.regions = s.regions := by simp [readWords]
@[simp] theorem execGroupLoad_keeps (group n gen : BitVec 32) : keepsRegions s.regions (execGroupLoad w group n gen list ecc s) := by
  refine (keeps_live _ _).2 fun _ => command_keeps _ _ _ _ _ fun d => ?_
  have h : (readWords list.toNat 2 n.toNat ecc s).2.regions = s.regions := by simp
  simp only
  (repeat' split) <;> simp_all
@[simp] theorem execGroupUnload_keeps (group : BitVec 32) : keepsRegions s.regions (execGroupUnload w group s) := by
  refine (keeps_live _ _).2 fun _ => command_keeps _ _ _ _ _ fun d => ?_
  simp only
  (repeat' split) <;> simp
@[simp] theorem msgRank_regions (x : Ctx) (body : List Byte) : (msgRank x r kind body s).regions = s.regions := by rfl
@[simp] theorem msgDown_regions (x : Ctx) (body : List Byte) : (msgDown x kind body s).regions = s.regions := by simp [msgDown]
@[simp] theorem collReport_regions (part : Bool) (other : Option (BitVec 64)) :
    (collReport c code rank part other s).regions = s.regions := by
  simp [collReport]
@[simp] theorem freeIfDone_regions : (freeIfDone c s).regions = s.regions := by simp [freeIfDone]
@[simp] theorem closeIfDone_regions : (closeIfDone c s).regions = s.regions := by simp [closeIfDone]
@[simp] theorem pieceRaise_regions (p : PieceD) : (pieceRaise p s).regions = s.regions := by
  simp [pieceRaise]
  split <;> simp
@[simp] theorem scramblePiece_regions (e : PieceD × Nat × Nat × Nat) : (scramblePiece e s).regions = s.regions := by
  simp only [scramblePiece]
  split
  · rfl
  · refine (foldl_regions (fun s q => ?_) _ _).trans (drawBytes_regions _ _)
    split
    · exact foldl_regions (fun s u => by split <;> simp) _ _
    · split <;> simp
@[simp] theorem writeMissing_regions (m : List Nat) : (writeMissing m s).regions = s.regions := by simp [writeMissing]
@[simp] theorem failCtx_regions (part : Bool) (other : Option (BitVec 64)) (miss : Option (List Nat)) :
    (failCtx c code rank part other miss s).regions = s.regions := by
  unfold failCtx
  split <;> simp
@[simp] theorem withTables_regions (c : Nat) (a : RelayAct) (f : State → State) (s : State) (h : (f s).regions = s.regions) :
    (withTables c a f s).regions = s.regions := by
  simp [withTables, h]

@[simp] theorem abortDown_regions (a : AbortMsg) : (abortDown c a s).regions = s.regions := by simp [abortDown]
@[simp] theorem askAbort_regions (a : AbortMsg) : (askAbort c a s).regions = s.regions := by simp [askAbort]
@[simp] theorem readSrc_regions : (readSrc c o n ecc s).2.regions = s.regions := by
  simp only [readSrc]
  refine foldl_kept (π := fun q : SrcGot × State => q.2.regions) (fun q e => ?_) _ _
  split
  · rfl
  · rw [State.onCtx_regions]
    (repeat' split) <;> simp
theorem readElems_keeps {c : Nat} {rs : List (Nat × Nat)} {ecc : List (Nat × EccHit)} {s : State}
    {r : List (BitVec 64 × Bool) × List (BitVec 31) × State}
    (h : readElems c rs ecc s = some r) : r.2.2.regions = s.regions := by
  simp only [readElems] at h
  split at h
  · cases h
  · split at h <;> cases h
    · simp
    · rw [ite_regions, State.onCtx_regions, ite_self]
      refine foldl_kept (π := fun q : SrcGot × List (BitVec 64 × Bool) × State => q.2.2.regions) (fun q e => ?_) _ _
      split <;> simp

@[simp] theorem feedInlet_regions (c i : Nat) (p : PieceD) (ob fuel : Nat) (s : State) :
    (feedInlet c i p ob fuel s).regions = s.regions := by
  induction fuel generalizing s with
  | zero => rfl
  | succ fuel ih =>
    unfold feedInlet
    simp only
    split <;> simp [ih]

theorem landBytes_keeps {c rank o : Nat} {bs : List Byte} {bad : List Nat} {tags : List (BitVec 31)} {ecc : List (Nat × EccHit)}
    {s t : State}
    (h : landBytes c rank o bs bad tags ecc s = some t) : t.regions = s.regions := by
  simp only [landBytes] at h
  split at h
  · cases h
  · cases h
    rw [ite_regions, failCtx_regions, ite_self]
    refine foldl_kept (π := fun q : Nat × State => q.2.regions) (fun q e => ?_) _ _
    split <;> simp

@[simp] theorem markPoison_regions (bad : Bool) : (markPoison c bad s).regions = s.regions := by simp [markPoison]
theorem landElems_keeps {c rank first eb : Nat} {es : List (BitVec 64 × Bool)} {tags : List (BitVec 31)} {ecc : List (Nat × EccHit)}
    {s t : State}
    (h : landElems c rank first eb es tags ecc s = some t) : t.regions = s.regions :=
  (landBytes_keeps h).trans (markPoison_regions _ _ _)

theorem landPart_keeps {c rank o : Nat} {hold : Bool} {bs : List Byte} {bad : List Nat} {tags : List (BitVec 31)}
    {ecc : List (Nat × EccHit)} {s t : State}
    (h : landPart c rank o hold bs bad tags ecc s = some t) : t.regions = s.regions := by
  simp only [landPart] at h
  split at h
  · cases h; rfl
  · split at h
    · exact landBytes_keeps h
    · split at h <;> cases h
      simp

theorem landDirect_keeps {c rank o : Nat} {es : List (BitVec 64 × Bool)} {tags : List (BitVec 31)} {ecc : List (Nat × EccHit)} {s t : State}
    (h : landDirect c rank o es tags ecc s = some t) : t.regions = s.regions := by
  simp only [landDirect] at h
  obtain ⟨q, hq, rfl⟩ := Option.map_eq_some_iff.1 h
  refine foldl_bind_some (P := fun q : Nat × State => q.2.regions = s.regions) (fun a e b ha hb => ?_) _ (fun b hb => by cases hb; simp) hq
  obtain ⟨u, hu, rfl⟩ := Option.map_eq_some_iff.1 hb
  exact (landPart_keeps hu).trans ha

@[simp] theorem releaseHeld_regions : (releaseHeld c s).regions = s.regions := by
  simp only [releaseHeld]
  refine foldl_regions (fun s h => ?_) _ _
  split
  · rfl
  · split
    · simp
    · split
      · rfl
      · next g => simp [landBytes_keeps g]
@[simp] theorem storeHits_regions (data : List (BitVec 64 × Bool)) : (storeHits c eb ecc data s).2.regions = s.regions := by
  simp [storeHits]
@[simp] theorem sendBlock_regions (e : CollSend) (data : List (BitVec 64 × Bool)) : (sendBlock c r e data tags s).regions = s.regions := by
  simp [sendBlock]
@[simp] theorem giveCollCredit_regions (k : CollBlk) : (giveCollCredit c k s).regions = s.regions := by
  unfold giveCollCredit
  split <;> simp
@[simp] theorem holdDown_regions (data : List (BitVec 64 × Bool)) : (holdDown c shard blk data tags s).regions = s.regions := by
  simp [holdDown]
theorem deliverRoot_keeps {c shard blk : Nat} {data : List (BitVec 64 × Bool)} {tags : List (BitVec 31)} {ecc : List (Nat × EccHit)}
    {s t : State}
    (h : deliverRoot c shard blk data tags ecc s = some t) : t.regions = s.regions := by
  obtain ⟨u, hu, rfl⟩ := Option.map_eq_some_iff.1 h
  simp [landElems_keeps hu]

theorem readLeaf_keeps {c shard blk i : Nat} {ecc : List (Nat × EccHit)} {s : State}
    {r : List (BitVec 64 × Bool) × List (BitVec 31) × State}
    (h : readLeaf c shard blk i ecc s = some r) : r.2.2.regions = s.regions := by
  obtain ⟨q, hq, rfl⟩ := Option.map_eq_some_iff.1 h
  exact readElems_keeps (r := q) hq

theorem settle_keeps {c shard blk fuel a b : Nat} {data : List (BitVec 64 × Bool)} {tags : List (BitVec 31)} {sender : Option Nat}
    {ecc : List (Nat × EccHit)} {s t : State}
    (h : settle c shard blk fuel a b data tags sender ecc s = some t) : t.regions = s.regions := by
  induction fuel generalizing a b data tags sender ecc s with
  | zero => cases h; rfl
  | succ fuel ih =>
    simp only [settle] at h
    split at h
    · exact deliverRoot_keeps h
    · next pa pb ph _ =>
      split at h
      · cases h; simp
      · generalize (if a = pa then treeMid pa pb else pa) = sa, (if a = pa then pb else treeMid pa pb) = sb at h
        split at h
        · cases h
        · cases h; simp
        · next g =>
          refine (ih h).trans ?_
          rw [collCount_regions, giveCollCredit_regions, giveCollCredit_regions]
          split at g
          · obtain ⟨r, hr, e⟩ := Option.map_eq_some_iff.1 g
            cases e
            exact readLeaf_keeps hr
          · obtain ⟨k, -, e⟩ := Option.map_eq_some_iff.1 (Option.some.inj g)
            cases e
            simp

theorem takeBlock_keeps {c : Nat} {b : CollBlock} {ecc : List (Nat × EccHit)} {s t : State}
    (h : takeBlock c b ecc s = some t) : t.regions = s.regions := by
  simp only [takeBlock] at h
  split at h
  · cases h; simp
  · split at h
    · simp [settle_keeps h]
    · split at h
      · simp [landDirect_keeps h]
      · obtain ⟨u, hu, rfl⟩ := Option.map_eq_some_iff.1 h
        simp [landElems_keeps hu]

@[simp] theorem keepEarly_regions : (keepEarly c b s).regions = s.regions := by rfl
@[simp] theorem stageBlock_regions : (stageBlock c b s).regions = s.regions := by rfl
@[simp] theorem startData_regions : (startData c s).regions = s.regions := by simp [startData]
@[simp] theorem learnSizes_regions : (learnSizes c s).regions = s.regions := by simp [learnSizes]
@[simp] theorem startIfReady_regions : (startIfReady c s).regions = s.regions := by simp [startIfReady]
@[simp] theorem goCtx_regions : (goCtx c s).regions = s.regions := by simp [goCtx]
@[simp] theorem rankZero_regions : (rankZero c s).regions = s.regions := by
  simp only [rankZero]
  split <;> simp
@[simp] theorem sendPost_regions : (sendPost c s).regions = s.regions := by simp [sendPost]
@[simp] theorem launchCtx_regions : (launchCtx c s).regions = s.regions := by simp [launchCtx]
@[simp] theorem refusePost_regions : (refusePost code s).s.regions = s.regions := by rfl
@[simp] theorem execCollPost_keeps (desc : List Byte) : keepsRegions s.regions (execCollPost w desc s) := by
  refine (keeps_live _ _).2 fun _ => command_keeps _ _ _ _ _ fun d => ?_
  simp only
  (repeat' split) <;> simp -implicitDefEqProofs
@[simp] theorem execCollLaunch_keeps : keepsRegions s.regions (execCollLaunch e rivals s) := by simp [execCollLaunch]
@[simp] theorem execFlagsLaunch_keeps (d : Nat) : keepsRegions s.regions (execFlagsLaunch d s) := by
  simp only [execFlagsLaunch]
  split <;> simp
@[simp] theorem launchVerdict_regions : (launchVerdict s).regions = s.regions := by
  unfold launchVerdict
  split <;> simp
@[simp] theorem execCollStatus_keeps (ctx : BitVec 32) : keepsRegions s.regions (execCollStatus w ctx s) := by simp [execCollStatus]
@[simp] theorem execCollAbort_keeps (ctx : BitVec 32) : keepsRegions s.regions (execCollAbort w ctx seq rivals s) := by
  simp -implicitDefEqProofs [execCollAbort]
@[simp] theorem latePkt_regions : (latePkt s).regions = s.regions := by rfl
@[simp] theorem execPost_keeps (src : BitVec 14) (digest : BitVec 64) : keepsRegions s.regions (execPost src group seq rank digest s) := by
  simp only [execPost, keeps_live]
  intro _
  (repeat' split) <;> simp -implicitDefEqProofs
@[simp] theorem execRetry_keeps : keepsRegions s.regions (execRetry group seq s) := by
  unfold execRetry
  split <;> simp
@[simp] theorem execPostRetryTimer_keeps : keepsRegions s.regions (execPostRetryTimer c s) := by
  unfold execPostRetryTimer
  split <;> simp
@[simp] theorem execGo_keeps : keepsRegions s.regions (execGo group seq s) := by
  unfold execGo
  split <;> simp
@[simp] theorem takeAbort_regions (a : AbortMsg) : (takeAbort c a s).regions = s.regions := by simp [takeAbort]
@[simp] theorem execAbort_keeps (a : AbortMsg) : keepsRegions s.regions (execAbort group seq a s) := by
  unfold execAbort
  split <;> simp
@[simp] theorem takeCount_regions (count : Nat) : (takeCount c rank count s).regions = s.regions := by simp [takeCount]
@[simp] theorem execCollCount_keeps (count : Nat) : keepsRegions s.regions (execCollCount group seq rank count s) := by
  simp only [execCollCount, keeps_live]
  intro _
  (repeat' split) <;> simp -implicitDefEqProofs
@[simp] theorem execCollTimeout_keeps : keepsRegions s.regions (execCollTimeout c s) := by
  simp only [execCollTimeout]
  split <;> simp
@[simp] theorem answerBlock_regions (op : BitVec 4) (arg : BitVec 32) : (answerBlock op arg b s).regions = s.regions := by
  simp [answerBlock]
@[simp] theorem ackBlock_regions : (ackBlock b s).regions = s.regions := by simp [ackBlock]
@[simp] theorem execCollData_keeps : keepsRegions s.regions (execCollData group seq b ecc s) := by
  simp only [execCollData, keeps_live]
  intro _
  split
  · simp
  · split
    · simp
    · split
      · simp
      · split
        · simp
        · split
          · simp
          · split
            · simp
            · next g => simp [takeBlock_keeps g]
    · simp
@[simp] theorem execCollCredit_keeps : keepsRegions s.regions (execCollCredit group seq rank s) := by
  unfold execCollCredit
  split <;> simp
theorem sendOne_keeps {c : Nat} {e : CollSend} {ecc : List (Nat × EccHit)} {s t : State}
    (h : sendOne c e ecc s = some t) : t.regions = s.regions := by
  simp only [sendOne] at h
  split at h
  · split at h
    · split at h
      · split at h
        · cases h
        · next g => simpa using (settle_keeps h).trans (readLeaf_keeps g)
      · split at h
        · cases h
        · split at h
          · split at h
            · cases h
            · next g =>
              cases h
              simpa using readElems_keeps g
          · split at h <;> cases h <;> simp
    · split at h
      · cases h
      · next g => simpa using (settle_keeps h).trans (readLeaf_keeps g)
  · split at h
    · split at h
      · cases h
      · next g =>
        have hs := readElems_keeps g
        split at h
        · cases h
          simpa using hs
        · obtain ⟨u, hu, rfl⟩ := Option.map_eq_some_iff.1 h
          simpa [landElems_keeps hu] using hs
    · split at h <;> cases h <;> simp
  · split at h
    · cases h
    · next g =>
      have hs := readElems_keeps g
      split at h
      · cases h
        simpa using hs
      · split at h
        · simpa [landDirect_keeps h] using hs
        · cases h
          simpa using hs
  · split at h
    · cases h; simp
    · simp [takeBlock_keeps h]

@[simp] theorem runAct_regions (a : RelayAct) : (runAct a s).regions = s.regions := by
  simp [runAct]
  split <;> simp
@[simp] theorem catchUp_regions : (catchUp s).regions = s.regions := by simp [catchUp]
@[simp] theorem execCollBlockSend_keeps : keepsRegions s.regions (execCollBlockSend c k ecc s) := by
  simp only [execCollBlockSend, keeps_live]
  intro _
  split
  · simp
  · split
    · simp
    · split
      · simp
      · split
        · simp
        · next g => simp [sendOne_keeps g]
@[simp] theorem tagRecord_regions (p : Piece) : (tagRecord p s).2.regions = s.regions := by
  unfold tagRecord
  split <;> simp
@[simp] theorem execPieceComplete_keeps (dst : Bool) : keepsRegions s.regions (execPieceComplete c dst i s) := by
  simp only [execPieceComplete]
  split <;> simp
@[simp] theorem relayAnswer_regions (posted : Nat) (nack : Bool) : (relayAnswer c posted nack s).regions = s.regions := by
  simp -implicitDefEqProofs [relayAnswer]
@[simp] theorem putServed_regions (v : Served) : (putServed c i seg v s).regions = s.regions := by rfl
@[simp] theorem serveHalf_regions (e : SegE) (tag : BitVec 31) : (serveHalf c i k seg n e tag s).regions = s.regions := by
  simp only [serveHalf]
  split <;> simp
@[simp] theorem tagFault_regions (e : Option Bool) : (tagFault k seg e s).regions = s.regions := by
  unfold tagFault
  split <;> simp
@[simp] theorem holdOp_regions (want : BitVec 31) : (holdOp k seg op want s).regions = s.regions := by
  unfold holdOp
  split <;> simp
@[simp] theorem gatherStale_regions (want found : BitVec 31) : (gatherStale k seg want found s).regions = s.regions := by simp [gatherStale]
@[simp] theorem gather_regions : (gather k c i seg s).regions = s.regions := by simp [gather]
@[simp] theorem execSluiceGatherServe_keeps (q : Gather) : keepsRegions s.regions (execSluiceGatherServe k q s) := by
  unfold execSluiceGatherServe
  split <;> simp
@[simp] theorem execGatherWaitRetry_keeps (j : Nat) : keepsRegions s.regions (execGatherWaitRetry k j s) := by
  unfold execGatherWaitRetry
  (repeat' split) <;> simp
  all_goals (split <;> simp)

/-! ### Fabric -/

@[simp] theorem fabCount_regions : (fabCount k n s).regions = s.regions := by rfl
@[simp] theorem fabDiscard_regions (bits : Nat) : (fabDiscard index bits n s).regions = s.regions := by simp [fabDiscard]
@[simp] theorem noteAway_regions (k : Packet) : (noteAway k s).regions = s.regions := by simp [noteAway]
@[simp] theorem putEnd_regions (die : Nat) (k : Packet) (e : Ends) : (putEnd die k e s).regions = s.regions := by
  unfold putEnd
  split <;> simp
@[simp] theorem freeSpill_regions : (freeSpill l s).regions = s.regions := by simp [freeSpill]
@[simp] theorem spillStep_regions : (spillStep l s).regions = s.regions := by
  unfold spillStep
  (repeat' split) <;> simp
@[simp] theorem spillSteps_regions : (spillSteps s).regions = s.regions := by simp [spillSteps]
@[simp] theorem popInput_regions : (popInput l s).regions = s.regions := by rfl
@[simp] theorem noteDefl_regions (k : Packet) : (noteDefl k s).regions = s.regions := by rfl
@[simp] theorem forward_regions (defl : Bool) : (forward l m defl s).regions = s.regions := by
  unfold forward
  split <;> simp
@[simp] theorem bounceHead_regions : (bounceHead l s).regions = s.regions := by
  unfold bounceHead
  split <;> simp
@[simp] theorem routeHead_regions (l fuel : Nat) (s : State) : (routeHead l fuel s).regions = s.regions := by
  induction fuel generalizing s with
  | zero => simp [routeHead]
  | succ fuel ih =>
    unfold routeHead
    split
    · simp
    · simp -implicitDefEqProofs [ih]

@[simp] theorem escalate_regions (k : Packet) : (escalate l k s).regions = s.regions := by simp [escalate]
@[simp] theorem execRoutePacket_keeps : keepsRegions s.regions (execRoutePacket l s) := by
  simp only [execRoutePacket, keeps_live]
  intro _
  (repeat' split) <;> simp
@[simp] theorem execPacketReceive_keeps (pk : Packet) : keepsRegions s.regions (execPacketReceive l pk s) := by simp [execPacketReceive]
@[simp] theorem execSpillCredit_keeps : keepsRegions s.regions (execSpillCredit l s) := by simp [execSpillCredit]
@[simp] theorem startPacket_regions (k : Packet) : (startPacket l k s).regions = s.regions := by rfl
@[simp] theorem startSpill_regions (j : Nat) (k : Packet) : (startSpill l j k s).regions = s.regions := by simp [startSpill]
@[simp] theorem nextPacket_regions : (nextPacket l s).regions = s.regions := by
  simp only [nextPacket]
  split <;> simp
@[simp] theorem execSpillwayTurn_keeps : keepsRegions s.regions (execSpillwayTurn l s) := by
  unfold execSpillwayTurn
  split <;> simp
@[simp] theorem packFlit_regions (l fuel : Nat) (p : Packing) (s : State) : (packFlit l fuel p s).2.regions = s.regions := by
  induction fuel generalizing p s with
  | zero => rfl
  | succ fuel ih =>
    unfold packFlit
    simp only
    split
    · simp
    · split <;> simp -implicitDefEqProofs [ih]

@[simp] theorem putFlit_regions (type : BitVec 2) (f : TxFlit) (replay : Bool) : (putFlit l type f replay s).regions = s.regions := by rfl
@[simp] theorem keepFlit_regions (f : TxFlit) : (keepFlit l f s).regions = s.regions := by rfl
@[simp] theorem idleFlit_regions : (idleFlit l s).regions = s.regions := by rfl
@[simp] theorem dataFlit_regions : (dataFlit l s).regions = s.regions := by simp [dataFlit]
@[simp] theorem replayFlit_regions : (replayFlit l i s).regions = s.regions := by rfl
@[simp] theorem execFlitTransmit_keeps : keepsRegions s.regions (execFlitTransmit l s) := by
  simp only [execFlitTransmit, keeps_live]
  intro _
  (repeat' split) <;> simp
@[simp] theorem stamp_regions (k : Packet) : (s.stamp k).2.regions = s.regions := by simp [State.stamp]
@[simp] theorem inject_regions (key : Nat) (k : Packet) (rest : List Packet) (put : Packet → State → State) (s : State)
    (h : ∀ k s, (put k s).regions = s.regions) : (inject key k rest put s).regions = s.regions := by
  simp [inject, h]

@[simp] theorem takeAnswer_regions (t : BitVec 16) (refused : Bool) : (takeAnswer t refused s).regions = s.regions := by
  unfold takeAnswer
  split <;> simp
@[simp] theorem noRoute_regions (k : Packet) (rest : List Packet) : (noRoute key k rest s).regions = s.regions := by simp [noRoute]
@[simp] theorem injWait_regions : (injWait key s).regions = s.regions := by rfl
@[simp] theorem execPacketInject_keeps (unit : Nat) : keepsRegions s.regions (execPacketInject cls unit s) := by
  simp only [execPacketInject, keeps_live]
  intro _
  (repeat' split) <;> simp -implicitDefEqProofs
@[simp] theorem deliver_regions (k : Packet) : (deliver k s).regions = s.regions := by simp [deliver]
@[simp] theorem deliverChecked_regions (k : Packet) : (deliverChecked k s).regions = s.regions := by simp [deliverChecked]
@[simp] theorem execEjection_keeps (die : Nat) : keepsRegions s.regions (execEjection die s) := by
  unfold execEjection
  split <;> simp
@[simp] theorem grantPark_regions : (grantPark s).regions = s.regions := by
  unfold grantPark
  split <;> simp
@[simp] theorem execBatonParkDeliver_keeps (src : Nat) : keepsRegions s.regions (execBatonParkDeliver cls src s) := by
  unfold execBatonParkDeliver
  split <;> simp
@[simp] theorem serveOp_keeps (op : Nat) (ready : Packet → State → Bool) (act : Packet → State → State) (s : State)
    (h : ∀ k s, (act k s).regions = s.regions) : keepsRegions s.regions (serveOp op ready act s) := by
  unfold serveOp
  split <;> simp [h]

@[simp] theorem answerWrite_regions (k : Packet) : (answerWrite k code s).regions = s.regions := by simp [answerWrite]
@[simp] theorem execWrite_keeps : keepsRegions s.regions (execWrite ecc s) := by
  exact (keeps_live _ _).2 fun _ => serveOp_keeps _ _ _ _ fun k s => by simp only; (repeat' split) <;> simp
@[simp] theorem appendPacket_regions (k : Packet) : (appendPacket slot ecc k s).regions = s.regions := by
  simp only [appendPacket]
  split <;> simp
@[simp] theorem execAppendRow_keeps : keepsRegions s.regions (execAppendRow ecc s) := by simp [execAppendRow]
@[simp] theorem execAppendSlot_keeps : keepsRegions s.regions (execAppendSlot ecc s) := by simp [execAppendSlot]
@[simp] theorem execRead_keeps : keepsRegions s.regions (execRead ecc s) := by simp [execRead]
@[simp] theorem answered_regions : (answered s).regions = s.regions := by rfl
@[simp] theorem execReadData_keeps : keepsRegions s.regions (execReadData s) := by
  exact (keeps_live _ _).2 fun _ => serveOp_keeps _ _ _ _ fun k s => by simp only; split <;> simp
@[simp] theorem execAck_keeps : keepsRegions s.regions (execAck s) := by simp [execAck]
@[simp] theorem execNack_keeps : keepsRegions s.regions (execNack s) := by simp [execNack]
@[simp] theorem execCredit_keeps : keepsRegions s.regions (execCredit s) := by simp -implicitDefEqProofs [execCredit]
@[simp] theorem execBatonDone_keeps : keepsRegions s.regions (execBatonDone s) := by simp -implicitDefEqProofs [execBatonDone]
@[simp] theorem writeShadow_regions (d : Nat) : (writeShadow d v s).regions = s.regions := by simp [writeShadow]
@[simp] theorem execRouteLoad_keeps (first : BitVec 32) : keepsRegions s.regions (execRouteLoad w addr first count ecc s) := by
  simp [execRouteLoad]
@[simp] theorem endDrainMode_regions : (endDrainMode s).regions = s.regions := by rfl
@[simp] theorem swapBanks_regions : (swapBanks s).regions = s.regions := by rfl
@[simp] theorem lateSwap_regions (ts : BitVec 64) : (lateSwap ts e n s).regions = s.regions := by
  simp only [lateSwap]
  split <;> simp
@[simp] theorem execDrainBegin_keeps : keepsRegions s.regions (execDrainBegin e rivals s) := by simp -implicitDefEqProofs [execDrainBegin]
@[simp] theorem execRouteSwap_keeps : keepsRegions s.regions (execRouteSwap e rivals s) := by simp [execRouteSwap]
@[simp] theorem execDrainEnd_keeps : keepsRegions s.regions (execDrainEnd e rivals s) := by simp [execDrainEnd]
@[simp] theorem execDeviceDrained_keeps : keepsRegions s.regions (execDeviceDrained s) := by
  simp [execDeviceDrained]
  split <;> simp
@[simp] theorem execSwapDeadline_keeps : keepsRegions s.regions (execSwapDeadline s) := by
  simp only [execSwapDeadline, keeps_live]
  intro _
  split <;> simp -implicitDefEqProofs
@[simp] theorem execFlowMapWindowEnd_keeps : keepsRegions s.regions (execFlowMapWindowEnd s) := by simp [execFlowMapWindowEnd]

/-! ### Spares -/

@[simp] theorem resetPlot_regions (ecc : List EccHit) : (resetPlot p ecc s).regions = s.regions := by simp [resetPlot]
@[simp] theorem execPlotReset_keeps : keepsRegions s.regions (execPlotReset w pset ecc s) := by
  refine (keeps_live _ _).2 fun _ => command_keeps _ _ _ _ _ fun d => ?_
  (repeat' split) <;> simp
  exact foldl_regions (fun s l => by split <;> simp) _ _
@[simp] theorem burnSpares_regions : (burnSpares d s).s.regions = s.regions := by simp [burnSpares]
@[simp] theorem execSpareFuse_keeps : keepsRegions s.regions (execSpareFuse w s) := by simp [execSpareFuse]
@[simp] theorem applyFuse_regions (v : Nat) : (applyFuse v s).regions = s.regions := by
  unfold applyFuse
  split <;> simp
@[simp] theorem applyFuses_regions : (applyFuses s).regions = s.regions := by simp [applyFuses]
@[simp] theorem retirePlot_regions : (retirePlot o s).regions = s.regions := by rfl
@[simp] theorem remapPlot_regions (answers : Bool) : (remapPlot l p answers d s).s.regions = s.regions := by
  unfold remapPlot
  split <;> simp
@[simp] theorem execPlotRemap_keeps (lplot phys : BitVec 32) (answers : Bool) :
    keepsRegions s.regions (execPlotRemap w lplot phys answers s) := by
  simp [execPlotRemap]
@[simp] theorem execCeSummaryTimer_keeps : keepsRegions s.regions (execCeSummaryTimer s) := by simp [execCeSummaryTimer]
@[simp] theorem takeDseq_regions : (s.takeDseq).2.regions = s.regions := by rfl
@[simp] theorem ownCommand_regions (act : BitVec 32 → State → Reply) (s : State) (h : ∀ d s, (act d s).s.regions = s.regions) :
    (ownCommand act s).regions = s.regions := by
  simp [ownCommand, h]

@[simp] theorem autoRepair_regions (a : Repair) (ecc : List EccHit) : (autoRepair a ecc s).regions = s.regions := by
  cases a <;> simp only [autoRepair] <;> (repeat' split) <;> simp
@[simp] theorem execHealthAutoRepair_keeps (a : Repair) (ecc : List EccHit) : keepsRegions s.regions (execHealthAutoRepair a ecc s) := by
  simp [execHealthAutoRepair]

/-! ### Verdict -/

@[simp] theorem seqErr_regions : (seqErr s).regions = s.regions := by rfl
@[simp] theorem verdictAct_regions : (verdictAct s).regions = s.regions := by simp [verdictAct]
@[simp] theorem execVerdict_keeps : keepsRegions s.regions (execVerdict e rivals s) := by simp [execVerdict]
@[simp] theorem execCommit_keeps : keepsRegions s.regions (execCommit e rivals s) := by
  exact (keeps_live _ _).2 fun _ => starterEvent_keeps _ _ _ _ _ fun _ _ s => by split <;> simp
@[simp] theorem execRollback_keeps : keepsRegions s.regions (execRollback e rivals s) := by
  exact (keeps_live _ _).2 fun _ => starterEvent_keeps _ _ _ _ _ fun _ _ s => by split <;> simp

/-! ### Registers -/

@[simp] theorem readBar0_regions : (readBar0 o n s).2.regions = s.regions := by
  unfold readBar0
  (repeat' split) <;> simp
  all_goals (split <;> simp)
@[simp] theorem execWideRegisterRead_keeps (bar2 : Bool) (size : Nat) : keepsRegions s.regions (execWideRegisterRead bar2 off size s) := by
  simp [execWideRegisterRead]

/-! ### Windows -/

@[simp] theorem turnAway_regions (res : List Byte) : (turnAway w st res s).regions = s.regions := by simp [turnAway]
@[simp] theorem newNonce_regions : (newNonce s).regions = s.regions := by rfl
@[simp] theorem spendNonce_regions : (spendNonce op s).regions = s.regions := by simp [spendNonce]
@[simp] theorem checkOp_regions : (checkOp w d s).regions = s.regions := by
  simp only [checkOp]
  split <;> simp
@[simp] theorem consume_regions : (consume w v s).regions = s.regions := by simp [consume]
@[simp] theorem commitWrite_regions : (commitWrite w v s).regions = s.regions := by
  unfold commitWrite
  split <;> simp
@[simp] theorem execCmdCommit_keeps : keepsRegions s.regions (execCmdCommit w v s) := by simp [execCmdCommit]
@[simp] theorem serveLatched_regions : (serveLatched s).regions = s.regions := by
  unfold serveLatched
  exact foldl_regions (fun s w => by split <;> simp) _ _
@[simp] theorem commandBack_regions : (commandBack s).regions = s.regions := by
  simp only [commandBack, serveLatched_regions, restartLongs_regions]
  exact foldl_regions (fun s w => by split <;> simp) _ _
@[simp] theorem execEcho_keeps : keepsRegions s.regions (execEcho w data s) := by simp [execEcho]
@[simp] theorem execIdentify_keeps : keepsRegions s.regions (execIdentify w s) := by simp [execIdentify]
@[simp] theorem execJournalFetch_keeps (first : BitVec 64) : keepsRegions s.regions (execJournalFetch w first count host s) := by
  simp [execJournalFetch]
@[simp] theorem signalRing_regions : (signalRing s).regions = s.regions := by simp [signalRing]
@[simp] theorem skipLost_regions : (skipLost s).regions = s.regions := by simp [skipLost]
@[simp] theorem ringWrite_regions : (ringWrite s).regions = s.regions := by simp -implicitDefEqProofs [ringWrite]
@[simp] theorem execJournalRingWrite_keeps : keepsRegions s.regions (execJournalRingWrite s) := by simp [execJournalRingWrite]
@[simp] theorem writeJtail_regions (v : BitVec 64) : (writeJtail v s).regions = s.regions := by simp [writeJtail]
@[simp] theorem execCmdJtailWrite_keeps (v : BitVec 64) : keepsRegions s.regions (execCmdJtailWrite v s) := by simp [execCmdJtailWrite]
@[simp] theorem writeJcfg_regions (v : Nat) : (writeJcfg v s).regions = s.regions := by rfl
@[simp] theorem execCmdJcfgWrite_keeps : keepsRegions s.regions (execCmdJcfgWrite v s) := by simp [execCmdJcfgWrite]
@[simp] theorem execJournalModTimer_keeps : keepsRegions s.regions (execJournalModTimer s) := by simp [execJournalModTimer]
@[simp] theorem strayBar2_regions : (strayBar2 off s).regions = s.regions := by simp [strayBar2]
@[simp] theorem execBar2Write_keeps : keepsRegions s.regions (execBar2Write off s) := by simp [execBar2Write]
@[simp] theorem bar4Fail_regions : (bar4Fail a s).regions = s.regions := by rfl
@[simp] theorem demandUnits_regions : (demandUnits a n errs s).regions = s.regions := by
  unfold demandUnits; exact foldl_regions (fun s q => by simp only; (repeat' split) <;> simp) _ _
@[simp] theorem execBar4Read_keeps (len : Nat) : keepsRegions s.regions (execBar4Read off len errs ecc s) := by simp [execBar4Read]
@[simp] theorem execBar4Write_keeps : keepsRegions s.regions (execBar4Write off data ecc s) := by simp [execBar4Write]
@[simp] theorem writeBar4Base_regions (v : Nat) : (writeBar4Base v s).regions = s.regions := by rfl
@[simp] theorem execCmdBar4BaseWrite_keeps (v : BitVec 64) : keepsRegions s.regions (execCmdBar4BaseWrite v s) := by
  simp [execCmdBar4BaseWrite]

/-! ### HostDma -/

@[simp] theorem planLoad_regions (count src : Nat) : (planLoad pset kind first count src ecc s).s.regions = s.regions := by
  simp -implicitDefEqProofs [planLoad]
@[simp] theorem execPlanLoad_keeps (kind first : BitVec 32) (src : BitVec 64) :
    keepsRegions s.regions (execPlanLoad w pset kind first count src ecc s) := by
  simp [execPlanLoad]
@[simp] theorem runControl_regions (pset lost : BitVec 256) (act : Nat → Nat → State → Option State) (s : State)
    (h : ∀ l p s t, act l p s = some t → t.regions = s.regions) : (runControl pset lost act s).s.regions = s.regions := by
  refine foldl_kept (π := fun q : List Nat × List Nat × State => q.2.2.regions) (fun q e => ?_) _ _
  split
  · rfl
  · split
    · next g => exact h _ _ _ _ g
    · rfl

@[simp] theorem runControlCmd_keeps (w : Win) (pset : BitVec 256) (control : Nat) (entry : BitVec 32) (rivals : List (Nat × Order))
    (act : Nat → Nat → State → Option State) (s : State)
    (h : ∀ l p s t, act l p s = some t → t.regions = s.regions) :
    keepsRegions s.regions (runControlCmd w pset control entry rivals act s) := by
  simp [runControlCmd, runControl_regions _ _ act _ h]

@[simp] theorem execRunControlStart_keeps (rivals : List (Nat × Order)) :
    keepsRegions s.regions (execRunControlStart w pset entry rivals s) := by
  simp [execRunControlStart, runControlCmd_keeps _ _ _ _ _ _ _ fun _ _ _ _ h => tryStart_keeps h]
@[simp] theorem execRunControlStop_keeps (rivals : List (Nat × Order)) :
    keepsRegions s.regions (execRunControlStop w pset entry rivals trapped ecc s) := by
  simp [execRunControlStop, runControlCmd_keeps _ _ _ _ _ _ _ fun _ _ _ _ h => unlessTrapped_keeps (fun _ g => tryStop_keeps g) h]
@[simp] theorem execRunControlPause_keeps (rivals : List (Nat × Order)) :
    keepsRegions s.regions (execRunControlPause w pset entry rivals trapped s) := by
  simp [execRunControlPause, runControlCmd_keeps _ _ _ _ _ _ _ fun _ _ _ _ h => unlessTrapped_keeps (fun _ g => tryPause_keeps g) h]
@[simp] theorem execRunControlResume_keeps (rivals : List (Nat × Order)) :
    keepsRegions s.regions (execRunControlResume w pset entry rivals s) := by
  simp [execRunControlResume, runControlCmd_keeps _ _ _ _ _ _ _ fun _ _ _ _ h => tryResume_keeps h]
@[simp] theorem execFlagRaise_keeps (flag : BitVec 32) : keepsRegions s.regions (execFlagRaise w pset flag s) := by simp [execFlagRaise]
@[simp] theorem startHostDma_regions (kind : HostKind) (list count : Nat) (pattern : BitVec 32) :
    (startHostDma w kind d list count pattern s).s.regions = s.regions := by rfl
@[simp] theorem listDma_keeps (kind : HostKind) : keepsRegions s.regions (listDma w op kind list count s) := by simp [listDma]
@[simp] theorem execDmaToDevice_keeps : keepsRegions s.regions (execDmaToDevice w list count s) := by simp [execDmaToDevice]
@[simp] theorem execDmaToHost_keeps : keepsRegions s.regions (execDmaToHost w list count s) := by simp [execDmaToHost]
@[simp] theorem execDmaFill_keeps (dst bytes : BitVec 64) (pattern : BitVec 32) :
    keepsRegions s.regions (execDmaFill w dst bytes pattern s) := by
  simp [execDmaFill]
@[simp] theorem listRaise_regions : (listRaise r s).regions = s.regions := by
  simp [listRaise]
  split <;> simp
@[simp] theorem endHostDma_regions (t : HostDma) (res : List (BitVec 32)) : (endHostDma k t st res s).regions = s.regions := by rfl
@[simp] theorem freeRun_regions : (freeRun a n s).regions = s.regions := by simp [freeRun]
@[simp] theorem moveEntry_regions (t : HostDma) (e : ListE) : (moveEntry t e ecc s).2.regions = s.regions := by simp [moveEntry]
@[simp] theorem nextEntry_regions (t : HostDma) (e : ListE) : (nextEntry k t e ecc s).regions = s.regions := by simp [nextEntry]
@[simp] theorem execHostDmaEntryComplete_keeps : keepsRegions s.regions (execHostDmaEntryComplete k ecc s) := by
  unfold execHostDmaEntryComplete
  split <;> simp
@[simp] theorem execDmaFillComplete_keeps : keepsRegions s.regions (execDmaFillComplete k ecc s) := by
  unfold execDmaFillComplete
  split <;> simp

/-! ### Boot -/

@[simp] theorem commitSvn_regions (img : List Byte) : (commitSvn img s).regions = s.regions := by simp [commitSvn]
@[simp] theorem rejectImage_regions (step : Nat) (img : List Byte) : (rejectImage step slot img d s).regions = s.regions := by rfl
@[simp] theorem readImage_regions : (readImage a n ecc s).2.regions = s.regions := by simp [readImage]
@[simp] theorem bootGo_regions : (bootGo ecc s).regions = s.regions := by simp [bootGo]
@[simp] theorem execBootGo_keeps : keepsRegions s.regions (execBootGo ecc s) := by simp [execBootGo]
@[simp] theorem startRoles_regions : (startRoles slot s).regions = s.regions := by rfl
@[simp] theorem openWindows_regions : (openWindows s).regions = s.regions := by rfl
@[simp] theorem failSpare_regions : (failSpare s m).regions = s.regions := by simp [failSpare]
@[simp] theorem bootReject_regions : (bootReject code s).regions = s.regions := by rfl
@[simp] theorem bootVerified_regions (spareFails : List Nat) : (bootVerified spareFails s).regions = s.regions := by
  simp [bootVerified]
  split <;> simp
@[simp] theorem execBootVerifyComplete_keeps (spareFails : List Nat) : keepsRegions s.regions (execBootVerifyComplete spareFails s) := by
  simp [execBootVerifyComplete]
@[simp] theorem powerHold_regions (entry cap ns : Nat) : (powerHold entry cap ns s).regions = s.regions := by rfl
@[simp] theorem engageHold_regions : (engageHold s).regions = s.regions := by simp [engageHold]
@[simp] theorem stopMarshal_regions (st : MState) : (stopMarshal m st s).regions = s.regions := by rfl
@[simp] theorem moveRole_regions (from_ dest : Nat) (st : MState) : (moveRole role from_ dest slot st s).regions = s.regions := by rfl
@[simp] theorem takeover_regions : (takeover role m s).regions = s.regions := by
  unfold takeover
  split <;> simp
@[simp] theorem closeWindows_regions : (closeWindows s).regions = s.regions := by rfl
@[simp] theorem crash_regions (cause : Nat) (pc : BitVec 64) (hashOk : Bool) : (crash m cause pc hashOk s).regions = s.regions := by
  simp [crash]
@[simp] theorem execWatchdogExpiry_keeps (hashOk : Bool) : keepsRegions s.regions (execWatchdogExpiry m hashOk s) := by
  simp [execWatchdogExpiry]
@[simp] theorem execMarshalFault_keeps (cause : BitVec 4) (pc : BitVec 64) (hashOk : Bool) :
    keepsRegions s.regions (execMarshalFault m cause pc hashOk s) := by
  simp [execMarshalFault]
@[simp] theorem roleUpAgain_regions : (roleUpAgain role m s).regions = s.regions := by simp [roleUpAgain]
@[simp] theorem execMarshalRestartComplete_keeps : keepsRegions s.regions (execMarshalRestartComplete role s) := by
  unfold execMarshalRestartComplete
  split <;> simp
@[simp] theorem execMarshalRestart_keeps (role : BitVec 32) : keepsRegions s.regions (execMarshalRestart w role s) := by
  refine (keeps_live _ _).2 fun _ => command_keeps _ _ _ _ _ fun d => ?_
  (repeat' split) <;> simp
@[simp] theorem execGrantMissing_keeps : keepsRegions s.regions (execGrantMissing s) := by simp [execGrantMissing]
@[simp] theorem fwStage_regions (addr : Nat) : (fwStage w addr n ecc d s).s.regions = s.regions := by
  unfold fwStage
  have h : (readImage addr n ecc s).2.regions = s.regions := by simp
  (repeat' split) <;> simp_all
@[simp] theorem execFwStage_keeps (bytes : BitVec 32) : keepsRegions s.regions (execFwStage w addr bytes ecc s) := by simp [execFwStage]
@[simp] theorem execFwStageComplete_keeps : keepsRegions s.regions (execFwStageComplete s) := by
  unfold execFwStageComplete
  (repeat' split) <;> simp
  all_goals (split <;> simp)
@[simp] theorem execFwActivate_keeps (roles : BitVec 32) : keepsRegions s.regions (execFwActivate w roles s) := by simp [execFwActivate]
@[simp] theorem activated_regions (l : Long) (roles : Nat) : (activated l roles s).regions = s.regions := by simp [activated]
@[simp] theorem roleMove_regions (l : Long) (crashed : Bool) : (roleMove l crashed s).regions = s.regions := by
  simp only [roleMove]
  split <;> simp
@[simp] theorem execFwRoleMove_keeps (crashed : Bool) : keepsRegions s.regions (execFwRoleMove crashed s) := by
  unfold execFwRoleMove
  split <;> simp
@[simp] theorem execDeviceReset_keeps : keepsRegions s.regions (execDeviceReset w s) := by simp [execDeviceReset]

/-! ### Loops -/

@[simp] theorem setPower_regions (p1us p1ms : BitVec 16) : (setPower p1us p1ms s).regions = s.regions := by rfl
@[simp] theorem powerLoop_regions : (powerLoop s).regions = s.regions := by simp [powerLoop]
@[simp] theorem execPowerLoop_keeps (p1us p1ms : BitVec 16) : keepsRegions s.regions (execPowerLoop p1us p1ms s) := by simp [execPowerLoop]
@[simp] theorem holdLoop_regions : (holdLoop s).regions = s.regions := by rfl
@[simp] theorem execHoldGovernorLoop_keeps (p1us p1ms : BitVec 16) : keepsRegions s.regions (execHoldGovernorLoop p1us p1ms s) := by
  simp [execHoldGovernorLoop]
@[simp] theorem execThermalLoop_keeps (temps : List Byte) : keepsRegions s.regions (execThermalLoop temps s) := by
  simp -implicitDefEqProofs [execThermalLoop]
@[simp] theorem execThermalThrottle_keeps (temp : BitVec 8) : keepsRegions s.regions (execThermalThrottle i temp s) := by
  simp [execThermalThrottle]
@[simp] theorem execDroop_keeps (low : Bool) : keepsRegions s.regions (execDroop i low s) := by simp [execDroop]
@[simp] theorem execTelemetryPost_keeps : keepsRegions s.regions (execTelemetryPost s) := by
  unfold execTelemetryPost
  split <;> simp
@[simp] theorem execAvsVoltageReached_keeps (ok : Bool) (mv : Nat) : keepsRegions s.regions (execAvsVoltageReached ok mv s) := by
  simp [execAvsVoltageReached]
@[simp] theorem setDebug_regions (level : Nat) : (setDebug level key d s).regions = s.regions := by simp [setDebug]
@[simp] theorem followPower_regions : (followPower s l).regions = s.regions := by simp [followPower]
@[simp] theorem widenLink_regions : (widenLink s l).regions = s.regions := by simp [widenLink]
@[simp] theorem enterRetain_regions : (enterRetain s).regions = s.regions := by simp -implicitDefEqProofs [enterRetain]
@[simp] theorem leaveRetain_regions : (leaveRetain s).regions = s.regions := by simp -implicitDefEqProofs [leaveRetain]
@[simp] theorem powerReached_regions : (powerReached s).regions = s.regions := by simp [powerReached]
@[simp] theorem execPowerStateReached_keeps : keepsRegions s.regions (execPowerStateReached s) := by simp [execPowerStateReached]
@[simp] theorem execPowerState_keeps (st : BitVec 32) : keepsRegions s.regions (execPowerState w st rivals s) := by simp [execPowerState]
@[simp] theorem execThermalTrip_keeps (stack : Option Nat) (temp : BitVec 8) : keepsRegions s.regions (execThermalTrip stack temp s) := by
  simp [execThermalTrip]
@[simp] theorem execRailUndervoltage_keeps (rail : BitVec 8) : keepsRegions s.regions (execRailUndervoltage rail s) := by
  simp [execRailUndervoltage]
@[simp] theorem coreClockLost_regions : (coreClockLost s).regions = s.regions := by simp [coreClockLost]
@[simp] theorem execCoreRefLoss_keeps (otherPresent : Bool) : keepsRegions s.regions (execCoreRefLoss otherPresent s) := by
  simp [execCoreRefLoss]
@[simp] theorem execPcieLinkChange_keeps (speed : BitVec 3) (width : BitVec 4) (flit : Bool) :
    keepsRegions s.regions (execPcieLinkChange speed width flit s) := by
  simp [execPcieLinkChange]
@[simp] theorem execD3hotEntry_keeps : keepsRegions s.regions (execD3hotEntry s) := by simp [execD3hotEntry]
@[simp] theorem execD0Return_keeps : keepsRegions s.regions (execD0Return s) := by simp [execD0Return]
@[simp] theorem execSlowClockEdge_keeps : keepsRegions s.regions (execSlowClockEdge s) := by simp [execSlowClockEdge]

/-! ### RegWrites -/

@[simp] theorem writeReq_regions : (writeReq w o data s).regions = s.regions := by
  unfold writeReq
  split <;> simp
@[simp] theorem writeWstate_regions (v : Nat) : (writeWstate w v s).regions = s.regions := by simp [writeWstate]
@[simp] theorem writeWin_regions : (writeWin w o v s).regions = s.regions := by simp [writeWin]
@[simp] theorem writeMsix_regions (v : Nat) : (writeMsix o v s).regions = s.regions := by simp [writeMsix]
@[simp] theorem writeGen_regions : (writeGen o v ecc s).regions = s.regions := by
  simp [writeGen]
  split <;> simp
@[simp] theorem writeStr_regions : (writeStr o n s).regions = s.regions := by
  simp [writeStr]
  split <;> simp
@[simp] theorem writePwr_regions : (writePwr o n s).regions = s.regions := by simp [writePwr]
@[simp] theorem writeSec_regions : (writeSec o n s).regions = s.regions := by simp [writeSec]
@[simp] theorem writeRas_regions : (writeRas o n s).regions = s.regions := by simp [writeRas]
@[simp] theorem writePlotReg_regions (ecc : List EccHit) : (writePlotReg p o v ecc s).regions = s.regions := by
  unfold writePlotReg
  (repeat' split) <;> simp
@[simp] theorem writePlot_regions (ecc : List EccHit) : (writePlot p o v ecc s).regions = s.regions := by simp [writePlot]
@[simp] theorem writeSlcCfg_regions (f : SluiceCfg → SluiceCfg) : (writeSlcCfg k f s).regions = s.regions := by simp [writeSlcCfg]
@[simp] theorem writeCommitReg_regions : (writeCommitReg o n s).regions = s.regions := by
  unfold writeCommitReg
  split <;> simp
@[simp] theorem writeStack_regions : (writeStack k o v s).regions = s.regions := by
  unfold writeStack
  split <;> simp
@[simp] theorem writeLink_regions : (writeLink l o v s).regions = s.regions := by
  unfold writeLink
  split <;> simp
@[simp] theorem writeFab_regions : (writeFab o n s).regions = s.regions := by
  unfold writeFab
  split <;> simp
@[simp] theorem writeCol_regions : (writeCol o n s).regions = s.regions := by
  unfold writeCol
  split <;> simp
@[simp] theorem writeSram_regions : (writeSram o v s).regions = s.regions := by simp [writeSram]
@[simp] theorem pacerSetOne_regions (wide : Bool) (v : BitVec 64) : (pacerSetOne o wide v p s).regions = s.regions := by simp [pacerSetOne]
@[simp] theorem execPacerSet_keeps (offset : BitVec 32) (value : BitVec 64) :
    keepsRegions s.regions (execPacerSet w pset offset value s) := by
  unfold execPacerSet
  split <;> simp

/-! ### Seal -/

@[simp] theorem execSealOpen_keeps : keepsRegions s.regions (execSealOpen w s) := by simp [execSealOpen]
@[simp] theorem execSealCommit_keeps (ref : BitVec 32) : keepsRegions s.regions (execSealCommit w ref s) := by
  refine (keeps_live _ _).2 fun _ => command_keeps _ _ _ _ _ fun d => ?_
  (repeat' split) <;> simp
@[simp] theorem execSealStatus_keeps : keepsRegions s.regions (execSealStatus w s) := by simp [execSealStatus]
@[simp] theorem upsetStack_regions : (upsetStack k o v s).regions = s.regions := by
  unfold upsetStack
  split <;> simp
@[simp] theorem upsetLink_regions : (upsetLink l o v s).regions = s.regions := by simp [upsetLink]
@[simp] theorem sealMismatch_regions (crc : BitVec 32) : (sealMismatch e crc s).regions = s.regions := by simp [sealMismatch]
@[simp] theorem sealPass_regions : (sealPass s).regions = s.regions := by
  simp only [sealPass]
  split <;> simp -implicitDefEqProofs

/-! ### Tokens -/

@[simp] theorem tokReject_regions (cause : Nat) : (tokReject w cause kind key d s).s.regions = s.regions := by rfl
@[simp] theorem withToken_regions (w : Win) (addr n kind target : Nat) (ecc : List (Nat × EccHit)) (d : BitVec 32) (s : State)
    (act : List Byte → State → Reply) (h : ∀ b s, (act b s).s.regions = s.regions) :
    (withToken w addr n kind target ecc d s act).s.regions = s.regions := by
  simp only [withToken]
  (repeat' split) <;> simp [h]

@[simp] theorem thenNonce_regions (r : Reply) : (thenNonce r).s.regions = r.s.regions := by
  simp [thenNonce]

@[simp] theorem execDebugToken_keeps (bytes : BitVec 32) : keepsRegions s.regions (execDebugToken w addr bytes ecc s) := by
  simp [execDebugToken]
@[simp] theorem execDebugTokenLower_keeps : keepsRegions s.regions (execDebugTokenLower w addr s) := by simp [execDebugTokenLower]
@[simp] theorem clearContents_regions : (clearContents s).regions = s.regions := by rfl
@[simp] theorem withdraw_regions (reason : Nat) : (withdraw reason d s).regions = s.regions := by simp [withdraw]
@[simp] theorem execContentClearComplete_keeps : keepsRegions s.regions (execContentClearComplete s) := by
  unfold execContentClearComplete
  split <;> simp -implicitDefEqProofs
@[simp] theorem lifecycleSet_regions (target : Nat) : (lifecycleSet target key d s).s.regions = s.regions := by simp [lifecycleSet]
@[simp] theorem execLifecycle_keeps (target : BitVec 32) (bytes : BitVec 32) :
    keepsRegions s.regions (execLifecycle w target addr bytes ecc s) := by
  simp [execLifecycle]

/-! ### Attest -/

@[simp] theorem toHost_keeps (w : Win) (op : Nat) (host : BitVec 64) (max : BitVec 32) (bs : State → List Byte) (s : State) :
    keepsRegions s.regions (toHost w op host max bs s) := by
  unfold toHost
  split
  · simp
  · exact command_keeps _ _ _ _ _ fun _ => State.hostPut_regions _ _ _

@[simp] theorem execMeasurements_keeps (max : BitVec 32) : keepsRegions s.regions (execMeasurements w host max s) := by
  simp [execMeasurements]
@[simp] theorem execDevidChain_keeps (max : BitVec 32) : keepsRegions s.regions (execDevidChain w host max s) := by simp [execDevidChain]
@[simp] theorem spdm_keeps (doe : Bool) (f : State → List Byte × State) (s : State) (h : (f s).2.regions = s.regions) :
    keepsRegions s.regions (spdm doe f s) := by
  simp [spdm, h]

@[simp] theorem attested_regions (f : State → List Byte × State) (s : State) (h : (f s).2.regions = s.regions) :
    (attested f s).2.regions = s.regions := by
  simp [attested, h]

@[simp] theorem devSign_regions : (devSign s).2.regions = s.regions := by rfl
@[simp] theorem execGetVersion_keeps : keepsRegions s.regions (execGetVersion doe s) := by simp [execGetVersion]
@[simp] theorem execGetCapabilities_keeps : keepsRegions s.regions (execGetCapabilities doe s) := by simp [execGetCapabilities]
@[simp] theorem execNegotiateAlgorithms_keeps (q : AlgReq) : keepsRegions s.regions (execNegotiateAlgorithms doe q s) := by
  simp [execNegotiateAlgorithms]
@[simp] theorem execGetDigests_keeps : keepsRegions s.regions (execGetDigests doe s) := by simp [execGetDigests]
@[simp] theorem execGetCertificate_keeps (slot len : Nat) : keepsRegions s.regions (execGetCertificate doe slot off len s) := by
  simp [execGetCertificate]
@[simp] theorem execChallenge_keeps (slot : Nat) (nonce : List Byte) : keepsRegions s.regions (execChallenge doe slot nonce s) := by
  simp [execChallenge]
@[simp] theorem execGetMeasurements_keeps (signed : Bool) (nonce : List Byte) :
    keepsRegions s.regions (execGetMeasurements doe index signed nonce s) := by
  refine (keeps_live _ _).2 fun _ => spdm_keeps _ _ _ (attested_regions _ _ ?_)
  (repeat' split) <;> simp
@[simp] theorem execMctpRequest_keeps (q : MctpReq) : keepsRegions s.regions (execMctpRequest q s) := by
  unfold execMctpRequest
  split <;> simp

/-! ### Debug -/

@[simp] theorem shiftOut_regions : (shiftOut bs s).regions = s.regions := by rfl
@[simp] theorem shiftFree_regions : (shiftFree n s).regions = s.regions := by rfl

/-! ### Reset -/

@[simp] theorem fusedStacks_regions (r : Ras) : (fusedStacks r s).regions = s.regions := by simp -implicitDefEqProofs [fusedStacks]
@[simp] theorem fusesCorrected_regions (ws : List Nat) : (fusesCorrected ws s).regions = s.regions := by simp [fusesCorrected]
@[simp] theorem makeDevid_regions : (makeDevid s).regions = s.regions := by simp [makeDevid]
@[simp] theorem enterLifecycle_regions : (enterLifecycle s).regions = s.regions := by simp [enterLifecycle]
@[simp] theorem bootCore_regions (fuseOne : List Nat) : (bootCore fuseOne s).regions = s.regions := by simp [bootCore]
@[simp] theorem noReference_regions : (noReference s).regions = s.regions := by rfl
@[simp] theorem execPerstRelease_keeps (pos : BitVec 14) (boot : BitVec 3) (refA refB : Bool) (fuseOne : List Nat) (fuseBoth : Bool) :
    keepsRegions s.regions (execPerstRelease pos boot refA refB fuseOne fuseBoth s) := by
  simp [execPerstRelease]
@[simp] theorem execBootReady_keeps : keepsRegions s.regions (execBootReady s) := by simp [execBootReady]
@[simp] theorem checkRetained_regions : (checkRetained s).regions = s.regions := by simp [checkRetained]
@[simp] theorem mailMgmt_regions (k : Packet) : (mailMgmt k s).regions = s.regions := by
  simp [mailMgmt]
  split <;> simp
@[simp] theorem execMgmt_keeps : keepsRegions s.regions (execMgmt s) := by simp [execMgmt]
@[simp] theorem execMgmtRetry_keeps : keepsRegions s.regions (execMgmtRetry k s) := by
  unfold execMgmtRetry
  split <;> simp
end

/-! ### The table of regions -/

/-- Two regions share no device address and no stack byte (R147). -/
def Apart (a b : Region) : Prop :=
  (∀ u, ¬ ((a.base.toNat ≤ u ∧ u < a.base.toNat + a.size.toNat) ∧ (b.base.toNat ≤ u ∧ u < b.base.toNat + b.size.toNat))) ∧
  (∀ k u, k ∈ a.stks → k ∈ b.stks → ¬ (((a.on k).1 ≤ u ∧ u < (a.on k).2) ∧ ((b.on k).1 ≤ u ∧ u < (b.on k).2)))

/-- A region stays below the 60 GiB of its stacks (R146). -/
def Fits (r : Region) : Prop := ∀ k u, k ∈ r.stks → (r.on k).1 ≤ u → u < (r.on k).2 → u < 15728640

/-- Any two valid regions of a table are apart, and each of them fits. -/
def TblApart (g : Tbl Region) : Prop :=
  (∀ m n, m ≠ n → (g.get m {}).valid = true → (g.get n {}).valid = true → Apart (g.get m {}) (g.get n {})) ∧
  ∀ m, (g.get m {}).valid = true → Fits (g.get m {})

theorem regionsApart_iff (s : State) : s.regionsApart ↔ TblApart s.regions.tbl := by
  constructor
  · rintro ⟨ha, hf⟩
    exact ⟨fun m n hmn hm hn => ha m n _ _ hmn rfl rfl hm hn, fun m hm k u => hf m _ k u rfl hm⟩
  · rintro ⟨ha, hf⟩
    exact ⟨fun m n a b hmn ea eb hm hn => by subst ea eb; exact ha m n hmn hm hn,
      fun m r k u er hm => by subst er; exact hf m hm k u⟩

theorem Apart.symm {a b : Region} (h : Apart a b) : Apart b a :=
  ⟨fun u hu => h.1 u hu.symm, fun k u hb ha hu => h.2 k u ha hb hu.symm⟩

/-- Regions that `Region.clash` does not find to share anything are apart. -/
theorem apart_of_clash {a b : Region} (h : a.clash b = false) : Apart a b := by
  simp only [Region.clash, Bool.or_eq_false_iff, decide_eq_false_iff_not, List.any_eq_false, Bool.and_eq_true,
    List.contains_iff_mem, decide_eq_true_eq, not_and] at h
  obtain ⟨hdev, hstk⟩ := h
  refine ⟨fun u hu => hdev (by omega), fun k u ha hb hu => hstk k ha hb (by omega)⟩

theorem fits_of_outOfRange {r : Region} (h : r.outOfRange = false) : Fits r := by
  simp only [Region.outOfRange, Bool.or_eq_false_iff, List.any_eq_false, Bool.and_eq_true, decide_eq_true_eq, not_and] at h
  intro k u hk h1 h2
  have := h.1.1 k hk
  omega

theorem mem_of_get_valid {g : Tbl Region} {m : Nat} (h : (g.get m {}).valid = true) : (m, g.get m {}) ∈ g := by
  unfold Tbl.get at h ⊢
  cases hf : g.find? (fun e => e.1 == m) with
  | none => simp [hf] at h
  | some e =>
    have hk : e.1 = m := by simpa using List.find?_some hf
    subst hk
    exact List.mem_of_find?_eq_some hf

/-- A region that passes the checks of a region write keeps the table apart (R147). -/
theorem TblApart.put {g : Tbl Region} (h : TblApart g) {n : Nat} {r : Region}
    (hc : r.valid = true → ∀ m, m ≠ n → (g.get m {}).valid = true → Apart r (g.get m {}))
    (hf : r.valid = true → Fits r) : TblApart (g.put n r) := by
  have hother {m : Nat} (hm : m ≠ n) : (g.put n r).get m {} = g.get m {} := Tbl.get_put_other g r {} hm
  refine ⟨fun m k hmk vm vk => ?_, fun m vm => ?_⟩
  · by_cases em : m = n
    · subst em
      rw [hother hmk.symm] at vk ⊢
      rw [Tbl.get_put_self] at vm ⊢
      exact hc vm k hmk.symm vk
    · rw [hother em] at vm ⊢
      by_cases ek : k = n
      · subst ek
        rw [Tbl.get_put_self] at vk ⊢
        exact (hc vk m em vm).symm
      · rw [hother ek] at vk ⊢
        exact h.1 m k hmk vm vk
  · by_cases em : m = n
    · subst em
      rw [Tbl.get_put_self] at vm ⊢
      exact hf vm
    · rw [hother em] at vm ⊢
      exact h.2 m vm

/-- The table after reset: its one region is the whole of every stack (R149). -/
theorem tblApart_reset : TblApart ({} : Regions).tbl := by
  have hzero {m : Nat} (h : (({} : Regions).tbl.get m {}).valid = true) : m = 0 := by
    have hm := mem_of_get_valid h
    simp at hm
    exact hm.1
  refine ⟨fun m n hmn vm vn => absurd ((hzero vm).trans (hzero vn).symm) hmn, fun m vm => ?_⟩
  obtain rfl := hzero vm
  exact fits_of_outOfRange (by decide +kernel)

/-! ### Writes of the region registers -/

theorem apart_of_regions {s t : State} (h : s.regionsApart) (e : t.regions = s.regions) : t.regionsApart := by
  rw [regionsApart_iff] at h ⊢
  rwa [e]

theorem regionPut_apart {s : State} (h : s.regionsApart) (n : Nat) (r : Region) : (regionPut n r s).regionsApart := by
  rw [regionsApart_iff] at h ⊢
  simp only [regionPut]
  split
  · exact h
  · next hno =>
    simp only [Bool.or_eq_true, Bool.and_eq_true, List.any_eq_true, not_or, not_and, Bool.not_eq_true, not_exists, bne_iff_ne] at hno
    obtain ⟨hc, hr⟩ := hno
    exact h.put (fun v m hm vm => apart_of_clash (hc v _ (mem_of_get_valid vm) ⟨hm, vm⟩)) (fun v => fits_of_outOfRange (hr v))

theorem regionSet_apart {s : State} (h : s.regionsApart) (n : Nat) (reg : RgnReg) (v : BitVec 64) :
    (regionSet n reg v s).regionsApart := regionPut_apart h n _

theorem writeRgn_apart {s : State} (h : s.regionsApart) (o : Nat) (v : BitVec 32) : (writeRgn o v s).regionsApart := by
  simp only [writeRgn]
  split
  · exact h
  · split
    · split
      · exact h
      · split
        · exact regionSet_apart h _ _ _
        · split
          · exact regionSet_apart h _ _ _
          · exact h
    · exact h

theorem write32_apart {s : State} (h : s.regionsApart) (o : Nat) (v : BitVec 32) (ecc : List (Nat × EccHit)) :
    (write32 o v ecc s).regionsApart := by
  by_cases hr : 0x2600000 ≤ o ∧ o < 0x2601000
  · have e : write32 o v ecc s = writeRgn (o - 0x2600000) v s := by
      simp only [write32]
      rw [if_neg (by omega), if_neg (by omega), if_neg (by omega), if_neg (by omega), if_neg (by omega), if_neg (by simp; omega),
        if_neg (by simp; omega), if_pos (by simp; omega)]
    rw [e]
    exact writeRgn_apart h _ v
  · refine apart_of_regions h ?_
    simp [write32, hr]

theorem countSetWins_tbl (o n : Nat) (s : State) : (countSetWins o n s).regions.tbl = s.regions.tbl := by
  simp only [countSetWins, apply_ite State.regions, apply_ite Regions.tbl, State.onClock_regions, State.onPower_regions,
    State.onSec_regions, State.onPlot_regions, State.onStack_regions, State.onLink_regions, State.onRouter_regions, ite_self]

theorem countSetWins_apart {s : State} (h : s.regionsApart) (o n : Nat) : (countSetWins o n s).regionsApart := by
  rw [regionsApart_iff] at h ⊢
  rwa [countSetWins_tbl]

theorem writeOne_apart {s : State} (h : s.regionsApart) (o : Nat) (v race : BitVec 32) (ecc : List (Nat × EccHit)) :
    (writeOne o v race ecc s).regionsApart := countSetWins_apart (write32_apart h _ _ _) _ _

theorem writeTwo_apart {s : State} (h : s.regionsApart) (o q : Nat) (v w rv rw : BitVec 32) (ecc : List (Nat × EccHit)) :
    (writeTwo o q v w rv rw ecc s).regionsApart :=
  countSetWins_apart (writeOne_apart (writeOne_apart h _ _ _ _) _ _ _ _) _ _

theorem writeBoth_apart {s : State} (h : s.regionsApart) (o : Nat) (v race : BitVec 64) (ecc : List (Nat × EccHit)) :
    (writeBoth o v race ecc s).regionsApart := by
  simp only [writeBoth]
  split
  · split
    · exact regionPut_apart h _ _
    · exact h
  · split <;> exact writeTwo_apart h _ _ _ _ _ _ _

theorem commit64_apart {s : State} (h : s.regionsApart) (a : Nat) (v : BitVec 64) : (commit64 a v s).regionsApart := by
  simp only [commit64]
  split
  case h_9 =>
    split
    · exact apart_of_regions h (by simp)
    · split
      · exact apart_of_regions h (by simp)
      · split
        · exact regionSet_apart h _ _ _
        · exact apart_of_regions h (by simp)
  all_goals exact apart_of_regions h (by simp)

theorem writeWord_apart {s : State} (h : s.regionsApart) (o : Nat) (v race : BitVec 32) (ecc : List (Nat × EccHit)) :
    (writeWord o v race ecc s).regionsApart := by
  simp only [writeWord]
  split
  · exact writeOne_apart h _ _ _ _
  · split
    · exact h
    · split
      · exact apart_of_regions h (by simp)
      · exact commit64_apart (apart_of_regions h (by simp)) _ _

theorem writePair_apart {s : State} (h : s.regionsApart) (o : Nat) (v race : BitVec 64) (ecc : List (Nat × EccHit)) :
    (writePair o v race ecc s).regionsApart := by
  simp only [writePair]
  split
  · exact writeBoth_apart h _ _ _ _
  · split
    · exact commit64_apart (apart_of_regions h (by simp)) _ _
    · exact h

theorem writeBar0_apart {s : State} (h : s.regionsApart) (o : Nat) (data : List Byte) (race : BitVec 64) (ecc : List (Nat × EccHit)) :
    (writeBar0 o data race ecc s).regionsApart := by
  have hplain : (if !accessOk o data.length || 0x4000000 ≤ o then s
      else if data.length = 4 then writeWord o (BitVec.ofNat 32 (leNat data)) (lo32 race) ecc s
      else writePair o (BitVec.ofNat 64 (leNat data)) race ecc s).regionsApart := by
    split
    · exact h
    · split
      · exact writeWord_apart h _ _ _ _
      · exact writePair_apart h _ _ _ _
  simp only [writeBar0]
  split
  · split
    · exact apart_of_regions h (by simp)
    · exact hplain
  · exact hplain

theorem writeBar2_apart {s : State} (h : s.regionsApart) (o : Nat) (data : List Byte) (race : BitVec 64) (ecc : List (Nat × EccHit)) :
    (writeBar2 o data race ecc s).regionsApart := by
  unfold writeBar2
  split
  · exact writeBar0_apart h _ _ _ _
  · exact apart_of_regions h (by simp)

theorem debugOp_apart {s : State} (h : s.regionsApart) (op : DbgOp) : (debugOp op s).regionsApart := by
  cases op
  case regWrite o bs => exact writeBar0_apart h _ _ _ _
  all_goals exact apart_of_regions h (by simp [debugOp])

/-! ### Resets -/

theorem coldReset_apart (s : State) : (coldReset s).regionsApart := by
  have e : (coldReset s).regions = {} := by simp [coldReset]
  rw [regionsApart_iff, e]
  exact tblApart_reset

theorem warmBlocks_regions (s : State) : (warmBlocks s).regions = {} := rfl

theorem warmReset_apart (kind : BitVec 2) (s : State) : (warmReset kind s).regionsApart := by
  have e : (warmReset kind s).regions = {} := by
    simp -implicitDefEqProofs [warmReset, warmBlocks_regions]
  rw [regionsApart_iff, e]
  exact tblApart_reset

theorem askWarm_apart {s : State} (h : s.regionsApart) (kind : BitVec 2) : (askWarm kind s).regionsApart := by
  unfold askWarm
  split
  · exact warmReset_apart kind s
  · exact apart_of_regions h (by simp)

/-! ### The step -/

/-- Whatever state the outcome goes on in, the regions are apart. -/
def KeepsApart (o : Out) : Prop := ∀ t, o = .next t → t.regionsApart

theorem keepsApart_next {t : State} : KeepsApart (.next t) ↔ t.regionsApart := by simp [KeepsApart]

theorem keepsApart_of_keeps {s : State} (h : s.regionsApart) {o : Out} (hk : keepsRegions s.regions o) : KeepsApart o :=
  fun t ht => apart_of_regions h (hk t ht)

theorem keepsApart_ite {c : Bool} {s : State} (h : s.regionsApart) {o : Out} (ho : KeepsApart o) :
    KeepsApart (if c then o else .next s) := by
  split
  · exact ho
  · exact keepsApart_next.2 h

theorem keepsApart_live {s : State} (h : s.regionsApart) {o : Out} (ho : KeepsApart o) : KeepsApart (s.live o) := keepsApart_ite h ho

theorem keepsApart_busWrite {s : State} (h : s.regionsApart) {o : Out} (ho : KeepsApart o) : KeepsApart (s.busWrite o) :=
  keepsApart_ite h ho

theorem keepsApart_when {c : Bool} {t s : State} (ht : t.regionsApart) (hs : s.regionsApart) : KeepsApart (when c t s) := by
  cases c
  · exact keepsApart_next.2 hs
  · exact keepsApart_next.2 ht

theorem exec_apart {s : State} (h : s.regionsApart) (i : Instr) (hi : ∀ u, i ≠ .sealPass (some u)) : KeepsApart (exec i s) := by
  cases i
  case coldReset => exact keepsApart_next.2 (coldReset_apart s)
  case powerRemoval => exact keepsApart_next.2 (apart_of_regions (coldReset_apart s) (State.onPower_regions _ _))
  case warmReset => exact keepsApart_live h (by
      split
      · exact keepsApart_when (warmReset_apart _ _) h
      · exact keepsApart_next.2 h)
  case functionLevelReset => exact keepsApart_live h (keepsApart_next.2 (askWarm_apart (by exact h) 2))
  case sysResetN => exact keepsApart_live h (keepsApart_when (askWarm_apart h 1) h)
  case regionWrite r reg v =>
    exact keepsApart_busWrite h (keepsApart_when (regionSet_apart (apart_of_regions h (by simp)) r reg v) h)
  case registerWrite bar2 off data race ecc =>
    refine keepsApart_busWrite h (keepsApart_next.2 ?_)
    split
    · exact writeBar2_apart h _ _ _ _
    · exact writeBar0_apart h _ _ _ _
  case debugPortAccess op =>
    refine keepsApart_live h ?_
    split
    · exact keepsApart_next.2 (apart_of_regions h rfl)
    · split
      · exact keepsApart_next.2 h
      · split
        · split
          · simp [KeepsApart]
          · exact keepsApart_next.2 (apart_of_regions h rfl)
        · exact keepsApart_next.2 (debugOp_apart h _)
  case sealPass u =>
    cases u with
    | none => exact keepsApart_of_keeps h (by simp [exec, execSealPass])
    | some u => exact absurd rfl (hi u)
  all_goals exact keepsApart_of_keeps h (by simp [exec])

/-- Settles O59: the writes of the region registers check what they would leave (R147), a reset brings one region back, and nothing
else touches the table. -/
theorem regionsStayApart : Obligations.RegionsStayApart := by
  unfold Obligations.RegionsStayApart
  intro s t h hq ht
  unfold step at ht
  split at ht
  · next i rest hp =>
    exact exec_apart (s := { s with pending := rest }) h i (fun u hi => hq u rest (hi ▸ hp)) t ht
  · exact keepsApart_of_keeps h (by simp [idle]) t ht

end Sys2Proof.Machine.RegionFrame

/-! SUPPORT. Accesses to device memory (R138, R145, R155): a run of one Reservoir window is one piece, what a read or a write of it
answers and changes, and that no access adds to the mesh. -/

namespace Sys2Proof.Machine.DeviceMemory

/-! ### Pieces -/

theorem pieces_zero (u a : Nat) : pieces u a 0 = [] := rfl

/-- A run within one block is one piece. -/
theorem pieces_within {u a n : Nat} (hn : 0 < n) (h : a % u + n ≤ u) : pieces u a n = [(a, n)] := by
  have hu : 0 < u := by omega
  have ha := Nat.div_add_mod' a u
  have hq : (a + n - 1) / u = a / u := by
    refine Nat.div_eq_of_lt_le (by omega) ?_
    rw [Nat.succ_mul]
    omega
  have h1 : max a (a / u * u) = a := by omega
  have h2 : min (a + n) ((a / u + 1) * u) = a + n := by
    rw [Nat.add_mul]
    omega
  have hn0 : n ≠ 0 := by omega
  simp [pieces, hn0, hq, h1, h2]

theorem offset_of_rsv {a l o : Nat} (h : spaceOf a = .rsv l o) : o = a % rsvBytes := by
  unfold spaceOf at h
  split at h
  · simp at h
  split at h
  · simp at h
  split at h
  · injection h with _ h
    exact h.symm
  split at h
  · simp at h
  split at h <;> simp at h

/-- A run of one Reservoir window is one piece. -/
theorem spaces_rsv {a l o n : Nat} (h : spaceOf a = .rsv l o) (hn : 0 < n) (ho : o + n ≤ rsvBytes) : spaces a n = [(a, n)] :=
  pieces_within hn (offset_of_rsv h ▸ ho)

/-! ### One Reservoir -/

section
variable {s : State} {self : Option Nat} {a l o n p : Nat} {ecc : List (Nat × EccHit)}

theorem rsvPlot_rsv (s : State) (self : Option Nat) (l o : Nat) : s.rsvPlot self (.rsv l o) = (s.phys? l).map (·, o) := rfl

theorem memErr_rsv (h : spaceOf a = .rsv l o) (hn : 0 < n) (ho : o + n ≤ rsvBytes) :
    s.memErr self a n = if (s.phys? l).isSome then 0 else 2 := by
  cases hp : s.phys? l <;> simp [State.memErr, spaces_rsv h hn ho, State.pieceErr, h, rsvPlot_rsv, hp]

theorem devRead_unmapped (h : spaceOf a = .rsv l o) (hp : s.phys? l = none) (hn : 0 < n) (ho : o + n ≤ rsvBytes) :
    devRead self a n ecc s = ({ err := 2 }, s) := by
  simp [devRead, spaces_rsv h hn ho, readPiece, h, rsvPlot_rsv, hp]

theorem devRead_mapped (h : spaceOf a = .rsv l o) (hp : s.phys? l = some p) (hn : 0 < n) (ho : o + n ≤ rsvBytes) :
    devRead self a n ecc s = readRsv p o n (hitsOf p ecc) s := by
  simp [devRead, spaces_rsv h hn ho, readPiece, h, rsvPlot_rsv, hp, readRsv]

theorem devWrite_refused {bs : List Byte} {bad : List Nat} (h : s.memErr self a bs.length ≠ 0) :
    devWrite self a bs bad ecc s = (s.memErr self a bs.length, s) := by
  simp [devWrite, h]

theorem devWrite_mapped {bs : List Byte} (h : spaceOf a = .rsv l o) (hp : s.phys? l = some p) (hn : 0 < bs.length)
    (ho : o + bs.length ≤ rsvBytes) :
    devWrite self a bs [] ecc s = (0, writeRsvAt p o bs [] (hitsOf p ecc) s) := by
  simp [devWrite, memErr_rsv h hn ho, spaces_rsv h hn ho, writePiece, h, rsvPlot_rsv, hp]

theorem readRsv_clean : readRsv p o n [] s =
    ({ bytes := (s.plot p).resv.bytes o n,
       bad := if ((s.plot p).badWords o n).isEmpty then []
         else (List.range n).filter (fun i => ((s.plot p).badWords o n).contains ((o + i) / 8)) }, s) := rfl

end


/-! ### What a write to one Reservoir changes -/

theorem onlyPlot_trans {p : Nat} {s t u : State} (h : State.onlyPlot p s t) (g : State.onlyPlot p t u) : State.onlyPlot p s u := by
  refine ⟨?_, fun q hq => (g.2 q hq).trans (h.2 q hq)⟩
  have hs := h.1
  have gs := g.1
  unfold State.sameButEvents at hs gs ⊢
  rw [hs] at gs
  exact gs

theorem foldl_onlyPlot {α : Type} {p : Nat} {f : State → α → State} (h : ∀ s a, State.onlyPlot p s (f s a)) (l : List α) (s : State) :
    State.onlyPlot p s (l.foldl f s) := by
  induction l generalizing s with
  | nil => exact State.onlyPlot_refl p s
  | cons a l ih => exact onlyPlot_trans (h s a) (ih _)

theorem noteRow_same (kind obj : Nat) (s : State) : s.sameButEvents (noteRow kind obj s) := rfl

theorem setPlot_onlyPlot (p : Nat) (x : Plot) (s : State) : State.onlyPlot p s (s.setPlot p x) :=
  ⟨rfl, fun _ h => State.plot_setPlot_other s x h⟩

/-- What SECDED finds in a Reservoir changes marks and counts of its Plot. -/
theorem rsvHit_onlyPlot (p : Nat) (h : EccHit) (s : State) : State.onlyPlot p s (rsvHit p h s) := by
  have hr := State.onlyPlot_events (State.onlyPlot_refl p s) (noteRow_same (if h.double then 3 else 2) (rsvRowOf p h.addr) s)
  unfold rsvHit
  generalize noteRow (if h.double then 3 else 2) (rsvRowOf p h.addr) s = u at hr ⊢
  split
  · exact State.onlyPlot_events (onlyPlot_trans hr (setPlot_onlyPlot p _ u)) (memUe_same ..)
  · exact State.onlyPlot_events (onlyPlot_trans hr (setPlot_onlyPlot p _ u)) (corrected_same ..)

theorem rsvHit_resv (p : Nat) (h : EccHit) (s : State) : ((rsvHit p h s).plot p).resv = (s.plot p).resv := by
  unfold rsvHit
  simp only
  split
  · rw [State.sameButEvents_plot (memUe_same ..), State.plot_setPlot_self]; rfl
  · rw [State.sameButEvents_plot (corrected_same ..), State.plot_setPlot_self]; rfl

theorem rsvHits_resv (p : Nat) (hits : List EccHit) (s : State) :
    ((hits.foldl (fun s h => rsvHit p h s) s).plot p).resv = (s.plot p).resv :=
  RegionFrame.foldl_kept (π := fun s : State => (s.plot p).resv) (fun s h => rsvHit_resv p h s) hits s

theorem writeRsvAt_onlyPlot (p a : Nat) (bs : List Byte) (bad : List Nat) (ecc : List EccHit) (s : State) :
    State.onlyPlot p s (writeRsvAt p a bs bad ecc s) :=
  onlyPlot_trans (foldl_onlyPlot (fun s h => rsvHit_onlyPlot p h s) _ s) (State.onlyPlot_onPlot p _ _)

/-- A write of a Reservoir stores exactly its bytes, whatever SECDED finds. -/
theorem writeRsvAt_resv (p a : Nat) (bs : List Byte) (bad : List Nat) (ecc : List EccHit) (s : State) :
    ((writeRsvAt p a bs bad ecc s).plot p).resv = (s.plot p).resv.write a bs := by
  unfold writeRsvAt
  simp [rsvHits_resv]

/-- A write that meets no error changes its Plot alone. -/
theorem writeRsvAt_clean (p a : Nat) (bs : List Byte) (s : State) :
    writeRsvAt p a bs [] [] s = s.onPlot p (·.writeRsv a bs) := by
  unfold writeRsvAt
  simp only [List.filter_nil, List.foldl_nil, List.map_nil, List.eraseDups_nil, List.append_nil]

/-! ### The mesh

Serving a request adds nothing to the mesh: what an access changes is its Plot, its stack and what events write. -/

theorem onlyPlot_mesh {p : Nat} {s t : State} (h : State.onlyPlot p s t) : t.mesh = s.mesh :=
  State.sameButEvents_mesh (s := { s with plots := t.plots }) h.1

theorem foldl_mesh {α : Type} {f : State → α → State} (h : ∀ s a, (f s a).mesh = s.mesh) (l : List α) (s : State) :
    (l.foldl f s).mesh = s.mesh := RegionFrame.foldl_kept h l s

theorem foldl_snd_mesh {α β : Type} {f : β × State → α → β × State} (h : ∀ q a, (f q a).2.mesh = q.2.mesh) (l : List α)
    (q : β × State) : (l.foldl f q).2.mesh = q.2.mesh := RegionFrame.foldl_kept (π := fun q : β × State => q.2.mesh) h l q

section

variable (s : State) (self : Option Nat) (p k n a o phys ca sb tag : Nat) (bs : List Byte) (bad : List Nat)

@[simp] theorem event_mesh (type cls index : Nat) (pl : List (BitVec 32)) (d : BitVec 32) : (event type cls index pl d s).mesh = s.mesh :=
  State.sameButEvents_mesh (event_same ..)
@[simp] theorem memUe_mesh (source index addr seg arr : Nat) : (memUe source index addr seg arr s).mesh = s.mesh :=
  State.sameButEvents_mesh (memUe_same ..)
@[simp] theorem corrected_mesh (src : Nat) : (corrected src s).mesh = s.mesh := State.sameButEvents_mesh (corrected_same ..)
@[simp] theorem rsvHit_mesh (h : EccHit) : (rsvHit p h s).mesh = s.mesh := onlyPlot_mesh (rsvHit_onlyPlot p h s)
@[simp] theorem rsvHits_mesh (hits : List EccHit) : (rsvHits p a n hits s).mesh = s.mesh :=
  foldl_mesh (fun s h => rsvHit_mesh s p h) _ s

@[simp] theorem metLatent_mesh (q : Option (Nat × Nat)) : (metLatent k phys ca sb q s).mesh = s.mesh := by
  cases q <;> simp only [metLatent] <;> split <;> simp
@[simp] theorem correctUnit_mesh : (correctUnit k phys ca s).mesh = s.mesh := by
  unfold correctUnit
  simp only
  split <;> simp
@[simp] theorem uncorrectable_mesh (kind : UeKind) : (uncorrectable k phys ca sb kind s).mesh = s.mesh := by
  unfold uncorrectable
  split <;> simp
@[simp] theorem readUnit_mesh (e : UnitErr) (kind : UeKind) : (readUnit k phys ca sb e kind s).mesh = s.mesh := by
  unfold readUnit
  split
  · split <;> simp
  · split <;> simp
@[simp] theorem partialWrite_mesh (err : UnitErr) : (partialWrite k sb bs err s).mesh = s.mesh := by
  unfold partialWrite
  simp only
  split <;> simp
@[simp] theorem hbmMet_mesh : (s.hbmMet a n).mesh = s.mesh := foldl_mesh (fun s q => by (repeat' split) <;> simp) _ s
@[simp] theorem hbmTouch_mesh : (s.hbmTouch a n).mesh = s.mesh := foldl_mesh (fun s q => by (repeat' split) <;> simp) _ s
@[simp] theorem hbmPoison_mesh : (s.hbmPoison bad).mesh = s.mesh := foldl_mesh (fun s q => by split <;> simp) _ s
@[simp] theorem hbmWrite_mesh : ((s.hbmWrite a bs).getD s).mesh = s.mesh := by
  unfold State.hbmWrite
  simp only
  split
  · rfl
  · exact foldl_mesh (fun s q => by (repeat' split) <;> simp) _ s

@[simp] theorem readPiece_mesh (q : Nat × Nat) (ecc : List (Nat × EccHit)) : (readPiece self q ecc s).2.mesh = s.mesh := by
  unfold readPiece
  split
  · split
    · rfl
    · simp only [hbmTouch_mesh]
      split <;> simp
  · split
    · rfl
    · exact rsvHits_mesh ..
@[simp] theorem devRead_mesh (ecc : List (Nat × EccHit)) : (devRead self a n ecc s).2.mesh = s.mesh :=
  foldl_snd_mesh (fun q u => by split <;> simp) _ _
@[simp] theorem writePiece_mesh (ecc : List (Nat × EccHit)) : (writePiece self a bs bad ecc s).mesh = s.mesh := by
  unfold writePiece
  split
  · simp
  · split
    · rfl
    · exact onlyPlot_mesh (writeRsvAt_onlyPlot ..)
@[simp] theorem devWrite_mesh (ecc : List (Nat × EccHit)) : (devWrite self a bs bad ecc s).2.mesh = s.mesh := by
  unfold devWrite
  simp only
  split
  · rfl
  · exact foldl_mesh (fun s q => writePiece_mesh ..) _ s

@[simp] theorem appendReserve_mesh (slot : Bool) (rows rowB : Nat) : (appendReserve p n slot rows rowB tag s).2.mesh = s.mesh := by
  unfold appendReserve
  simp only
  (repeat' split) <;> rfl
@[simp] theorem appendLand_mesh : (appendLand p n tag o bs s).mesh = s.mesh := by
  unfold appendLand
  simp only
  split <;> rfl
@[simp] theorem appendHits_mesh (b : Inbox) (r : Resv) (ecc : List EccHit) : (appendHits p b r o n ecc s).mesh = s.mesh :=
  foldl_mesh (fun s h => rsvHit_mesh s p h) _ s
@[simp] theorem appendBytes_mesh (slot : Bool) (rows rowB : Nat) (ecc : List EccHit) :
    (appendBytes p n slot rows rowB tag o bs bad ecc s).2.mesh = s.mesh := by
  unfold appendBytes
  simp only
  (repeat' split) <;> simp

theorem serveMesh_mesh (m : MeshMsg) (ecc : List (Nat × EccHit)) : (serveMesh m ecc s).2.mesh = s.mesh := by
  unfold serveMesh
  simp only
  split
  · simp
  · split <;> simp
  · simp

end

end Sys2Proof.Machine.DeviceMemory

/-! SUPPORT. The mesh (R141, R143, R155, R156): how a request is served and how an answer takes its transfer on. They settle O13. -/

namespace Sys2Proof.Machine.MeshService

open DeviceMemory

/-! ### Requests -/

theorem exec_meshReq (k : Nat) (ecc : List (Nat × EccHit)) (s : State) : exec (.meshReq k ecc) s = execMeshReq k ecc s := by rfl
theorem exec_meshRsp (k : Nat) (s : State) : exec (.meshRsp k) s = execMeshRsp k s := by rfl

section
variable {s : State} {k : Nat} {m : MeshMsg} {rest : List MeshMsg} {ecc : List (Nat × EccHit)}

theorem meshReq_waits (hc : s.clocked = true) (hm : s.meshAt k false = some (m, rest)) (hw : s.memWaits m.addr.toNat m.len = true) :
    exec (.meshReq k ecc) s = .next s := by
  simp [exec_meshReq, execMeshReq, live_on hc, hm, hw]

/-- A request that does not wait is served where it left the mesh, and its reply joins the mesh. -/
theorem meshReq_served (hc : s.clocked = true) (hm : s.meshAt k false = some (m, rest)) (hw : s.memWaits m.addr.toNat m.len = false) :
    exec (.meshReq k ecc) s = .next { (serveMesh m ecc { s with mesh := rest }).2 with
      mesh := rest ++ [(serveMesh m ecc { s with mesh := rest }).1] } := by
  simp [exec_meshReq, execMeshReq, live_on hc, hm, hw, serveMesh_mesh]

end

theorem serveMesh_reply (m : MeshMsg) (ecc : List (Nat × EccHit)) (s : State) :
    (serveMesh m ecc s).1.rsp = true ∧ (serveMesh m ecc s).1.plot = m.plot ∧ (serveMesh m ecc s).1.seq = m.seq ∧
    (serveMesh m ecc s).1.off = m.off ∧ (serveMesh m ecc s).1.write = m.write := by
  unfold serveMesh
  simp only
  split
  · simp
  · split <;> simp
  · simp

section
variable {s : State} {m : MeshMsg} {ecc : List (Nat × EccHit)} {l o q : Nat}

/-- A request to a Reservoir window of no Plot is refused with RANGE. -/
theorem serveMesh_unmapped (h : spaceOf m.addr.toNat = .rsv l o) (hp : s.phys? l = none) (ha : m.append = none) (hn : 0 < m.len)
    (hd : m.write = true → m.data.length = m.len) (ho : o + m.len ≤ rsvBytes) :
    (serveMesh m ecc s).1.err = some 2 ∧ (serveMesh m ecc s).2 = s := by
  cases hw : m.write
  · simp [serveMesh, hw, devRead_unmapped h hp hn ho]
  · have hl := hd hw
    have he : s.memErr (some m.plot) m.addr.toNat m.data.length = 2 := by
      rw [memErr_rsv h (by omega) (by omega), hp]
      rfl
    simp [serveMesh, hw, ha, devWrite_refused (by rw [he]; decide), he]

theorem serveMesh_read (h : spaceOf m.addr.toNat = .rsv l o) (hp : s.phys? l = some q) (hn : 0 < m.len) (ho : o + m.len ≤ rsvBytes)
    (hw : m.write = false) :
    (serveMesh m [] s).1.err = none ∧ (serveMesh m [] s).1.data = (s.plot q).resv.bytes o m.len ∧ (serveMesh m [] s).2 = s := by
  simp [serveMesh, hw, devRead_mapped h hp hn ho, hitsOf, readRsv_clean]

theorem serveMesh_write (h : spaceOf m.addr.toNat = .rsv l o) (hp : s.phys? l = some q) (ha : m.append = none) (hn : 0 < m.len)
    (ho : o + m.len ≤ rsvBytes) (hw : m.write = true) (hl : m.data.length = m.len) (hb : m.poison = []) :
    (serveMesh m ecc s).1.err = none ∧ (serveMesh m ecc s).2 = writeRsvAt q o m.data [] (hitsOf q ecc) s := by
  simp [serveMesh, hw, ha, hb, devWrite_mapped h hp (by omega : 0 < m.data.length) (by omega)]

end

theorem sameButEvents_withMesh {s t : State} (h : s.sameButEvents t) (ms : List MeshMsg) :
    ({ s with mesh := ms } : State).sameButEvents { t with mesh := ms } := by
  unfold State.sameButEvents at h ⊢
  exact congrArg (fun u : State => ({ u with mesh := ms } : State)) h

/-- A change of one Plot stays one where the mesh is replaced before and after. -/
theorem onlyPlot_withMesh {p : Nat} {s t : State} (h : State.onlyPlot p s t) (ms : List MeshMsg) :
    State.onlyPlot p { s with mesh := ms } { t with mesh := ms } := by
  obtain ⟨hs, hq⟩ := h
  exact ⟨sameButEvents_withMesh hs ms, hq⟩


/-! ### Transfers -/

section
variable {s : State} {p seq : Nat} {c : DmaCmd}

theorem find?_seq_map {f : DmaCmd → DmaCmd} (hf : ∀ c, (f c).seq = c.seq) (l : List DmaCmd) :
    (l.map (fun c => if c.seq = seq then f c else c)).find? (fun c => c.seq == seq) = (l.find? (fun c => c.seq == seq)).map f := by
  induction l with
  | nil => rfl
  | cons c l ih =>
    by_cases h : c.seq = seq
    · simp [h, hf]
    · simp [h, ih]

/-- A change of a transfer that keeps its issue number is seen where the transfer is looked up. -/
theorem dma?_onDma {f : DmaCmd → DmaCmd} (h : s.dma? p seq = some c) (hf : ∀ c, (f c).seq = c.seq) :
    (s.onDma p seq f).dma? p seq = some (f c) := by
  unfold State.dma? at h ⊢
  simp [State.onDma, find?_seq_map hf, h]

theorem dma?_of_plot {s t : State} (h : (t.plot p).dmaQ = (s.plot p).dmaQ) : t.dma? p seq = s.dma? p seq := by
  simp [State.dma?, h]

theorem onDma_onlyPlot (p seq : Nat) (f : DmaCmd → DmaCmd) (s : State) : State.onlyPlot p s (s.onDma p seq f) :=
  State.onlyPlot_onPlot ..

theorem onDma_dErr (p seq : Nat) (f : DmaCmd → DmaCmd) (s : State) : ((s.onDma p seq f).plot p).dErr = (s.plot p).dErr := by
  simp [State.onDma]

theorem closeRemote_local (h : s.dma? p seq = some c) (hr : (parseDma c.desc).remote = false) : closeRemote p seq s = s := by
  simp [closeRemote, h, hr]

theorem issueReads_done (h : s.dma? p seq = some c) (hi : c.allIssued = true) (fuel : Nat) : issueReads p seq fuel s = s := by
  cases fuel <;> simp [issueReads, h, hi]

end

/-! ### A transfer fails -/

/-- What an event does beyond its post leaves the Journal's records and head. -/
theorem event_records (type cls index : Nat) (pl : List (BitVec 32)) (d : BitVec 32) (s : State) :
    (event type cls index pl d s).host.recs = (post type cls index d s.now pl s).host.recs ∧
    (event type cls index pl d s).host.jhead = (post type cls index d s.now pl s).host.jhead := by
  unfold event stepFatalEffect signalMsix latchCause countClass
  simp only
  (repeat' split) <;> exact ⟨rfl, rfl⟩

theorem posted_event (type cls index : Nat) (pl : List (BitVec 32)) (d : BitVec 32) (s : State) :
    s.posted (event type cls index pl d s) type cls index pl := by
  obtain ⟨hr, hj⟩ := event_records type cls index pl d s
  have h := posted_post type cls index d s.now pl s
  unfold State.posted at h ⊢
  rwa [hr, hj]

/-- Physical Plot p whose transfer fails: PLT_DSTAT takes the first failure alone. -/
def failedPlot (code slot : Nat) (x : Plot) : Plot :=
  if x.dErr then x else { x with dErr := true, dErrCode := BitVec.ofNat 3 code, dErrSlot := BitVec.ofNat 8 slot }

theorem failedPlot_dmaQ (code slot : Nat) (x : Plot) : (failedPlot code slot x).dmaQ = x.dmaQ := by
  unfold failedPlot
  split <;> rfl

theorem failedPlot_dErr (code slot : Nat) (x : Plot) : (failedPlot code slot x).dErr = true := by
  unfold failedPlot
  split <;> simp [*]

theorem failedPlot_first {x : Plot} (h : x.dErr = false) (code slot : Nat) :
    (failedPlot code slot x).dErrCode = BitVec.ofNat 3 code ∧ (failedPlot code slot x).dErrSlot = BitVec.ofNat 8 slot := by
  simp [failedPlot, h]

section
variable {s : State} {p seq code : Nat} {c : DmaCmd}

theorem dmaFail_eq (h : s.dma? p seq = some c) (he : c.err = none) : dmaFail p seq code s =
    event 5 4 p [s.lplotW p, w32 code, w32 c.slot] noDseq
      ((s.onDma p seq (fun c => { c with err := some (BitVec.ofNat 3 code) })).onPlot p (failedPlot code c.slot)) := by
  unfold dmaFail
  simp only [h, he]
  rfl

/-- A transfer that fails has its code; PLT_DSTAT and a DMA_FAULT record of class STEP_FATAL say why (R156, R157). -/
structure Fails (p seq code : Nat) (c : DmaCmd) (s t : State) : Prop where
  dma : t.dma? p seq = some { c with err := some (BitVec.ofNat 3 code) }
  dErr : (t.plot p).dErr = true
  dstat : (s.plot p).dErr = false → (t.plot p).dErrCode = BitVec.ofNat 3 code ∧ (t.plot p).dErrSlot = BitVec.ofNat 8 c.slot
  record : ∃ r, t.host.recs.head? = some r ∧ r.type = 5 ∧ r.cls = 4 ∧ r.payload = [s.lplotW p, w32 code, w32 c.slot]
  only : State.onlyPlot p s t

theorem dmaFail_fails (h : s.dma? p seq = some c) (he : c.err = none) : Fails p seq code c s (dmaFail p seq code s) := by
  rw [dmaFail_eq h he]
  generalize hu : s.onDma p seq (fun c => { c with err := some (BitVec.ofNat 3 code) }) = u
  have hd : u.dma? p seq = some { c with err := some (BitVec.ofNat 3 code) } := by
    rw [← hu]
    exact dma?_onDma h (fun _ => rfl)
  have hp : (u.plot p).dErr = (s.plot p).dErr := hu ▸ onDma_dErr ..
  have hsame := event_same 5 4 p [s.lplotW p, w32 code, w32 c.slot] noDseq (u.onPlot p (failedPlot code c.slot))
  have hplot := State.sameButEvents_plot hsame p
  rw [State.plot_onPlot_self] at hplot
  obtain ⟨r, hr, ht, hc, -, hpl, -⟩ := posted_event 5 4 p [s.lplotW p, w32 code, w32 c.slot] noDseq (u.onPlot p (failedPlot code c.slot))
  refine ⟨?_, ?_, fun h0 => ?_, ⟨r, hr, ht, hc, hpl⟩, ?_⟩
  · rw [dma?_of_plot (s := u) (by rw [hplot, failedPlot_dmaQ]), hd]
  · rw [hplot, failedPlot_dErr]
  · rw [hplot]
    exact failedPlot_first (hp.trans h0) _ _
  · rw [← hu] at hsame ⊢
    exact State.onlyPlot_events (onlyPlot_trans (onDma_onlyPlot ..) (State.onlyPlot_onPlot ..)) hsame

end

/-! ### Answers -/

section
variable {s : State} {k : Nat} {m : MeshMsg} {rest : List MeshMsg} {c : DmaCmd}

theorem meshRsp_write (hc : s.clocked = true) (hm : s.meshAt k true = some (m, rest)) (hw : m.write = true) :
    exec (.meshRsp k) s = .next (dmaAck m.plot m.seq m.len ((m.err.map (·.toNat)).getD 0) { s with mesh := rest }) := by
  simp [exec_meshRsp, execMeshRsp, live_on hc, hm, hw]

theorem meshRsp_data (hc : s.clocked = true) (hm : s.meshAt k true = some (m, rest)) (hw : m.write = false) :
    exec (.meshRsp k) s = .next (dmaData m { s with mesh := rest }) := by
  simp [exec_meshRsp, execMeshRsp, live_on hc, hm, hw]

/-- The transfer as the acknowledgement of n bytes under a code leaves it. -/
def acked (n code : Nat) (c : DmaCmd) : DmaCmd :=
  { c with outWrites := c.outWrites - 1, bytes := if code = 0 && c.err.isNone then c.bytes + n else c.bytes }

/-- The transfer as the answer to a read of n bytes leaves it. -/
def dataTaken (n : Nat) (c : DmaCmd) : DmaCmd := { c with outReads := c.outReads - 1, readBytes := c.readBytes - n }

theorem dmaAck_ok (p seq n : Nat) (s : State) : dmaAck p seq n 0 s = s.onDma p seq (acked n 0) := rfl

/-- A refused write on this device makes its transfer fail. -/
theorem dmaAck_refused {p seq n code : Nat} (h : s.dma? p seq = some c) (he : c.err = none) (hr : (parseDma c.desc).remote = false)
    (hcode : code ≠ 0) : dmaAck p seq n code s = dmaFail p seq code (s.onDma p seq (acked n code)) := by
  have hf := dmaFail_fails (code := code) (dma?_onDma (f := acked n code) h (fun _ => rfl)) he
  have hd : dmaAck p seq n code s = closeRemote p seq (dmaFail p seq code (s.onDma p seq (acked n code))) := if_neg hcode
  rw [hd]
  exact closeRemote_local hf.dma hr

/-- A refused read on this device makes its transfer fail, which then issues no more. -/
theorem dmaData_refused {e : BitVec 3} (h : s.dma? m.plot m.seq = some c) (he : c.err = none) (hs : c.started = true)
    (hr : (parseDma c.desc).remote = false) (hm : m.err = some e) :
    dmaData m s = dmaFail m.plot m.seq e.toNat (s.onDma m.plot m.seq (dataTaken m.len)) := by
  have hf := dmaFail_fails (code := e.toNat) (dma?_onDma (f := dataTaken m.len) h (fun _ => rfl)) he
  have hd : dmaData m s = closeRemote m.plot m.seq (issueReads m.plot m.seq 131072
      (dmaFail m.plot m.seq e.toNat (s.onDma m.plot m.seq (dataTaken m.len)))) := by
    simp [dmaData, h, he, hm]
    rfl
  rw [hd, issueReads_done hf.dma (by simp [DmaCmd.allIssued, dataTaken, hs])]
  exact closeRemote_local hf.dma hr

end

/-! ### Read data -/

/-- t is s with reads of one transfer issued: they join the mesh, and the transfer keeps its descriptor (R155). -/
structure IssuesReads (p seq : Nat) (s t : State) : Prop where
  mesh : ∃ more, t.mesh = s.mesh ++ more ∧ ∀ e ∈ more, e.rsp = false ∧ e.write = false ∧ e.plot = p ∧ e.seq = seq
  desc : (t.dma? p seq).map (·.desc) = (s.dma? p seq).map (·.desc)
  only : State.onlyPlot p { s with mesh := t.mesh } t

section
variable {s t u : State} {p seq : Nat}

theorem IssuesReads.refl (p seq : Nat) (s : State) : IssuesReads p seq s s :=
  ⟨⟨[], by simp⟩, rfl, State.onlyPlot_refl p s⟩

theorem IssuesReads.trans (h : IssuesReads p seq s t) (g : IssuesReads p seq t u) : IssuesReads p seq s u := by
  obtain ⟨⟨xs, hx, hxs⟩, hd, ho⟩ := h
  obtain ⟨⟨ys, hy, hys⟩, gd, go⟩ := g
  refine ⟨⟨xs ++ ys, ?_, fun e he => ?_⟩, gd.trans hd, onlyPlot_trans (onlyPlot_withMesh ho u.mesh) go⟩
  · rw [hy, hx, List.append_assoc]
  · exact (List.mem_append.1 he).elim (hxs e) (hys e)

/-- One read joins the mesh and is counted in its transfer. -/
theorem issuesReads_one {m : MeshMsg} {f : DmaCmd → DmaCmd} (hm : m.rsp = false ∧ m.write = false ∧ m.plot = p ∧ m.seq = seq)
    (hs : ∀ c, (f c).seq = c.seq) (hd : ∀ c, (f c).desc = c.desc) :
    IssuesReads p seq s ({ s with mesh := s.mesh ++ [m] }.onDma p seq f) := by
  refine ⟨⟨[m], rfl, by simp [hm]⟩, ?_, onDma_onlyPlot ..⟩
  cases h : s.dma? p seq with
  | none =>
    have h' : ({ s with mesh := s.mesh ++ [m] } : State).dma? p seq = none := h
    unfold State.dma? at h' ⊢
    simp [State.onDma, find?_seq_map hs, h']
  | some c => simp [dma?_onDma (s := { s with mesh := s.mesh ++ [m] }) h hs, hd]

theorem issueReads_issues (p seq fuel : Nat) (s : State) : IssuesReads p seq s (issueReads p seq fuel s) := by
  induction fuel generalizing s with
  | zero => exact .refl p seq s
  | succ fuel ih =>
    unfold issueReads
    split
    · exact .refl p seq s
    · simp only
      split
      · exact .refl p seq s
      · refine IssuesReads.trans ?_ (ih _)
        exact issuesReads_one ⟨rfl, rfl, rfl, rfl⟩ (fun _ => rfl) (fun _ => rfl)

end

/-- The writes that carry n bytes of read data, from byte o of a transfer on, to its destination (R155). -/
def dataWrites (p seq o : Nat) (c : DmaCmd) (bs : List Byte) : List MeshMsg :=
  (pieces 4096 (c.dstAt (parseDma c.desc) o) bs.length).map (fun q =>
    { plot := p, seq, off := o + (q.1 - c.dstAt (parseDma c.desc) o), write := true, addr := BitVec.ofNat 48 q.1, len := q.2,
      data := (bs.drop (q.1 - c.dstAt (parseDma c.desc) o)).take q.2 })

/-- The transfer with n more writes outstanding. -/
def writesAdded (n : Nat) (c : DmaCmd) : DmaCmd := { c with outWrites := c.outWrites + n }

section
variable {s : State} {m : MeshMsg} {c : DmaCmd}

theorem sendPiece_local {p seq o : Nat} {bs : List Byte} (h : s.dma? p seq = some c) (hr : (parseDma c.desc).remote = false)
    (ha : (parseDma c.desc).append = 0) : sendPiece p seq o bs [] s =
      { s with mesh := s.mesh ++ dataWrites p seq o c bs }.onDma p seq (writesAdded (dataWrites p seq o c bs).length) := by
  unfold sendPiece
  simp only [h, hr, ha]
  rfl

/-- Read data of a transfer on this device goes to its destination; the transfer then issues more reads. -/
theorem dmaData_sent (h : s.dma? m.plot m.seq = some c) (he : c.err = none) (hr : (parseDma c.desc).remote = false)
    (ha : (parseDma c.desc).append = 0) (hm : m.err = none) (hp : m.poison = []) :
    IssuesReads m.plot m.seq ({ s with mesh := s.mesh ++ dataWrites m.plot m.seq m.off c m.data }) (dmaData m s) := by
  generalize hu : sendPiece m.plot m.seq m.off m.data [] (s.onDma m.plot m.seq (dataTaken m.len)) = u
  have ht : (s.onDma m.plot m.seq (dataTaken m.len)).dma? m.plot m.seq = some (dataTaken m.len c) := dma?_onDma h (fun _ => rfl)
  have hd : dmaData m s = closeRemote m.plot m.seq (issueReads m.plot m.seq 131072 u) := by
    rw [← hu]
    simp [dmaData, h, he, hm, hp]
    rfl
  have hus : IssuesReads m.plot m.seq ({ s with mesh := s.mesh ++ dataWrites m.plot m.seq m.off c m.data }) u := by
    rw [sendPiece_local ht hr ha] at hu
    subst hu
    refine ⟨⟨[], (List.append_nil _).symm, by simp⟩, ?_, onlyPlot_trans (onDma_onlyPlot ..) (onDma_onlyPlot ..)⟩
    have hc := dma?_onDma (f := writesAdded (dataWrites m.plot m.seq m.off c m.data).length)
      (s := { s.onDma m.plot m.seq (dataTaken m.len) with mesh := s.mesh ++ dataWrites m.plot m.seq m.off c m.data }) ht (fun _ => rfl)
    exact (congrArg (Option.map (·.desc)) hc).trans (congrArg (Option.map (·.desc)) h).symm
  have hi := hus.trans (issueReads_issues m.plot m.seq 131072 u)
  obtain ⟨c', hc', hdesc⟩ := Option.map_eq_some_iff.1 (hi.desc.trans (congrArg (Option.map (·.desc)) h))
  rw [hd, closeRemote_local hc' (by rw [hdesc, hr])]
  exact hi

end

section
variable {s : State} {k : Nat} {m : MeshMsg} {rest : List MeshMsg} {c : DmaCmd} {e : BitVec 3}

/-- An error reply, to a write or to a read, makes its transfer fail. -/
theorem meshRsp_refused (hc : s.clocked = true) (hm : s.meshAt k true = some (m, rest)) (hd : s.dma? m.plot m.seq = some c)
    (he : m.err = some e) (h0 : e ≠ 0) (hce : c.err = none) (hs : c.started = true) (hr : (parseDma c.desc).remote = false) :
    ∃ t f, exec (.meshRsp k) s = .next t ∧ (f c).slot = c.slot ∧
      Fails m.plot m.seq e.toNat (f c) (({ s with mesh := rest } : State).onDma m.plot m.seq f) t := by
  cases hw : m.write
  · refine ⟨_, dataTaken m.len, meshRsp_data hc hm hw, rfl, ?_⟩
    rw [dmaData_refused (s := { s with mesh := rest }) hd hce hs hr he]
    exact dmaFail_fails (dma?_onDma (s := { s with mesh := rest }) hd (fun _ => rfl)) hce
  · have hcode : ((m.err.map (·.toNat)).getD 0) = e.toNat := by rw [he]; rfl
    refine ⟨_, acked m.len e.toNat, meshRsp_write hc hm hw, rfl, ?_⟩
    rw [hcode, dmaAck_refused (s := { s with mesh := rest }) hd hce hr (fun h => h0 (BitVec.eq_of_toNat_eq h))]
    exact dmaFail_fails (dma?_onDma (s := { s with mesh := rest }) hd (fun _ => rfl)) hce

end

/-! ### The obligation -/

/-- Settles O13: a request is served by the access to device memory it asks for, and an answer takes its transfer on. -/
theorem meshMessages : Obligations.MeshMessages := by
  unfold Obligations.MeshMessages
  intro s k hc
  refine ⟨fun m rest ecc hm => ⟨meshReq_waits hc hm, fun hw => ?_⟩, fun m rest c hm hd => ⟨fun hw he => ?_, ?_, ?_⟩⟩
  · obtain ⟨hrsp, hplot, hseq, hoff, hwr⟩ := serveMesh_reply m ecc { s with mesh := rest }
    refine ⟨_, _, meshReq_served hc hm hw, rfl, hrsp, hplot, hseq, hoff, hwr, fun l o hsp hp ha hn hl ho => ?_,
      fun l o q hsp hp ha hn ho hecc => ⟨fun hwm => ?_, fun hwm hl hb => ?_⟩⟩
    · obtain ⟨herr, hst⟩ := serveMesh_unmapped (s := { s with mesh := rest }) (ecc := ecc) hsp hp ha hn hl ho
      exact ⟨herr, by rw [hst]⟩
    · subst hecc
      obtain ⟨herr, hdata, hst⟩ := serveMesh_read (s := { s with mesh := rest }) hsp hp hn ho hwm
      exact ⟨herr, hdata, by rw [hst]⟩
    · obtain ⟨herr, hst⟩ := serveMesh_write (s := { s with mesh := rest }) (ecc := ecc) hsp hp ha hn ho hwm hl hb
      rw [hst]
      exact ⟨herr, writeRsvAt_resv .., onlyPlot_withMesh (writeRsvAt_onlyPlot ..) _⟩
  · rw [meshRsp_write hc hm hw, he]
    exact congrArg _ (dmaAck_ok ..)
  · intro e he h0 hce hs hr
    obtain ⟨t, f, ht, hslot, hfail⟩ := meshRsp_refused hc hm hd he h0 hce hs hr
    have hmesh : t.mesh = rest := onlyPlot_mesh hfail.only
    refine ⟨t, _, ht, hfail.dma, by simp, hfail.dErr, hmesh, fun h => ?_, ?_, ?_⟩
    · have hst := hfail.dstat ((onDma_dErr ..).trans h)
      rwa [hslot, BitVec.ofNat_toNat, BitVec.setWidth_eq] at hst
    · rw [← hslot]
      exact hfail.record
    · rw [hmesh]
      exact onlyPlot_trans (onDma_onlyPlot ..) hfail.only
  · intro hw he hp hce hr ha
    obtain ⟨⟨more, hmore, hall⟩, -, honly⟩ := dmaData_sent (s := { s with mesh := rest }) hd hce hr ha he hp
    exact ⟨_, more, meshRsp_data hc hm hw, hmore, hall, honly⟩

end Sys2Proof.Machine.MeshService

/-! SUPPORT. Packets of this device (R277, R278, R294, R299, R300, R302): what a delivered packet adds to the router, which packet an
operation serves, and what serving it does. They settle O37. -/

namespace Sys2Proof.Machine.PacketServing

open DeviceMemory

/-! ### The first element that passes a test -/

section
variable {α : Type} {f : α → Bool} {x : α} {l : List α}

theorem takeFirst_head (h : f x = true) : takeFirst f (x :: l) = some (x, l) := by simp [takeFirst, h]

theorem takeFirst_isSome (f : α → Bool) (l : List α) : (takeFirst f l).isSome = l.any f := by
  induction l with
  | nil => rfl
  | cons x l ih =>
    cases h : f x
    · cases g : takeFirst f l <;> simp [takeFirst, h, g, ← ih]
    · simp [takeFirst, h]

theorem takeFirst_eq_none (h : ∀ x ∈ l, f x = false) : takeFirst f l = none := by
  rw [← Option.not_isSome_iff_eq_none, takeFirst_isSome]
  simpa using h

end

/-! ### Delivery -/

/-- The router with a packet delivered: a counted one arrives in its stream, or as a Baton ends the epoch and is answered. -/
def delivered (k : Packet) (r : Router) : Router :=
  let t := r.dstStreams.get (streamKey k.cls k.src) {}
  let put (t : Stream4) : Router := { r with dstStreams := r.dstStreams.put (streamKey k.cls k.src) t }
  let r :=
    if !counted k.cls then r
    else if k.baton then
      { put { t with arrived := t.arrived.set t.expect.toNat 0, expect := t.expect + 1 } with
        injQ := r.injQ.upd (injKey 5 0) [] (· ++ [{ cls := 5, op := 0xA, dst := k.src, src := r.id, arg := w32 k.cls.toNat }]) }
    else put { t with arrived := listUpd t.arrived k.epoch.toNat (· + 1) }
  if k.cls = 3 then r else { r with deliv := r.deliv ++ [k] }

theorem deliver_eq (k : Packet) (s : State) : deliver k s = s.onRouter (delivered k) := by
  unfold deliver delivered
  simp only
  (repeat' split) <;> rfl

section
variable (k : Packet) (r : Router)

theorem delivered_deliv : (delivered k r).deliv = r.deliv ++ (if k.cls = 3 then [] else [k]) := by
  unfold delivered
  simp only
  (repeat' split) <;> simp

theorem delivered_park : (delivered k r).park = r.park := by
  unfold delivered
  simp only
  (repeat' split) <;> rfl

theorem delivered_turnaway : (delivered k r).turnaway = r.turnaway := by
  unfold delivered
  simp only
  (repeat' split) <;> rfl

theorem delivered_granted : (delivered k r).granted = r.granted := by
  unfold delivered
  simp only
  (repeat' split) <;> rfl

variable {k r}

theorem delivered_uncounted (h : counted k.cls = false) : (delivered k r).dstStreams = r.dstStreams ∧ (delivered k r).injQ = r.injQ := by
  unfold delivered
  simp only [h]
  split <;> exact ⟨rfl, rfl⟩

theorem delivered_counted (h : counted k.cls = true) (hb : k.baton = false) : (delivered k r).injQ = r.injQ ∧
    (delivered k r).dstStreams.get (streamKey k.cls k.src) {} =
      { r.dstStreams.get (streamKey k.cls k.src) {} with
        arrived := listUpd (r.dstStreams.get (streamKey k.cls k.src) {}).arrived k.epoch.toNat (· + 1) } := by
  unfold delivered
  simp only [h, hb]
  split <;> simp

theorem delivered_baton (h : counted k.cls = true) (hb : k.baton = true) :
    ((delivered k r).dstStreams.get (streamKey k.cls k.src) {}).expect = (r.dstStreams.get (streamKey k.cls k.src) {}).expect + 1 ∧
    (delivered k r).injQ.get 5 [] = r.injQ.get 5 [] ++
      [{ cls := 5, op := 0xA, dst := k.src, src := r.id, arg := w32 k.cls.toNat }] := by
  unfold delivered
  simp only [h, hb]
  split <;> simp [injKey, Tbl.upd]

end

/-- The router with a freed park entry reserved for the oldest stream turned away. -/
def parkGranted (r : Router) : Router := { r with turnaway := r.turnaway.drop 1, granted := r.granted ++ r.turnaway.take 1 }

theorem parkGranted_none {r : Router} (h : r.turnaway = []) : parkGranted r = r := by
  obtain ⟨⟩ := r
  subst h
  simp [parkGranted]

theorem grantPark_eq (s : State) : grantPark s = s.onRouter parkGranted := by
  unfold grantPark
  split
  · next h => rw [State.onRouter, parkGranted_none h]
  · next h => simp [State.onRouter, parkGranted, h]

/-! ### Serving -/

section
variable {s : State} {op : Nat} {ready : Packet → State → Bool} {act : Packet → State → State} {k : Packet} {r : List Packet}

theorem serveOp_idle (h : ∀ k ∈ s.router.deliv, k.op.toNat ≠ op) : serveOp op ready act s = .next s := by
  simp [serveOp, takeFirst_eq_none (f := fun k : Packet => k.op.toNat == op) (by simpa using h)]

theorem serveOp_head (h : s.router.deliv = k :: r) (ho : k.op.toNat = op) : serveOp op ready act s =
    when (ready k s) (act k { s with router := { s.router with deliv := r } }) s := by
  simp [serveOp, h, takeFirst_head (f := fun k : Packet => k.op.toNat == op) (by simpa using ho)]
  rfl

end

/-! ### WRITE, READ and READ_DATA -/

theorem exec_ejection (die : Nat) (s : State) : exec (.ejection die) s = execEjection die s := by rfl
theorem exec_batonParkDeliver (cls src : Nat) (s : State) : exec (.batonParkDeliver cls src) s = execBatonParkDeliver cls src s := by rfl
theorem exec_write (ecc : List (Nat × EccHit)) (s : State) : exec (.write ecc) s = execWrite ecc s := by rfl
theorem exec_read (ecc : List (Nat × EccHit)) (s : State) : exec (.read ecc) s = execRead ecc s := by rfl
theorem exec_readData (s : State) : exec .readData s = execReadData s := by rfl

theorem memWaits_none (s : State) (a : Nat) : s.memWaits a 0 = false := by simp [State.memWaits, spaces, pieces_zero]

theorem zeroBad_nil (a : Nat) (bs : List Byte) : zeroBad a bs [] = bs := by simp [zeroBad, maskBytes]

theorem badWords_clean {x : Plot} (h : x.resvPoison = []) (a n : Nat) : x.badWords a n = [] := by simp [Plot.badWords, h]

section
variable {s z : State} {k : Packet} {r : List Packet} {ecc : List (Nat × EccHit)}

/-- What serving a WRITE does: the write, its answer, and DST_RAISE with the last packet of a transfer. -/
def writeServed (ecc : List (Nat × EccHit)) (k : Packet) (z : State) : State :=
  let w := devWrite none k.addr.toNat k.payload [] ecc z
  let t := answerWrite k w.1 w.2
  if k.arg.getLsbD 8 && k.arg.getLsbD 7 then
    match t.farPlot k.addr.toNat with
    | some p => raiseLocal p (k.arg.toNat % 64) t
    | none => t
  else t

/-- What serving a READ of n bytes does: the read and its answer. -/
def readServed (ecc : List (Nat × EccHit)) (n : Nat) (k : Packet) (z : State) : State :=
  if 2048 < n then sendNack k 2 z
  else
    let g := devRead none k.addr.toNat n ecc z
    if g.1.err != 0 then sendNack k g.1.err g.2
    else enqueue { cls := 1, op := 4, dst := k.src, tag := k.tag, payload := zeroBad k.addr.toNat g.1.bytes g.1.bad } g.2

theorem write_idle (hc : s.clocked = true) (h : ∀ k ∈ s.router.deliv, k.op ≠ 0) : exec (.write ecc) s = .next s := by
  rw [exec_write, execWrite, live_on hc]
  exact serveOp_idle (fun k hk ho => h k hk (BitVec.eq_of_toNat_eq ho))

theorem read_idle (hc : s.clocked = true) (h : ∀ k ∈ s.router.deliv, k.op ≠ 3) : exec (.read ecc) s = .next s := by
  rw [exec_read, execRead, live_on hc]
  exact serveOp_idle (fun k hk ho => h k hk (BitVec.eq_of_toNat_eq ho))

theorem readData_idle (hc : s.clocked = true) (h : ∀ k ∈ s.router.deliv, k.op ≠ 4) : exec .readData s = .next s := by
  rw [exec_readData, execReadData, live_on hc]
  exact serveOp_idle (fun k hk ho => h k hk (BitVec.eq_of_toNat_eq ho))

variable (hc : s.clocked = true) (hd : s.router.deliv = k :: r) (hz : z = { s with router := { s.router with deliv := r } })
include hc hd hz

theorem write_head (ho : k.op = 0) :
    exec (.write ecc) s = when (!s.memWaits k.addr.toNat k.payload.length) (writeServed ecc k z) s := by
  rw [exec_write, execWrite, live_on hc, serveOp_head hd (by rw [ho]; rfl), ← hz]
  rfl

theorem read_head {n : Nat} (ho : k.op = 3) (hn : n = k.arg.toNat % 4096 + 1) :
    exec (.read ecc) s = when (!s.memWaits k.addr.toNat n) (readServed ecc n k z) s := by
  rw [exec_read, execRead, live_on hc, serveOp_head hd (by rw [ho]; rfl), ← hz, hn]
  rfl

theorem readData_head (ho : k.op = 4) : exec .readData s = .next { z with router := { z.router with
    out := s.router.out - 1
    reqs := match takeFirst (fun q => q.tag == k.tag) s.router.reqs with | some (_, q) => q | none => s.router.reqs
    reply := if s.router.reqs.any (fun q => q.tag == k.tag) then s.router.reply ++ [(k.tag, k.payload)] else s.router.reply } } := by
  rw [exec_readData, execReadData, live_on hc, serveOp_head hd (by rw [ho]; rfl), ← takeFirst_isSome]
  subst hz
  cases h : takeFirst (fun q => q.tag == k.tag) s.router.reqs <;> simp [when, answered, State.reqOf, h, State.onRouter]

end

section
variable {s : State} {k : Packet} {l o p : Nat} {ecc : List (Nat × EccHit)}

/-- A WRITE that is not the last packet of a transfer is written and answered. -/
theorem writeServed_middle (h8 : k.arg.getLsbD 8 = false) : writeServed ecc k s =
    answerWrite k (devWrite none k.addr.toNat k.payload [] ecc s).1 (devWrite none k.addr.toNat k.payload [] ecc s).2 := by
  unfold writeServed
  simp only [h8]
  rfl

theorem writeServed_refused {c : Nat} (h8 : k.arg.getLsbD 8 = false) (h0 : c ≠ 0) (h : s.memErr none k.addr.toNat k.payload.length = c) :
    writeServed ecc k s = enqueue { cls := 1, op := 6, dst := k.src, tag := k.tag, arg := w32 c } s := by
  subst h
  simp [writeServed_middle h8, devWrite_refused h0, answerWrite, h0, sendNack]

theorem writeServed_rsv (h8 : k.arg.getLsbD 8 = false) (h : spaceOf k.addr.toNat = .rsv l o) (hp : s.phys? l = some p)
    (hn : 0 < k.payload.length) (ho : o + k.payload.length ≤ rsvBytes) : writeServed ecc k s =
      enqueue { cls := 1, op := 5, dst := k.src, tag := k.tag } (writeRsvAt p o k.payload [] (hitsOf p ecc) s) := by
  simp [writeServed_middle h8, devWrite_mapped h hp hn ho, answerWrite, sendAck]

theorem writeServed_raise (h8 : k.arg.getLsbD 8 = true) (h7 : k.arg.getLsbD 7 = true) (he : k.payload = [])
    (h : spaceOf k.addr.toNat = .rsv l o) (hp : s.phys? l = some p) : writeServed ecc k s =
      raiseLocal p (k.arg.toNat % 64) (enqueue { cls := 1, op := 5, dst := k.src, tag := k.tag } s) := by
  have hw : devWrite none k.addr.toNat k.payload [] ecc s = (0, s) := by
    simp [devWrite, he, State.memErr, spaces, pieces_zero]
  have hf (t : State) (ht : t.phys? l = s.phys? l) : t.farPlot k.addr.toNat = some p := by
    simp [State.farPlot, h, rsvPlot_rsv, ht, hp]
  simp [writeServed, hw, h8, h7, answerWrite, sendAck, hf (enqueue _ s) rfl]

theorem readServed_long {n : Nat} (h : 2048 < n) :
    readServed ecc n k s = enqueue { cls := 1, op := 6, dst := k.src, tag := k.tag, arg := 2 } s := by
  simp [readServed, h]
  rfl

theorem readServed_unmapped {n : Nat} (h2 : n ≤ 2048) (h : spaceOf k.addr.toNat = .rsv l o) (hp : s.phys? l = none) (hn : 0 < n)
    (ho : o + n ≤ rsvBytes) :
    readServed ecc n k s = enqueue { cls := 1, op := 6, dst := k.src, tag := k.tag, arg := 2 } s := by
  simp [readServed, Nat.not_lt.2 h2, devRead_unmapped h hp hn ho]
  rfl

theorem readServed_rsv {n : Nat} (h2 : n ≤ 2048) (h : spaceOf k.addr.toNat = .rsv l o) (hp : s.phys? l = some p) (hn : 0 < n)
    (ho : o + n ≤ rsvBytes) (hb : (s.plot p).resvPoison = []) : readServed [] n k s =
      enqueue { cls := 1, op := 4, dst := k.src, tag := k.tag, payload := (s.plot p).resv.bytes o n } s := by
  simp [readServed, Nat.not_lt.2 h2, devRead_mapped h hp hn ho, hitsOf, readRsv_clean, badWords_clean hb, zeroBad_nil]

end

/-! ### Ejection and the park -/

section
variable {s : State} {die : Nat} {k : Packet} {r : List Packet}

theorem ejection_empty (hc : s.clocked = true) (h : s.router.eject.get die [] = []) : exec (.ejection die) s = .next s := by
  simp [exec_ejection, execEjection, live_on hc, h]

theorem ejection_head (hc : s.clocked = true) (h : s.router.eject.get die [] = k :: r) :
    exec (.ejection die) s = .next (deliverChecked k { s with router := { s.router with eject := s.router.eject.put die r } }) := by
  simp [exec_ejection, execEjection, live_on hc, h]
  rfl

theorem batonParkDeliver_idle {cls src : Nat} (hc : s.clocked = true)
    (h : ∀ k ∈ s.router.park, k.cls.toNat = cls → k.src.toNat = src → s.batonDue k = false) :
    exec (.batonParkDeliver cls src) s = .next s := by
  have hn : takeFirst (fun k : Packet => k.cls.toNat == cls && k.src.toNat == src && s.batonDue k) s.router.park = none :=
    takeFirst_eq_none (fun k hk => by
      by_cases hcls : k.cls.toNat = cls <;> by_cases hsrc : k.src.toNat = src <;> simp [hcls, hsrc]
      exact h k hk hcls hsrc)
  simp [exec_batonParkDeliver, execBatonParkDeliver, live_on hc, hn]

theorem batonParkDeliver_head {cls src : Nat} (hc : s.clocked = true) (h : s.router.park = k :: r) (hcls : k.cls.toNat = cls)
    (hsrc : k.src.toNat = src) (hdue : s.batonDue k = true) (hcrc : k.crc = k.goodCrc) :
    exec (.batonParkDeliver cls src) s = .next (s.onRouter (fun q => delivered k (parkGranted { q with park := r }))) := by
  have ht : takeFirst (fun k : Packet => k.cls.toNat == cls && k.src.toNat == src && s.batonDue k) (k :: r) = some (k, r) :=
    takeFirst_head (by simp [hcls, hsrc, hdue])
  simp only [exec_batonParkDeliver, execBatonParkDeliver, live_on hc, h, ht, deliverChecked, hcrc, deliver_eq, grantPark_eq]
  rfl

end

/-! ### The obligation -/

/-- Settles O37: ejection and the park deliver packets, and each operation serves the oldest delivered packet of its own. -/
theorem packetService : Obligations.PacketService := by
  unfold Obligations.PacketService
  intro s hc
  refine ⟨fun die => ejection_empty hc, fun die k r z he hz => ⟨fun hbad => ?_, fun hgood => ?_⟩, fun cls src => batonParkDeliver_idle hc,
    fun cls src k r hp hcls hsrc hdue hcrc => ?_, fun h ecc => write_idle hc h, fun h ecc => read_idle hc h, readData_idle hc,
    fun k r z ecc hd hz => ⟨fun ho hw => ?_, fun ho h8 hw hn => ⟨fun c h0 herr => ?_, fun l o p hsp hp hlen => ?_⟩,
      fun ho h8 h7 he l o p hsp hp => ?_, fun n ho hn hw => ?_, fun n ho hn hw => ⟨fun hlong => ?_, fun l o p h2 hsp hlen =>
        ⟨fun hp => ?_, fun hp hb hecc => ?_⟩⟩, readData_head hc hd hz⟩⟩
  · rw [ejection_head hc he, ← hz, deliverChecked, if_neg hbad]
  · subst hz
    refine ⟨_, by rw [ejection_head hc he, deliverChecked, if_pos hgood, deliver_eq], delivered_deliv .., fun h => ?_,
      fun h hb => ?_, fun h hb => ?_, rfl⟩
    · exact delivered_uncounted h
    · exact delivered_counted h hb
    · exact delivered_baton h hb
  · exact ⟨_, batonParkDeliver_head hc hp hcls hsrc hdue hcrc, delivered_park .., delivered_deliv .., delivered_turnaway ..,
      delivered_granted .., rfl⟩
  · rw [write_head hc hd hz ho, hw]
    rfl
  · rw [write_head hc hd hz ho, hw, ← writeServed_refused (s := z) (ecc := ecc) h8 h0 (by rw [hz]; exact herr)]
    rfl
  · have hpz : z.phys? l = some p := by rw [hz]; exact hp
    have hplot : z.plot = s.plot := by rw [hz]; rfl
    have honly := writeRsvAt_onlyPlot p o k.payload [] (hitsOf p ecc) z
    refine ⟨writeRsvAt p o k.payload [] (hitsOf p ecc) z, ?_, ?_, fun q hq => ?_, fun hecc => ?_, honly.1⟩
    · rw [write_head hc hd hz ho, hw, ← writeServed_rsv h8 hsp hpz hn hlen]
      rfl
    · rw [writeRsvAt_resv, hplot]
    · rw [honly.2 q hq, hplot]
    · subst hecc
      exact writeRsvAt_clean p o k.payload z ▸ rfl
  · rw [write_head hc hd hz ho, he, List.length_nil, memWaits_none,
      ← writeServed_raise (s := z) (ecc := ecc) h8 h7 he hsp (by rw [hz]; exact hp)]
    rfl
  · rw [read_head hc hd hz ho hn, hw]
    rfl
  · rw [read_head hc hd hz ho hn, hw, ← readServed_long (s := z) (k := k) (ecc := ecc) hlong]
    rfl
  · rw [read_head hc hd hz ho hn, hw,
      ← readServed_unmapped (s := z) (ecc := ecc) h2 hsp (by rw [hz]; exact hp) (by omega) hlen]
    rfl
  · have hpz : z.phys? l = some p := by rw [hz]; exact hp
    have hplot : s.plot p = z.plot p := by rw [hz]; rfl
    rw [hplot] at hb ⊢
    rw [read_head hc hd hz ho hn, hw, hecc, ← readServed_rsv h2 hsp hpz (by omega) hlen hb]
    rfl

end Sys2Proof.Machine.PacketServing
